-- ==== Sys2Proof/Word.lean ====
section
/-!
DEFINITION. Sys2Proof/Word.lean: the words of the machine and their plainest arithmetic (03_numbers R42, 04_threads R62).
-/
namespace Sys2Proof

/-- A scalar register, an address or a CSR (R62). -/
abbrev Word := BitVec 64
/-- A vector register (R62). -/
abbrev Vec := BitVec 256
/-- A mask register (R62). -/
abbrev Mask := BitVec 32
/-- An instruction word (R21). -/
abbrev IWord := BitVec 32
/-- One byte of any store. -/
abbrev Byte := BitVec 8
/-- The name of an x or v register. -/
abbrev Reg := BitVec 5

/-- The `n` low bits of a number as a word. -/
abbrev w64 (n : Nat) : Word := BitVec.ofNat 64 n

/-- Sign extension of the `n` low bits of `x` to 64 bits (R5 sext). -/
def sextLow (n : Nat) (x : Word) : Word := ((x.setWidth n).signExtend 64)

/-- Zero extension of the `n` low bits of `x` to 64 bits (R5 zext). -/
def zextLow (n : Nat) (x : Word) : Word := ((x.setWidth n).setWidth 64)

/-- A truth value as the word 1 or 0. -/
def boolWord (b : Bool) : Word := if b then 1 else 0

end Sys2Proof
end

