-- ==== Sys2Proof/Syntax.lean ====
section
/-!
DEFINITION. Sys2Proof/Syntax.lean: the instructions and events of the part as data, one constructor per row of the
opcode table (02_instruction_words R21 to R35), and the kinds their operands have.
-/
namespace Sys2Proof

/-- The type codes of a vector operand (R30): .b .h .w .hu .hf .bf .f .x. -/
inductive VType where
  | b | h | w | hu | hf | bf | f | x
  deriving DecidableEq, Repr

/-- The code of a type (R30). -/
def VType.bits : VType → BitVec 3
  | .b => 0 | .h => 1 | .w => 2 | .hu => 3 | .hf => 4 | .bf => 5 | .f => 6 | .x => 7

/-- The type of a code (R30). -/
def VType.ofBits (t : BitVec 3) : VType :=
  match t with
  | 0 => .b | 1 => .h | 2 => .w | 3 => .hu | 4 => .hf | 5 => .bf | 6 => .f | 7 => .x

/-- The lane width of a type in bytes (R158). -/
def VType.size : VType → Nat
  | .b | .x => 1
  | .h | .hu | .hf | .bf => 2
  | .w | .f => 4

/-- The number of lanes of a type in one register (R158). -/
def VType.lanes (t : VType) : Nat := 32 / t.size

/-- Scopes (R29, R123): group, die, device (the package) and system. -/
inductive Scope where
  | g | d | v | s
  deriving DecidableEq, Repr

/-- The code of a scope (R29). -/
def Scope.bits : Scope → BitVec 2
  | .g => 0 | .d => 1 | .v => 2 | .s => 3

/-- The scope of a code (R29). -/
def Scope.ofBits (b : BitVec 2) : Scope :=
  match b with
  | 0 => .g | 1 => .d | 2 => .v | 3 => .s

/-- Rounding modes of a conversion (R30, R47). -/
inductive Round where
  | rne | rtz | rdn | rup
  deriving DecidableEq, Repr

/-- The code of a rounding mode (R30). -/
def Round.bits : Round → BitVec 2
  | .rne => 0 | .rtz => 1 | .rdn => 2 | .rup => 3

/-- The rounding mode of a code (R30). -/
def Round.ofBits (b : BitVec 2) : Round :=
  match b with
  | 0 => .rne | 1 => .rtz | 2 => .rdn | 3 => .rup

/-- The kinds of access a page table entry is asked to permit (R311): a thread's read, write, or read and write; an
engine's read, write, or read and write; the queue processor's image read. -/
inductive Access where
  | read | write | rw | eread | ewrite | erw | image
  deriving DecidableEq, Repr

/-- What the tag of a Jorrax flit is over (R324): its type, key slot, version, acknowledged sequence number, sequence number and
encrypted payload. -/
structure FlitText where
  type : BitVec 8
  slot : BitVec 1
  ver  : BitVec 8
  ackSeq : BitVec 40
  seq  : BitVec 64
  payload : BitVec 1792
  deriving DecidableEq, Repr

/-- A Jorrax flit (R324): what its tag is over, and the tag. -/
structure Flit extends FlitText where
  tag  : BitVec 128
  deriving DecidableEq, Repr

/-- The other end of a Jorrax port (R324): its package and port numbers. -/
structure FarEnd where
  package : BitVec 16
  port : BitVec 8
  deriving DecidableEq, Repr

/-- The lowest and highest versions one side of an interface offers (R333). -/
structure Offer where
  lo : Nat
  hi : Nat
  deriving DecidableEq, Repr

/-- Where a host access goes (R330): its BAR and the offset in it. -/
structure HostAddr where
  bar : Nat
  off : Nat
  deriving DecidableEq, Repr

/-- What a remote access asks of its target (R328): a load, a store, a counter add, a far atomic by its op number (R148), each
posted or with its old value returned, or an ACAS with the value it expects (R151). -/
inductive RemoteOp where
  | load | store | cadd (posted : Bool) | atomic (op : Nat) (posted : Bool) | acas (expect : Word)
  deriving DecidableEq, Repr

/-- A Waisar frame (R335): its EtherType and the 46 bytes of its payload. -/
structure WaisarFrame where
  etherType : BitVec 16
  payload : List (BitVec 8)
  deriving DecidableEq, Repr

/-- A signed image as the boot chain reads it (R368): its header's MAGIC, SVN and LENGTH, its signing public key, its LMS
signature, and its body: in the firmware's body, the hash of the supervisor's key (R369); in the supervisor's, the parts of
its stub for the I-store and the TCM (R298), the descriptor of context 0 and the vcore it starts on; and its code. -/
structure FirmImage where
  magic : Nat
  svn : BitVec 16
  length : Nat
  pubKey : Nat
  signature : Nat
  supKeyHash : Nat
  stub : List (BitVec 8)
  tcmStub : List (BitVec 8)
  desc : List (BitVec 64)
  vcore : Nat
  code : List (BitVec 8)
  deriving DecidableEq, Repr

/-- What bring-up stage 2 finds (R367): whether LPDDR-6 trained, the lowest and highest versions the host and the power shelf
offer (R333), the package and Waisar node numbers assigned, the packages it can reach, and the starting PT a neighbour whose
PT is established delivers (R334). -/
structure LinkInfo where
  trained : Bool
  hostLo : Nat
  hostHi : Nat
  waisarLo : Nat
  waisarHi : Nat
  package : BitVec 16
  node : Nat
  reach : List (BitVec 16)
  startPt : Option (BitVec 64)
  deriving DecidableEq, Repr

/-- The instructions and events of the part: one constructor per row of the opcode table (R21 to R34, and the steps of
the machine that carry no word): words first, then the steps the machine takes of itself, then the others. A word's last operand `mark` is its switch marker (R21). -/
inductive Instr where
  /-- LUI (R81). Writes the sign-extended upper immediate shifted left by 12 into rd as a short result. -/
  | lui (rd : BitVec 5) (imm : BitVec 20) (mark : Bool)
  /-- AUIPC (R81). Writes PC plus the sign-extended upper immediate into rd as a short result. -/
  | auipc (rd : BitVec 5) (imm : BitVec 20) (mark : Bool)
  /-- JAL (R82). Jumps PC-relative after the target check and writes the link value PC+4 to rd. -/
  | jal (rd : BitVec 5) (off : BitVec 20) (mark : Bool)
  /-- JALR (R82). Jumps to rs1 plus imm with bit 0 cleared after the target check and writes the link value to rd. -/
  | jalr (rd : BitVec 5) (rs1 : BitVec 5) (imm : BitVec 12) (mark : Bool)
  /-- BEQ (R83). Branches when rs1 equals rs2. -/
  | beq (rs1 : BitVec 5) (rs2 : BitVec 5) (off : BitVec 12) (mark : Bool)
  /-- BNE (R83). Branches when rs1 differs from rs2. -/
  | bne (rs1 : BitVec 5) (rs2 : BitVec 5) (off : BitVec 12) (mark : Bool)
  /-- BLT (R83). Branches when rs1 is less than rs2, signed. -/
  | blt (rs1 : BitVec 5) (rs2 : BitVec 5) (off : BitVec 12) (mark : Bool)
  /-- BGE (R83). Branches when rs1 is at least rs2, signed. -/
  | bge (rs1 : BitVec 5) (rs2 : BitVec 5) (off : BitVec 12) (mark : Bool)
  /-- BLTU (R83). Branches when rs1 is less than rs2, unsigned. -/
  | bltu (rs1 : BitVec 5) (rs2 : BitVec 5) (off : BitVec 12) (mark : Bool)
  /-- BGEU (R83). Branches when rs1 is at least rs2, unsigned. -/
  | bgeu (rs1 : BitVec 5) (rs2 : BitVec 5) (off : BitVec 12) (mark : Bool)
  /-- LB (R91). Loads a sign-extended byte into rd as a long result. -/
  | lb (rd : BitVec 5) (rs1 : BitVec 5) (imm : BitVec 12) (mark : Bool)
  /-- LH (R91). Loads a sign-extended halfword into rd. -/
  | lh (rd : BitVec 5) (rs1 : BitVec 5) (imm : BitVec 12) (mark : Bool)
  /-- LW (R91). Loads a sign-extended word into rd. -/
  | lw (rd : BitVec 5) (rs1 : BitVec 5) (imm : BitVec 12) (mark : Bool)
  /-- LD (R91). Loads a doubleword into rd. -/
  | ld (rd : BitVec 5) (rs1 : BitVec 5) (imm : BitVec 12) (mark : Bool)
  /-- LBU (R91). Loads a zero-extended byte into rd. -/
  | lbu (rd : BitVec 5) (rs1 : BitVec 5) (imm : BitVec 12) (mark : Bool)
  /-- LHU (R91). Loads a zero-extended halfword into rd. -/
  | lhu (rd : BitVec 5) (rs1 : BitVec 5) (imm : BitVec 12) (mark : Bool)
  /-- LWU (R91). Loads a zero-extended word into rd. -/
  | lwu (rd : BitVec 5) (rs1 : BitVec 5) (imm : BitVec 12) (mark : Bool)
  /-- SB (R91). Stores the low byte of rs2, held until the commit walk presents it. -/
  | sb (rs2 : BitVec 5) (rs1 : BitVec 5) (imm : BitVec 12) (mark : Bool)
  /-- SH (R91). Stores the low halfword of rs2. -/
  | sh (rs2 : BitVec 5) (rs1 : BitVec 5) (imm : BitVec 12) (mark : Bool)
  /-- SW (R91). Stores the low word of rs2. -/
  | sw (rs2 : BitVec 5) (rs1 : BitVec 5) (imm : BitVec 12) (mark : Bool)
  /-- SD (R91). Stores the doubleword rs2. -/
  | sd (rs2 : BitVec 5) (rs1 : BitVec 5) (imm : BitVec 12) (mark : Bool)
  /-- ADDI (R85). Adds the immediate to rs1, wrapping. -/
  | addi (rd : BitVec 5) (rs1 : BitVec 5) (imm : BitVec 12) (mark : Bool)
  /-- SLTI (R85). Sets rd to 1 when rs1 is less than the immediate, signed. -/
  | slti (rd : BitVec 5) (rs1 : BitVec 5) (imm : BitVec 12) (mark : Bool)
  /-- SLTIU (R85). Sets rd to 1 when rs1 is less than the sign-extended immediate, unsigned. -/
  | sltiu (rd : BitVec 5) (rs1 : BitVec 5) (imm : BitVec 12) (mark : Bool)
  /-- XORI (R85). Exclusive-ORs rs1 with the immediate. -/
  | xori (rd : BitVec 5) (rs1 : BitVec 5) (imm : BitVec 12) (mark : Bool)
  /-- ORI (R85). ORs rs1 with the immediate. -/
  | ori (rd : BitVec 5) (rs1 : BitVec 5) (imm : BitVec 12) (mark : Bool)
  /-- ANDI (R85). ANDs rs1 with the immediate. -/
  | andi (rd : BitVec 5) (rs1 : BitVec 5) (imm : BitVec 12) (mark : Bool)
  /-- SLLI (R85). Shifts rs1 left by a 6-bit immediate. -/
  | slli (rd : BitVec 5) (rs1 : BitVec 5) (sh : BitVec 6) (mark : Bool)
  /-- SRLI (R85). Shifts rs1 right logically by a 6-bit immediate. -/
  | srli (rd : BitVec 5) (rs1 : BitVec 5) (sh : BitVec 6) (mark : Bool)
  /-- SRAI (R85). Shifts rs1 right arithmetically by a 6-bit immediate. -/
  | srai (rd : BitVec 5) (rs1 : BitVec 5) (sh : BitVec 6) (mark : Bool)
  /-- CLZ (R90). Counts the leading zero bits of rs1. -/
  | clz (rd : BitVec 5) (rs1 : BitVec 5) (mark : Bool)
  /-- CTZ (R90). Counts the trailing zero bits of rs1. -/
  | ctz (rd : BitVec 5) (rs1 : BitVec 5) (mark : Bool)
  /-- CPOP (R90). Counts the one bits of rs1. -/
  | cpop (rd : BitVec 5) (rs1 : BitVec 5) (mark : Bool)
  /-- ADDIW (R87). Adds the immediate to the low 32 bits of rs1 and sign-extends. -/
  | addiw (rd : BitVec 5) (rs1 : BitVec 5) (imm : BitVec 12) (mark : Bool)
  /-- SLLIW (R87). Shifts the low word left by a 5-bit immediate and sign-extends. -/
  | slliw (rd : BitVec 5) (rs1 : BitVec 5) (sh : BitVec 5) (mark : Bool)
  /-- SRLIW (R87). Shifts the low word right logically and sign-extends. -/
  | srliw (rd : BitVec 5) (rs1 : BitVec 5) (sh : BitVec 5) (mark : Bool)
  /-- SRAIW (R87). Shifts the low word right arithmetically and sign-extends. -/
  | sraiw (rd : BitVec 5) (rs1 : BitVec 5) (sh : BitVec 5) (mark : Bool)
  /-- ADD (R86). Adds rs1 and rs2, wrapping. -/
  | add (rd : BitVec 5) (rs1 : BitVec 5) (rs2 : BitVec 5) (mark : Bool)
  /-- SUB (R86). Subtracts rs2 from rs1, wrapping. -/
  | sub (rd : BitVec 5) (rs1 : BitVec 5) (rs2 : BitVec 5) (mark : Bool)
  /-- SLL (R86). Shifts rs1 left by rs2[5:0]. -/
  | sll (rd : BitVec 5) (rs1 : BitVec 5) (rs2 : BitVec 5) (mark : Bool)
  /-- SLT (R86). Sets rd when rs1 is less than rs2, signed. -/
  | slt (rd : BitVec 5) (rs1 : BitVec 5) (rs2 : BitVec 5) (mark : Bool)
  /-- SLTU (R86). Sets rd when rs1 is less than rs2, unsigned. -/
  | sltu (rd : BitVec 5) (rs1 : BitVec 5) (rs2 : BitVec 5) (mark : Bool)
  /-- XOR (R86). Exclusive-ORs rs1 and rs2. -/
  | xor (rd : BitVec 5) (rs1 : BitVec 5) (rs2 : BitVec 5) (mark : Bool)
  /-- SRL (R86). Shifts rs1 right logically by rs2[5:0]. -/
  | srl (rd : BitVec 5) (rs1 : BitVec 5) (rs2 : BitVec 5) (mark : Bool)
  /-- SRA (R86). Shifts rs1 right arithmetically by rs2[5:0]. -/
  | sra (rd : BitVec 5) (rs1 : BitVec 5) (rs2 : BitVec 5) (mark : Bool)
  /-- OR (R86). ORs rs1 and rs2. -/
  | or (rd : BitVec 5) (rs1 : BitVec 5) (rs2 : BitVec 5) (mark : Bool)
  /-- AND (R86). ANDs rs1 and rs2. -/
  | and (rd : BitVec 5) (rs1 : BitVec 5) (rs2 : BitVec 5) (mark : Bool)
  /-- ORN (R90). ORs rs1 with the complement of rs2. -/
  | orn (rd : BitVec 5) (rs1 : BitVec 5) (rs2 : BitVec 5) (mark : Bool)
  /-- ANDN (R90). ANDs rs1 with the complement of rs2. -/
  | andn (rd : BitVec 5) (rs1 : BitVec 5) (rs2 : BitVec 5) (mark : Bool)
  /-- MUL (R88). Writes the low 64 bits of the product as a long result. -/
  | mul (rd : BitVec 5) (rs1 : BitVec 5) (rs2 : BitVec 5) (mark : Bool)
  /-- MULH (R88). Writes the upper half of the signed 128-bit product. -/
  | mulh (rd : BitVec 5) (rs1 : BitVec 5) (rs2 : BitVec 5) (mark : Bool)
  /-- MULHSU (R88). Writes the upper half of the signed-by-unsigned product. -/
  | mulhsu (rd : BitVec 5) (rs1 : BitVec 5) (rs2 : BitVec 5) (mark : Bool)
  /-- MULHU (R88). Writes the upper half of the unsigned product. -/
  | mulhu (rd : BitVec 5) (rs1 : BitVec 5) (rs2 : BitVec 5) (mark : Bool)
  /-- DIV (R89). Signed division towards zero with defined results for a zero divisor and overflow. -/
  | div (rd : BitVec 5) (rs1 : BitVec 5) (rs2 : BitVec 5) (mark : Bool)
  /-- DIVU (R89). Unsigned division; a zero divisor gives all ones and sets vflags.DZ. -/
  | divu (rd : BitVec 5) (rs1 : BitVec 5) (rs2 : BitVec 5) (mark : Bool)
  /-- REM (R89). Signed remainder taking the sign of the dividend. -/
  | rem (rd : BitVec 5) (rs1 : BitVec 5) (rs2 : BitVec 5) (mark : Bool)
  /-- REMU (R89). Unsigned remainder. -/
  | remu (rd : BitVec 5) (rs1 : BitVec 5) (rs2 : BitVec 5) (mark : Bool)
  /-- MIN (R90). Writes the lesser of rs1 and rs2, signed. -/
  | min (rd : BitVec 5) (rs1 : BitVec 5) (rs2 : BitVec 5) (mark : Bool)
  /-- MINU (R90). Writes the lesser of rs1 and rs2, unsigned. -/
  | minu (rd : BitVec 5) (rs1 : BitVec 5) (rs2 : BitVec 5) (mark : Bool)
  /-- MAX (R90). Writes the greater of rs1 and rs2, signed. -/
  | max (rd : BitVec 5) (rs1 : BitVec 5) (rs2 : BitVec 5) (mark : Bool)
  /-- MAXU (R90). Writes the greater of rs1 and rs2, unsigned. -/
  | maxu (rd : BitVec 5) (rs1 : BitVec 5) (rs2 : BitVec 5) (mark : Bool)
  /-- SH1ADD (R90). Adds rs2 to rs1 shifted left by 1. -/
  | sh1add (rd : BitVec 5) (rs1 : BitVec 5) (rs2 : BitVec 5) (mark : Bool)
  /-- SH2ADD (R90). Adds rs2 to rs1 shifted left by 2. -/
  | sh2add (rd : BitVec 5) (rs1 : BitVec 5) (rs2 : BitVec 5) (mark : Bool)
  /-- SH3ADD (R90). Adds rs2 to rs1 shifted left by 3. -/
  | sh3add (rd : BitVec 5) (rs1 : BitVec 5) (rs2 : BitVec 5) (mark : Bool)
  /-- ADDW (R87). Adds the low words and sign-extends. -/
  | addw (rd : BitVec 5) (rs1 : BitVec 5) (rs2 : BitVec 5) (mark : Bool)
  /-- SUBW (R87). Subtracts the low words and sign-extends. -/
  | subw (rd : BitVec 5) (rs1 : BitVec 5) (rs2 : BitVec 5) (mark : Bool)
  /-- SLLW (R87). Shifts the low word left by rs2[4:0] and sign-extends. -/
  | sllw (rd : BitVec 5) (rs1 : BitVec 5) (rs2 : BitVec 5) (mark : Bool)
  /-- SRLW (R87). Shifts the low word right logically and sign-extends. -/
  | srlw (rd : BitVec 5) (rs1 : BitVec 5) (rs2 : BitVec 5) (mark : Bool)
  /-- SRAW (R87). Shifts the low word right arithmetically and sign-extends. -/
  | sraw (rd : BitVec 5) (rs1 : BitVec 5) (rs2 : BitVec 5) (mark : Bool)
  /-- MULW (R88). Multiplies and sign-extends the low 32 bits. -/
  | mulw (rd : BitVec 5) (rs1 : BitVec 5) (rs2 : BitVec 5) (mark : Bool)
  /-- DIVW (R89). Signed 32-bit division, sign-extended. -/
  | divw (rd : BitVec 5) (rs1 : BitVec 5) (rs2 : BitVec 5) (mark : Bool)
  /-- DIVUW (R89). Unsigned 32-bit division, sign-extended. -/
  | divuw (rd : BitVec 5) (rs1 : BitVec 5) (rs2 : BitVec 5) (mark : Bool)
  /-- REMW (R89). Signed 32-bit remainder, sign-extended. -/
  | remw (rd : BitVec 5) (rs1 : BitVec 5) (rs2 : BitVec 5) (mark : Bool)
  /-- REMUW (R89). Unsigned 32-bit remainder, sign-extended. -/
  | remuw (rd : BitVec 5) (rs1 : BitVec 5) (rs2 : BitVec 5) (mark : Bool)
  /-- ECALL (R99). Raises the environment-call trap in the commit walk. -/
  | ecall (mark : Bool)
  /-- EBREAK (R99). Raises the debug trap in the commit walk. -/
  | ebreak (mark : Bool)
  /-- XRET (R100). Returns from a trap to tepc of the bank in use, restoring mode and level and resuming a pending wait. -/
  | xret (mark : Bool)
  /-- CSRRW (R96). Reads a CSR into rd and writes rs1 to it in the walk. -/
  | csrrw (rd : BitVec 5) (csr : BitVec 12) (rs1 : BitVec 5) (mark : Bool)
  /-- CSRRS (R96). Reads a CSR and sets the bits of rs1 in it. -/
  | csrrs (rd : BitVec 5) (csr : BitVec 12) (rs1 : BitVec 5) (mark : Bool)
  /-- CSRRC (R96). Reads a CSR and clears the bits of rs1 in it. -/
  | csrrc (rd : BitVec 5) (csr : BitVec 12) (rs1 : BitVec 5) (mark : Bool)
  /-- CSRRWI (R96). Reads a CSR and writes a 5-bit immediate to it. -/
  | csrrwi (rd : BitVec 5) (csr : BitVec 12) (z : BitVec 5) (mark : Bool)
  /-- CSRRSI (R96). Reads a CSR and sets the immediate's bits in it. -/
  | csrrsi (rd : BitVec 5) (csr : BitVec 12) (z : BitVec 5) (mark : Bool)
  /-- CSRRCI (R96). Reads a CSR and clears the immediate's bits in it. -/
  | csrrci (rd : BitVec 5) (csr : BitVec 12) (z : BitVec 5) (mark : Bool)
  /-- CWAIT (R145). Waits at the home until a counter reaches a target, returning value and status, with acquire on success. -/
  | cwait (rd : BitVec 5) (rs1 : BitVec 5) (rs2 : BitVec 5) (rs3 : BitVec 5) (mark : Bool)
  /-- LWAIT (R152). Waits at the home until a word differs from a compare value. -/
  | lwait (rd : BitVec 5) (rs1 : BitVec 5) (rs2 : BitVec 5) (rs3 : BitVec 5) (mark : Bool)
  /-- BARW (R264). Arrives at the group barrier with release and waits for the phase to complete or withdraws at the deadline. -/
  | barw (rd : BitVec 5) (rs1 : BitVec 5) (rs3 : BitVec 5) (mark : Bool)
  /-- RECV (R202). Takes the head packet of a selected inbox class queue, waiting under a deadline. -/
  | recv (rd : BitVec 5) (rs1 : BitVec 5) (rs3 : BitVec 5) (mark : Bool)
  /-- FENCEW (R130). Waits until the selected classes of earlier accesses are drained at the given scope, returning OK or PARTIAL. -/
  | fencew (scope : Scope) (rd : BitVec 5) (rs1 : BitVec 5) (rs3 : BitVec 5) (mark : Bool)
  /-- MWAIT (R155). Waits until a monitor entry of the slot is written, lost, or a move SPUR is pending. -/
  | mwait (rd : BitVec 5) (rs3 : BitVec 5) (mark : Bool)
  /-- IFENCEW (R138). Waits until accepted I-store stores are written, then discards fetched-ahead words. -/
  | ifencew (rd : BitVec 5) (rs3 : BitVec 5) (mark : Bool)
  /-- BARX (R266). Waits for the phase of the issuer's outstanding barrier arrival without arriving. -/
  | barx (rd : BitVec 5) (rs1 : BitVec 5) (rs3 : BitVec 5) (mark : Bool)
  /-- SPAWN (R285). Enqueues a light-thread entry in the die's pool, waiting under a deadline for a free entry. -/
  | spawn (rd : BitVec 5) (rs1 : BitVec 5) (rs2 : BitVec 5) (rs3 : BitVec 5) (mark : Bool)
  /-- ACAS_V (R151). Compares and swaps a doubleword at its home at package scope. -/
  | acasV (rd : BitVec 5) (rs1 : BitVec 5) (rs2 : BitVec 5) (rs3 : BitVec 5) (mark : Bool)
  /-- ACAS_S (R151). Compares and swaps a doubleword at its home at system scope. -/
  | acasS (rd : BitVec 5) (rs1 : BitVec 5) (rs2 : BitVec 5) (rs3 : BitVec 5) (mark : Bool)
  /-- TTAKE (R220). Waits until no command names a scratchpad tile, then returns it to the threads with acquire. -/
  | ttake (rd : BitVec 5) (rs1 : BitVec 5) (rs3 : BitVec 5) (mark : Bool)
  /-- QPUSH (R212). Pushes a 64-byte command from a vector register pair into an engine inbox window. -/
  | qpush (rd : BitVec 5) (rs1 : BitVec 5) (rs2 : BitVec 5) (rs3 : BitVec 5) (mark : Bool)
  /-- EVSTEP (R201). Closes the current step of an SDU range and waits until the step is Done. -/
  | evstep (rd : BitVec 5) (rs1 : BitVec 5) (rs3 : BitVec 5) (mark : Bool)
  /-- CADD (R143). Adds to a counter at its home, saturating, with release and optional acquire. -/
  | cadd (scope : Scope) (rd : BitVec 5) (rs1 : BitVec 5) (rs2 : BitVec 5) (mark : Bool)
  /-- MONA (R154). Arms a monitor entry on a 64-byte line at its home. -/
  | mona (rd : BitVec 5) (rs1 : BitVec 5) (mark : Bool)
  /-- MCLR (R156). Frees the monitor entry watching a line and removes its registration. -/
  | mclr (rs1 : BitVec 5) (mark : Bool)
  /-- JOIN (R256). Adds the issuer to a group and returns its member index. -/
  | join (rd : BitVec 5) (rs1 : BitVec 5) (mark : Bool)
  /-- LEAVE (R256). Removes the issuer from a group. -/
  | leave (rd : BitVec 5) (rs1 : BitVec 5) (mark : Bool)
  /-- GNEW (R255). Creates a group at a home die and returns its id. -/
  | gnew (rd : BitVec 5) (rs1 : BitVec 5) (mark : Bool)
  /-- GFREE (R256). Frees a group, ending its waiters with GONE and advancing its generation. -/
  | gfree (rd : BitVec 5) (rs1 : BitVec 5) (mark : Bool)
  /-- BARA (R265). Arrives at the group barrier with release and returns without waiting. -/
  | bara (rd : BitVec 5) (rs1 : BitVec 5) (mark : Bool)
  /-- EXIT (R289). Leaves the thread's groups, frees its monitors, traces the exit value and empties the slot. -/
  | exit (rs1 : BitVec 5) (mark : Bool)
  /-- LDA (R129). Loads a doubleword as an acquire at the given scope. -/
  | lda (scope : Scope) (rd : BitVec 5) (rs1 : BitVec 5) (mark : Bool)
  /-- STL (R129). Stores a doubleword as a release at the given scope. -/
  | stl (scope : Scope) (rs1 : BitVec 5) (rs2 : BitVec 5) (mark : Bool)
  /-- TGIVE (R219). Hands a scratchpad tile to the engines after earlier stores to it are performed. -/
  | tgive (rs1 : BitVec 5) (mark : Bool)
  /-- TMARK (R359). Writes a trace record with the mark value when tracing is enabled. -/
  | tmark (rs1 : BitVec 5) (mark : Bool)
  /-- CSWAP (R301). Exchanges the slot's context with its chrysalis bank. -/
  | cswap (mark : Bool)
  /-- AADD (R149). Far atomic add at the home, wrapping. -/
  | aadd (scope : Scope) (rd : BitVec 5) (rs1 : BitVec 5) (rs2 : BitVec 5) (mark : Bool)
  /-- AAND (R149). Far atomic AND at the home. -/
  | aand (scope : Scope) (rd : BitVec 5) (rs1 : BitVec 5) (rs2 : BitVec 5) (mark : Bool)
  /-- AOR (R149). Far atomic OR at the home. -/
  | aor (scope : Scope) (rd : BitVec 5) (rs1 : BitVec 5) (rs2 : BitVec 5) (mark : Bool)
  /-- AXOR (R149). Far atomic XOR at the home. -/
  | axor (scope : Scope) (rd : BitVec 5) (rs1 : BitVec 5) (rs2 : BitVec 5) (mark : Bool)
  /-- AMIN (R149). Far atomic signed minimum at the home. -/
  | amin (scope : Scope) (rd : BitVec 5) (rs1 : BitVec 5) (rs2 : BitVec 5) (mark : Bool)
  /-- AMAX (R149). Far atomic signed maximum at the home. -/
  | amax (scope : Scope) (rd : BitVec 5) (rs1 : BitVec 5) (rs2 : BitVec 5) (mark : Bool)
  /-- AMINU (R149). Far atomic unsigned minimum at the home. -/
  | aminu (scope : Scope) (rd : BitVec 5) (rs1 : BitVec 5) (rs2 : BitVec 5) (mark : Bool)
  /-- AMAXU (R149). Far atomic unsigned maximum at the home. -/
  | amaxu (scope : Scope) (rd : BitVec 5) (rs1 : BitVec 5) (rs2 : BitVec 5) (mark : Bool)
  /-- ASWAP (R149). Far atomic swap at the home; never merges. -/
  | aswap (scope : Scope) (rd : BitVec 5) (rs1 : BitVec 5) (rs2 : BitVec 5) (mark : Bool)
  /-- VADD (R161). Adds vector lanes, saturating, wrapping or rounding by type. -/
  | vadd (ty : VType) (vd : BitVec 5) (vs1 : BitVec 5) (vs2 : BitVec 5) (m : BitVec 2) (mark : Bool)
  /-- VSUB (R161). Subtracts vector lanes. -/
  | vsub (ty : VType) (vd : BitVec 5) (vs1 : BitVec 5) (vs2 : BitVec 5) (m : BitVec 2) (mark : Bool)
  /-- VMUL (R161). Multiplies vector lanes. -/
  | vmul (ty : VType) (vd : BitVec 5) (vs1 : BitVec 5) (vs2 : BitVec 5) (m : BitVec 2) (mark : Bool)
  /-- VMULH (R161). Writes the high half of lane products. -/
  | vmulh (ty : VType) (vd : BitVec 5) (vs1 : BitVec 5) (vs2 : BitVec 5) (m : BitVec 2) (mark : Bool)
  /-- VMADD (R161). Fused multiply-add into vd. -/
  | vmadd (ty : VType) (vd : BitVec 5) (vs1 : BitVec 5) (vs2 : BitVec 5) (m : BitVec 2) (mark : Bool)
  /-- VMIN (R161). Lane-wise minimum. -/
  | vmin (ty : VType) (vd : BitVec 5) (vs1 : BitVec 5) (vs2 : BitVec 5) (m : BitVec 2) (mark : Bool)
  /-- VMAX (R161). Lane-wise maximum. -/
  | vmax (ty : VType) (vd : BitVec 5) (vs1 : BitVec 5) (vs2 : BitVec 5) (m : BitVec 2) (mark : Bool)
  /-- VAND (R161). Lane-wise AND. -/
  | vand (ty : VType) (vd : BitVec 5) (vs1 : BitVec 5) (vs2 : BitVec 5) (m : BitVec 2) (mark : Bool)
  /-- VOR (R161). Lane-wise OR. -/
  | vor (ty : VType) (vd : BitVec 5) (vs1 : BitVec 5) (vs2 : BitVec 5) (m : BitVec 2) (mark : Bool)
  /-- VXOR (R161). Lane-wise XOR. -/
  | vxor (ty : VType) (vd : BitVec 5) (vs1 : BitVec 5) (vs2 : BitVec 5) (m : BitVec 2) (mark : Bool)
  /-- VSLL (R161). Lane-wise left shift. -/
  | vsll (ty : VType) (vd : BitVec 5) (vs1 : BitVec 5) (vs2 : BitVec 5) (m : BitVec 2) (mark : Bool)
  /-- VSRL (R161). Lane-wise logical right shift. -/
  | vsrl (ty : VType) (vd : BitVec 5) (vs1 : BitVec 5) (vs2 : BitVec 5) (m : BitVec 2) (mark : Bool)
  /-- VSRA (R161). Lane-wise arithmetic right shift. -/
  | vsra (ty : VType) (vd : BitVec 5) (vs1 : BitVec 5) (vs2 : BitVec 5) (m : BitVec 2) (mark : Bool)
  /-- VCMPEQ (R162). Writes a mask of lane equality. -/
  | vcmpeq (ty : VType) (md : BitVec 3) (vs1 : BitVec 5) (vs2 : BitVec 5) (m : BitVec 2) (mark : Bool)
  /-- VCMPLT (R162). Writes a mask of lane less-than. -/
  | vcmplt (ty : VType) (md : BitVec 3) (vs1 : BitVec 5) (vs2 : BitVec 5) (m : BitVec 2) (mark : Bool)
  /-- VCMPLE (R162). Writes a mask of lane less-or-equal. -/
  | vcmple (ty : VType) (md : BitVec 3) (vs1 : BitVec 5) (vs2 : BitVec 5) (m : BitVec 2) (mark : Bool)
  /-- VSEL (R163). Selects each lane from vs1 or vs2 by a mask. -/
  | vsel (ty : VType) (vd : BitVec 5) (vs1 : BitVec 5) (vs2 : BitVec 5) (m : BitVec 2) (mark : Bool)
  /-- VCVT (R164). Converts lanes between formats with the encoded rounding mode. -/
  | vcvt (ty : VType) (dty : VType) (rm : Round) (vd : BitVec 5) (vs1 : BitVec 5) (m : BitVec 2) (mark : Bool)
  /-- VNRW (R165). Narrows a register pair into one register, saturating. -/
  | vnrw (ty : VType) (rm : Round) (vd : BitVec 5) (vs1 : BitVec 5) (m : BitVec 2) (mark : Bool)
  /-- VWID (R165). Widens a register into a pair. -/
  | vwid (ty : VType) (vd : BitVec 5) (vs1 : BitVec 5) (m : BitVec 2) (mark : Bool)
  /-- VRSUM (R166). Reduces lanes by a fixed pairwise sum tree into lane 0. -/
  | vrsum (ty : VType) (vd : BitVec 5) (vs1 : BitVec 5) (m : BitVec 2) (mark : Bool)
  /-- VRMAX (R166). Reduces lanes to their maximum. -/
  | vrmax (ty : VType) (vd : BitVec 5) (vs1 : BitVec 5) (m : BitVec 2) (mark : Bool)
  /-- VRMIN (R166). Reduces lanes to their minimum. -/
  | vrmin (ty : VType) (vd : BitVec 5) (vs1 : BitVec 5) (m : BitVec 2) (mark : Bool)
  /-- VPERM (R167). Permutes lanes by an index register. -/
  | vperm (ty : VType) (vd : BitVec 5) (vs1 : BitVec 5) (vs2 : BitVec 5) (m : BitVec 2) (mark : Bool)
  /-- VDOT (R169). Accumulates INT8 four-way dot products into INT32 lanes with one saturation. -/
  | vdot (vd : BitVec 5) (vs1 : BitVec 5) (vs2 : BitVec 5) (m : BitVec 2) (mark : Bool)
  /-- VPOPC (R168). Counts one bits per lane or over masked bytes. -/
  | vpopc (ty : VType) (vd : BitVec 5) (vs1 : BitVec 5) (m : BitVec 2) (mark : Bool)
  /-- VLUT (R170). Evaluates a 64-segment piecewise-linear table from own TCM. -/
  | vlut (ty : VType) (vd : BitVec 5) (vs1 : BitVec 5) (m : BitVec 2) (mark : Bool)
  /-- VABS (R161). Lane-wise absolute value. -/
  | vabs (ty : VType) (vd : BitVec 5) (vs1 : BitVec 5) (m : BitVec 2) (mark : Bool)
  /-- VSPLAT (R167). Broadcasts an x register into every written lane. -/
  | vsplat (ty : VType) (vd : BitVec 5) (rs1 : BitVec 5) (m : BitVec 2) (mark : Bool)
  /-- VEXT (R167). Extracts one lane into an x register. -/
  | vext (ty : VType) (rd : BitVec 5) (vs1 : BitVec 5) (lane : BitVec 5) (mark : Bool)
  /-- VINS (R167). Inserts an x register into one lane. -/
  | vins (ty : VType) (vd : BitVec 5) (rs1 : BitVec 5) (lane : BitVec 5) (mark : Bool)
  /-- SCMAC (R172). Accumulates a TCM weight column scaled by a delta code into a register pair. -/
  | scmac (ty : VType) (vd : BitVec 5) (rs1 : BitVec 5) (rs2 : BitVec 5) (m : BitVec 2) (mark : Bool)
  /-- VLD (R173). Loads contiguous vector elements. -/
  | vld (ty : VType) (vd : BitVec 5) (rs1 : BitVec 5) (m : BitVec 2) (mark : Bool)
  /-- VST (R174). Stores contiguous vector elements with the two-step check then data presentation. -/
  | vst (ty : VType) (vs : BitVec 5) (rs1 : BitVec 5) (m : BitVec 2) (mark : Bool)
  /-- VLDS (R173). Loads strided vector elements. -/
  | vlds (ty : VType) (vd : BitVec 5) (rs1 : BitVec 5) (rs2 : BitVec 5) (m : BitVec 2) (mark : Bool)
  /-- VSTS (R174). Stores strided vector elements. -/
  | vsts (ty : VType) (vs : BitVec 5) (rs1 : BitVec 5) (rs2 : BitVec 5) (m : BitVec 2) (mark : Bool)
  /-- VLDX (R173). Loads indexed vector elements. -/
  | vldx (ty : VType) (vd : BitVec 5) (rs1 : BitVec 5) (vk : BitVec 5) (m : BitVec 2) (mark : Bool)
  /-- VSTX (R174). Stores indexed vector elements. -/
  | vstx (ty : VType) (vs : BitVec 5) (rs1 : BitVec 5) (vk : BitVec 5) (m : BitVec 2) (mark : Bool)
  /-- VLDB (R173). Loads one element and broadcasts it. -/
  | vldb (ty : VType) (vd : BitVec 5) (rs1 : BitVec 5) (m : BitVec 2) (mark : Bool)
  /-- SBIND (R176). Binds a stream register to a descriptor in own TCM. -/
  | sbind (ty : VType) (n : BitVec 3) (rs1 : BitVec 5) (mark : Bool)
  /-- SUNB (R176). Waits for appended elements to be accepted and unbinds a stream register. -/
  | sunb (n : BitVec 3) (mark : Bool)
  /-- SSTAT (R176). Reads a stream's committed position and status byte. -/
  | sstat (rd : BitVec 5) (n : BitVec 3) (mark : Bool)
  /-- MLDM (R175). Loads a mask register from memory. -/
  | mldm (md : BitVec 3) (rs1 : BitVec 5) (mark : Bool)
  /-- MSTM (R175). Stores a mask register to memory. -/
  | mstm (ms : BitVec 3) (rs1 : BitVec 5) (mark : Bool)
  /-- MAND (R175). ANDs two mask registers. -/
  | mand (md : BitVec 3) (ma : BitVec 3) (mb : BitVec 3) (mark : Bool)
  /-- MOR (R175). ORs two mask registers. -/
  | mor (md : BitVec 3) (ma : BitVec 3) (mb : BitVec 3) (mark : Bool)
  /-- MXOR (R175). XORs two mask registers. -/
  | mxor (md : BitVec 3) (ma : BitVec 3) (mb : BitVec 3) (mark : Bool)
  /-- MNOT (R175). Complements a mask register. -/
  | mnot (md : BitVec 3) (ma : BitVec 3) (mark : Bool)
  /-- MPOPC (R175). Counts the one bits of a mask into an x register. -/
  | mpopc (rd : BitVec 5) (ma : BitVec 3) (mark : Bool)
  /-- MFIRST (R175). Writes the index of a mask's lowest one bit, or 32. -/
  | mfirst (rd : BitVec 5) (ma : BitVec 3) (mark : Bool)
  /-- MSET (R175). Sets a mask register from an x register. -/
  | mset (md : BitVec 3) (rs1 : BitVec 5) (mark : Bool)
  /-- SDSTEP (R190). Feeds 16 INT16 values to the SDU slots, sending quantised change packets and updating sdcnt. -/
  | sdstep (vs : BitVec 5) (rs1 : BitVec 5) (mark : Bool)
  /-- EVSEND (R200). Sends one software event packet to a vcore's inbox and waits for its settlement. -/
  | evsend (rd : BitVec 5) (rs1 : BitVec 5) (rs2 : BitVec 5) (mark : Bool)
  /-- MMA (R237). Applies successive 16x16x16 slices of A times B into an accumulator tile. -/
  | mma (rd : BitVec 5) (rs1 : BitVec 5) (rs2 : BitVec 5) (mark : Bool)
  /-- MMA_BS (R238). Block-sparse MMA that skips slices whose bitmap bit is 0. -/
  | mmaBs (rd : BitVec 5) (rs1 : BitVec 5) (rs2 : BitVec 5) (mark : Bool)
  /-- MLUT (R239). Multiplies INT8 activations by packed B1 or T2 weights into an INT32 tile. -/
  | mlut (rd : BitVec 5) (rs1 : BitVec 5) (rs2 : BitVec 5) (mark : Bool)
  /-- MBIN (R240). Accumulates 1-bit AND or XOR popcount products into an INT32 tile. -/
  | mbin (rd : BitVec 5) (rs1 : BitVec 5) (rs2 : BitVec 5) (mark : Bool)
  /-- MZERO (R231). Short command that zeroes the tiles of a mask. -/
  | mzero (rd : BitVec 5) (rs1 : BitVec 5) (rs2 : BitVec 5) (mark : Bool)
  /-- MLDA (R242). Loads an accumulator tile from memory by rows. -/
  | mlda (rd : BitVec 5) (rs1 : BitVec 5) (rs2 : BitVec 5) (mark : Bool)
  /-- MSTA (R242). Stores an accumulator tile to memory, converting and scaling by OUT and SCALE. -/
  | msta (rd : BitVec 5) (rs1 : BitVec 5) (rs2 : BitVec 5) (mark : Bool)
  /-- TCFG (R229). Declares tiles with kind, context and lead vcore. -/
  | tcfg (rd : BitVec 5) (rs1 : BitVec 5) (rs2 : BitVec 5) (mark : Bool)
  /-- TREL (R230). Releases tiles, or with FORCE stops their commands with GONE and frees them. -/
  | trel (rd : BitVec 5) (rs1 : BitVec 5) (rs2 : BitVec 5) (mark : Bool)
  /-- MTEAM (R248). Drives up to 16 matrix units of a cluster over one broadcast result. -/
  | mteam (rd : BitVec 5) (rs1 : BitVec 5) (rs2 : BitVec 5) (mark : Bool)
  /-- COPY1 (R222). Copies LEN contiguous bytes. -/
  | copy1 (rd : BitVec 5) (rs1 : BitVec 5) (rs2 : BitVec 5) (mark : Bool)
  /-- COPY2 (R222). Copies strided rows, optionally into a ring buffer guarded by counters. -/
  | copy2 (rd : BitVec 5) (rs1 : BitVec 5) (rs2 : BitVec 5) (mark : Bool)
  /-- COPYX (R222). Gathers elements through a 32-bit index array. -/
  | copyx (rd : BitVec 5) (rs1 : BitVec 5) (rs2 : BitVec 5) (mark : Bool)
  /-- CFILL (R222). Fills a range with a 64-bit pattern. -/
  | cfill (rd : BitVec 5) (rs1 : BitVec 5) (rs2 : BitVec 5) (mark : Bool)
  /-- QNT8 (R223). Quantises elements into QB8 blocks on the Ladle. -/
  | qnt8 (rd : BitVec 5) (rs1 : BitVec 5) (rs2 : BitVec 5) (mark : Bool)
  /-- QS2P (R223). Quantises elements into S2P8 scaled blocks. -/
  | qs2p (rd : BitVec 5) (rs1 : BitVec 5) (rs2 : BitVec 5) (mark : Bool)
  /-- DQNT (R223). Dequantises blocks into FP elements. -/
  | dqnt (rd : BitVec 5) (rs1 : BitVec 5) (rs2 : BitVec 5) (mark : Bool)
  /-- CRED (R224). Reduces elements over a communicator in rank order. -/
  | cred (rd : BitVec 5) (rs1 : BitVec 5) (rs2 : BitVec 5) (mark : Bool)
  /-- CBCAST (R224). Broadcasts the root's data over a communicator. -/
  | cbcast (rd : BitVec 5) (rs1 : BitVec 5) (rs2 : BitVec 5) (mark : Bool)
  /-- CAGATH (R224). Gathers every rank's data to every rank. -/
  | cagath (rd : BitVec 5) (rs1 : BitVec 5) (rs2 : BitVec 5) (mark : Bool)
  /-- SDCFG (R187). Configures or disables an SDU range after its steps settle. -/
  | sdcfg (rd : BitVec 5) (rs1 : BitVec 5) (rs2 : BitVec 5) (mark : Bool)
  /-- SDRST (R188). Resets and optionally disables masked SDU ranges. -/
  | sdrst (rd : BitVec 5) (rs1 : BitVec 5) (rs2 : BitVec 5) (mark : Bool)
  /-- COMMAND_START (R214). An engine starts a queued command once ordering and resources allow. -/
  | commandStart (id : Nat) (n : Nat)
  /-- COMMAND_COMPLETION (R217). After its writes are performed an engine makes the completion add and sends the reply. -/
  | commandCompletion (id : Nat)
  /-- COMMAND_DEADLINE (R215). A command's effective deadline passes, stopping it with TIMEOUT. -/
  | commandDeadline (id : Nat)
  /-- BLOCK_RETIRE (R68). The commit walk retires a switch block after its long results return, performing deferred instructions and stores in order. -/
  | blockRetire (v : Nat) (sl : Nat)
  /-- BREAKPOINT_TRAP (R362). An instruction at an armed matching PC is about to issue and a debug trap is taken before it. -/
  | breakpointTrap (v : Nat) (sl : Nat)
  /-- LONG_RESULT_RETURN (R66). A load, atomic or other long result returns to the core. -/
  | longResultReturn (v : Nat) (sl : Nat) (idx : Nat) (stale : Bool)
  /-- STORE_ACCEPTANCE (R68). A station accepts and pins a presented store, or refuses it with a fault. -/
  | storeAcceptance (v : Nat) (sl : Nat)
  /-- STORE_PERFORM (R120). An accepted store is performed at its home. -/
  | storePerform (id : Nat)
  /-- LTB_EXPIRY (R70). An outstanding load, atomic or store acceptance reaches LTB and raises the bus-error fault. -/
  | ltbExpiry (v : Nat) (sl : Nat)
  /-- REPLY_ARRIVAL (R71). An engine reply fills an empty register or is discarded and counted in rdrop. -/
  | replyArrival (id : Nat)
  /-- WAIT_CONDITION_MET (R105). Notice that a parked wait's condition was met arrives and the wait returns OK or LATE. -/
  | waitConditionMet (tid : Nat)
  /-- WAIT_DEADLINE_EXPIRY (R105). A wait's effective deadline passes unmet, performing withdrawal and returning TIMEOUT. -/
  | waitDeadlineExpiry (tid : Nat)
  /-- TIMEOUT_WINDOW_BOUNDARY (R110). At each aligned 1 ms boundary the thread's window count returns to 0. -/
  | timeoutWindowBoundary (tid : Nat)
  /-- HANG_REPORT_A (R111). A slot's residency timer passes hangA and a report goes to the supervisor. -/
  | hangReportA (v : Nat) (sl : Nat)
  /-- HANG_REPORT_B (R111). A slot's residency timer passes hangB and a report goes to the management controller. -/
  | hangReportB (v : Nat) (sl : Nat)
  /-- CORE_WAKE (R113). A gated core wakes for an arrival, a reply or an approaching deadline. -/
  | coreWake (v : Nat)
  /-- FOLLOW_MOVE (R73). A follow light thread ends its block and moves to a core of the target's home cluster. -/
  | followMove (v : Nat) (sl : Nat)
  /-- POSTED_FAULT_REPORT (R144). A home reports a posted CADD overflow or check failure, ending the issuing kernel. -/
  | postedFaultReport (id : Nat)
  /-- HOST_COUNTER_POLL (R146). The host-port IO die re-reads a host-memory counter for a waiter at least every 1 µs. -/
  | hostCounterPoll (tid : Nat)
  /-- STREAM_DATA_READY (R179). Data or buffer room arrives for a thread parked on a stream register. -/
  | streamDataReady (v : Nat) (sl : Nat) (j : Nat)
  /-- STREAM_DEADLINE (R179). A stream park reaches its deadline, delivering POISON or dropping the append. -/
  | streamDeadline (v : Nat) (sl : Nat)
  /-- STREAM_CONTEXT_DRAIN (R181). The stream engine drains its least recently used resident context to load another. -/
  | streamContextDrain (v : Nat)
  /-- EVCFG_WRITE (R194). A write to evcfg sets capacity, reservations and EN, taking ownership of the inbox. -/
  | evcfgWrite (v : Nat) (sl : Nat)
  /-- EVENT_PACKET_ARRIVAL (R195). An event packet arrives at an inbox and is merged, queued, stored as a marker or refused. -/
  | eventPacketArrival (id : Nat)
  /-- PACKET_ACK (R198). An acknowledgement settles a sent packet at its source. -/
  | packetAck (id : Nat)
  /-- PACKET_NACK (R199). A refusal reverts the slot's sent value by the packet's code. -/
  | packetNack (id : Nat)
  /-- MARKER_RESEND (R199). A refused step marker is sent again within 1 µs. -/
  | markerResend (id : Nat)
  /-- STEP_MARKER_SEND (R201). When a closed step settles, the SDU sends its markers to every valid destination. -/
  | stepMarkerSend (v : Nat) (range : Nat)
  /-- QUEUE_KICK (R276). The queue processor learns of a publish add and starts reading the next packet. -/
  | queueKick (io : Nat) (q : Nat)
  /-- PACKET_REREAD (R277). The queue processor re-reads an unmatched packet slot at least every 1 µs. -/
  | packetReread (io : Nat) (q : Nat)
  /-- QUEUE_STALE (R277). STALEDL passes without a matching packet and the queue goes Stale. -/
  | queueStale (io : Nat) (q : Nat)
  /-- PRECONDITION_MET (R277). A held packet's precondition counter reaches its target. -/
  | preconditionMet (io : Nat) (q : Nat)
  /-- HOLD_DEADLINE (R277). The hold deadline passes and the entry ends TIMEOUT. -/
  | holdDeadline (io : Nat) (q : Nat)
  /-- KERNEL_PLACEMENT (R281). The queue processor reserves all needed cores at once when resources free. -/
  | kernelPlacement (io : Nat) (q : Nat)
  /-- IMAGE_LOAD (R284). The image is copied into the reserved I-store shares. -/
  | imageLoad (kid : Nat)
  /-- START_MESSAGE (R284). A start message is delivered and starts the core's threads with initial state. -/
  | startMessage (kid : Nat) (core : Nat)
  /-- POOL_DISPATCH (R286). A free light slot receives a Waiting pool entry as a new light thread. -/
  | poolDispatch (die : Nat)
  /-- KERNEL_END_SEQUENCE (R287). A program fault empties the kernel's slots, aborts its commands and frees its groups. -/
  | kernelEndSequence (kid : Nat)
  /-- KERNEL_ENDING (R288). Once nothing of the kernel remains, the status is written, the flush made if needed and the completion add made. -/
  | kernelEnding (kid : Nat)
  /-- PREEMPTION_TRAP (R302). A pending pre-emption is taken as trap cause 3 at a block boundary or from Parked-wait. -/
  | preemptionTrap (v : Nat) (sl : Nat)
  /-- MIGRATION_TRAP (R305). A pending migration request is taken as trap cause 4. -/
  | migrationTrap (v : Nat) (sl : Nat)
  /-- MIGRATION_FORCE_EXPIRY (R305). 1 ms after MIGRATE with ATBAR without a barrier completion, the slot traps at its next point. -/
  | migrationForceExpiry (v : Nat) (sl : Nat)
  /-- SPILL_DONE (R300). The moult engine finishes writing the CSA and the bank becomes Saved. -/
  | spillDone (v : Nat) (sl : Nat)
  /-- FILL_DONE (R300). The moult engine finishes reading the CSA and the bank becomes Saved. -/
  | fillDone (v : Nat) (sl : Nat)
  /-- ILLEGAL_INSTRUCTION (R33). A thread issues a word that is no instruction, or is illegal in its thread kind, and it takes the illegal-instruction program fault. -/
  | illegalInstruction (w : IWord)
  /-- CONTEXT_KILL (R304). A KILL write discards the context's queues, threads and objects and aborts its commands. -/
  | contextKill (ctx : Nat)
  /-- JORRAX_REPLAY_TIMEOUT (R325). A flit unacknowledged for 1 µs makes the sender resend. -/
  | jorraxReplayTimeout (port : Nat)
  /-- SHOOT (R316). Station command that drops translations of a range and waits for pinned stores. -/
  | shoot (id : Nat)
  /-- WAKE (R317). Station command that makes paused commands and held walks of a range walk again. -/
  | wake (id : Nat)
  /-- MOVE (R318). Station command that moves wait and monitor registrations from one frame to another. -/
  | move (id : Nat)
  /-- CLOCK_GATE (R113). A core with no issuable slot for 64 ac is clock-gated. -/
  | clockGate (v : Nat)
  /-- POWER_GATE (R351). A unit is power-gated when the break-even predictor allows. -/
  | powerGate (v : Nat) (unit : Nat)
  /-- QUEUE_REGISTER (R273). The supervisor writes a queue descriptor, registering the queue. -/
  | queueRegister (io : Nat) (q : Nat) (desc : List Word)
  /-- QUEUE_RESUME (R278). A resume through the management window returns a Stale or Halted queue to Reading. -/
  | queueResume (io : Nat) (q : Nat)
  /-- CONTEXT_DESCRIPTOR_WRITE (R291). A write of a context descriptor makes it Resident or Free. -/
  | contextDescriptorWrite (ctx : Nat) (dw : Nat) (val : Word)
  /-- COLLECTIVE_ABORT (R304). An abort for a communicator arrives at a rank's package and completes its collectives ABORTED. -/
  | collectiveAbort (io : Nat) (comm : Nat)
  /-- PREEMPT (R302). Slot control command requesting a pre-emption trap at the thread's next point. -/
  | preempt (v : Nat) (sl : Nat)
  /-- MIGRATE (R305). Slot control command requesting migration, optionally at a barrier completion. -/
  | migrate (v : Nat) (sl : Nat) (atbar : Bool)
  /-- SPILL (R300). Slot control command writing an Unsaved chrysalis bank to its save record. -/
  | spill (v : Nat) (sl : Nat)
  /-- FILL (R300). Slot control command loading the bank from a save record. -/
  | fill (v : Nat) (sl : Nat)
  /-- SWAPIN (R302). Slot control command making an Empty slot run the bank's context. -/
  | swapin (v : Nat) (sl : Nat)
  /-- RESUME (R297). Slot control command resuming a light thread held after a recoverable trap. -/
  | resume (v : Nat) (sl : Nat)
  /-- REPORT_POST (R293). A producer adds a record to the report ring when it has room. -/
  | reportPost
  /-- REMAP_GO (R306). A write of remap with GO starts a vcore rebinding or is refused with ERR. -/
  | remapGo (val : Word)
  /-- REMAP_MOVE_COMPLETE (R307). The vcore state copy finishes, the rebinding takes effect and held accesses are performed at the target. -/
  | remapMoveComplete
  /-- PAGE_WALK (R311). A station walks a context's page table on a miss and settles the access. -/
  | pageWalk (st : Nat) (ctx : Nat) (va : Nat) (acc : Access)
  /-- RING_CLOCK_CHANGE (R322). The power controller requests an arithmetic clock change and sends a stall request. -/
  | ringClockChange (mhz : Nat)
  /-- CLOCK_STALL_COMPLETE (R322). Every die acknowledges the stall, the PLL moves to the new rate and dies resume. -/
  | clockStallComplete
  /-- JORRAX_PORT_UP (R333). Training and version agreement succeed and the port goes Up. -/
  | jorraxPortUp (port : Nat) (far : FarEnd) (offer : Offer)
  /-- JORRAX_PORT_DOWN (R327). A port goes Down after failed replays or peer loss and its routes are removed. -/
  | jorraxPortDown (port : Nat)
  /-- JORRAX_FLIT_RECEIVE (R325). A receiver accepts the next flit in order or drops it and answers NAK. -/
  | jorraxFlitReceive (port : Nat) (text : FlitText) (tag : BitVec 128)
  /-- JORRAX_ACK (R325). An acknowledgement frees replay buffer entries and may let an old key be erased. -/
  | jorraxAck (port : Nat) (seq : Nat)
  /-- JORRAX_NAK (R325). A NAK makes the sender resend from the oldest unacknowledged flit. -/
  | jorraxNak (port : Nat) (seq : Nat)
  /-- KEY_SLOT_WRITE (R326). The management controller writes a new key into a key slot, refused while the slot is still needed. -/
  | keySlotWrite (port : Nat) (tx : Bool) (slot : Nat) (key : Nat)
  /-- KEY_SWITCH (R326). The sender switches new data flits to the other key slot. -/
  | keySwitch (port : Nat)
  /-- REMOTE_ACCESS (R328). An access from another package is checked against the import table and performed or refused. -/
  | remoteAccess (src : BitVec 16) (off : Nat) (op : RemoteOp) (size val : Nat)
  /-- TIME_SYNC_EXCHANGE (R334). Every 1 ms over each Up port packages exchange timestamps and trim their tick rate. -/
  | timeSyncExchange (port : Nat) (diff : Int)
  /-- TIME_SYNC_LOSS (R334). After 100 ms with no Up port the package's PT runs free and sync is reported lost. -/
  | timeSyncLoss
  /-- COUNTER_WINDOW_WRITE (R330). An aligned host write to a bound doorbell adds to its counter as a release at system scope. -/
  | counterWindowWrite (off : Nat) (size : Nat) (val : Word)
  /-- HOST_MEMORY_ACCESS (R330). A host access through the device memory window is mapped by the aperture table. -/
  | hostMemoryAccess (write : Bool) (addr : HostAddr) (size val : Nat)
  /-- WAISAR_READING (R339). An accepted power-shelf reading sets the target and drives shed and clock decisions. -/
  | waisarReading (frame : WaisarFrame)
  /-- WAISAR_VERSION_OFFER (R333). A Waisar version offer frame is used to agree the message version. -/
  | waisarVersionOffer (etherType : BitVec 16) (payload : List (BitVec 8))
  /-- TELEMETRY_LOSS (R344). 20 ms without an accepted reading sets TLOSS and moves T towards SAFE. -/
  | telemetryLoss
  /-- SHED_FORCE_EXPIRY (R341). 1 ms after a shed decision, threads not yet Shed are shed at their next point. -/
  | shedForceExpiry
  /-- RESTORE_HOLD_EXPIRY (R343). After the restore condition holds for HOLD, the next shed class is restored. -/
  | restoreHoldExpiry
  /-- POWER_WINDOW_END (R345). Each 100 µs power window ends, updating P and ballast to hold the slope limit. -/
  | powerWindowEnd (watts : Nat) (meter : List Nat)
  /-- OVERCAP_END (R346). A 2 ms slope excess ends and the cap wins over the slope. -/
  | overcapEnd
  /-- DROOP_DETECT (R349). A droop detector stretches its cluster's clock cycles. -/
  | droopDetect (cluster : Nat)
  /-- CANARY_WARNING (R350). A canary warning raises its cluster's supply by 5 mV. -/
  | canaryWarning (cluster : Nat)
  /-- CANARY_STEP_DOWN (R350). After 1 ms with no warning the supply falls back one step per ms. -/
  | canaryStepDown (cluster : Nat)
  /-- SENSOR_READ (R352). Each core's temperature is read every 10 µs and the thresholds are applied. -/
  | sensorRead (v : Nat) (temp : Nat)
  /-- THERMAL_CLOCK_STEP (R352). Every 100 µs above or below THRT the package clock moves one step. -/
  | thermalClockStep
  /-- SAMPLING_PULSE (R356). At each multiple of PERIOD every core latches an imago entry and a package record is written. -/
  | samplingPulse
  /-- MODULE_RESET (R367). Power-on, PERST# or trip-recovery reset starts the boot chain at stage 0. -/
  | moduleReset (powerOn : Bool)
  /-- FIRMWARE_VERIFY (R368). The boot ROM verifies a firmware image slot by LMS signature and SVN. -/
  | firmwareVerify (slot : Nat) (img : FirmImage)
  /-- LINK_BRINGUP (R367). Stage 2 trains memory and links, agrees versions and establishes PT. -/
  | linkBringup (info : LinkInfo)
  /-- SUPERVISOR_VERIFY (R369). Stage 3 verifies and starts the supervisor runtime in context 0. -/
  | supervisorVerify (img : FirmImage)
  /-- ATTESTATION_REQUEST (R372). A host nonce request returns a report signed with the identity key. -/
  | attestationRequest (nonce : BitVec 256)
  /-- REGISTER_WRITE (R3). A write to a register or table entry with no row of its own stores its value, clamping as its map states. -/
  | registerWrite (addr : Nat) (val : Word)
  /-- INSTRUCTION_FETCH_FAULT (R84). A thread about to issue from a PC outside the I-store window or its share, or fetching a word with a failing check value, takes a permission or bus-error fault. -/
  | instructionFetchFault
  /-- SOFT_ERROR (R331). A soft error corrupts a stored SRAM or memory line so that its check value fails when the line is next consumed. -/
  | softError (line : Nat)
  /-- CLUSTER_PAIR_CURRENT_SAMPLE (R347). Every 10 µs the power controller compares the currents of each stacked cluster pair and applies ballast or the issue throttle to keep them within 10 %. -/
  | clusterPairCurrentSample (die : Nat) (k : Nat) (ia : Nat) (ib : Nat)
  /-- RACK_BUS_OUT_OF_RANGE (R345). The 50 V rack bus leaves its 44 to 58 V operating range and module power falls without the slope limit. -/
  | rackBusOutOfRange (mv : Nat)
  deriving DecidableEq, Repr

end Sys2Proof
end

