-- ==== Sys2Proof/Config.lean ====
section
/-!
DEFINITION. Sys2Proof/Config.lean: what an implementation fixes and the spec leaves open, as constants without a body. Each
stands for any value; none is chosen.
-/
namespace Sys2Proof.Config

/-- Which registration a full monitor filter evicts, or none (R157, log 4). -/
opaque evictPick : Nat → Nat
/-- Whether an LMS signature over a header and body, given as numbers, verifies under a public key (R368, log 5). -/
opaque lmsValid : (pubKey : Nat) → (signed : List Nat) → (signature : Nat) → Bool
/-- The SHA-256 hash of some bytes or fields, given as numbers (R368, R369, R372, log 5). -/
opaque sha256 : List Nat → Nat
/-- Whether a firmware header's MAGIC and LENGTH are well formed for a body (R368, R370, log 5). -/
opaque headerOk : (magic length : Nat) → (body : List Nat) → Bool
/-- AES-256-GCM over a flit's payload: the ciphertext, and the tag of header, SEQ and ciphertext (R324, log 24). -/
opaque gcmSeal : (key : Nat) → (nonce : BitVec 96) → (plain : BitVec 1792) → BitVec 1792
opaque gcmOpen : (key : Nat) → (nonce : BitVec 96) → (cipher : BitVec 1792) → BitVec 1792
opaque gcmTag : (key : Nat) → (nonce : BitVec 96) → (header : BitVec 128) → (cipher : BitVec 1792) → BitVec 128
/-- How a message of the package lies in a flit's payload, its lines with their check values (R324, R331, log 24). -/
opaque jorraxPayload : List Nat → BitVec 1792
/-- The bytes of a save record's part at an offset, for the numbers it holds, and the numbers for changed bytes (R303, log 8). -/
opaque recordByte : (off : Nat) → (nums : List Nat) → (i : Nat) → BitVec 8
opaque recordNum : (off : Nat) → (bytes : List Nat) → (i : Nat) → Nat
/-- The MSI-X vector, of 64, that signals an interrupt of a source: a queue by its key, 256 the thermal trip (R330, log 24). -/
opaque msixVector : (source : Nat) → Nat
/-- Whether the break-even predictor of a unit lets it be power-gated (R351, log 1). -/
opaque gateWorth : (v unit pt : Nat) → Bool
/-- The identity signature of an attestation report, of all its fields, the signing index among them (R371, R372, log 5). -/
opaque attestSign : (report : List Nat) → Nat
/-- Values the spec states no result for, by the reason and the state's counter of free values (log 7). -/
opaque freeWord : (why count : Nat) → BitVec 64
/-- The port a message to another package leaves by, a fixed function of package, line and the ports that reach it
(R327). -/
opaque routePick : (package line mask : Nat) → Nat

/-- The order in which a report's values stand in its record, as the number of a permutation (R293, log 6). -/
opaque reportOrder : Nat

/-- The fused ceiling of a context's egress, in MB/s (R290, R373). -/
opaque egressCeiling : Nat

end Sys2Proof.Config
end

