-- ==== Sys2Proof/WellFormed.lean ====
section
/-!
DEFINITION. Sys2Proof/WellFormed.lean: which instructions are legal words of the part beyond their fixed fields (R30, R33,
R34, R158, 09_vector_instructions R161 to R173). What depends on the kind of thread or on a CSR number is checked when a
thread issues the instruction (R27, R35, R77).
-/
namespace Sys2Proof

/-- A register of a pair form must be even (R34, R158). -/
def evenReg (r : Reg) : Bool := r.getLsbD 0 == false

/-- Types of VADD, VSUB, VMUL, VMIN, VMAX, the compares, VSEL, VPERM, VSPLAT, VEXT, VINS, VRMAX, VRMIN, the vector loads
and stores and SBIND: every type except .x (R161 to R163, R166, R167, R173, R176). -/
def VType.notX (t : VType) : Bool := t != .x

/-- Types of VMULH, VSLL and VSRL (R161). -/
def VType.isInt (t : VType) : Bool := t == .b || t == .h || t == .w || t == .hu

/-- Types of VSRA (R161). -/
def VType.isSigned (t : VType) : Bool := t == .b || t == .h || t == .w

/-- The floating-point types (R30). -/
def VType.isFp (t : VType) : Bool := t == .hf || t == .bf || t == .f

/-- How VCVT pairs its source and destination types (R164). -/
inductive CvtShape where
  | same | widen | narrow
  deriving DecidableEq, Repr

/-- The legal pairings of VCVT; every pairing absent from R164's table is illegal. -/
def cvtShape (s d : VType) : Option CvtShape :=
  match s, d with
  | .hf, .bf | .hf, .h | .hf, .hu | .bf, .hf | .bf, .h | .bf, .hu => some .same
  | .hf, .f | .hf, .w | .bf, .f | .bf, .w => some .widen
  | .hf, .b | .hf, .x | .bf, .b | .bf, .x => some .narrow
  | .f, .w | .w, .f => some .same
  | .f, .hf | .f, .bf | .f, .h | .f, .hu => some .narrow
  | .h, .hf | .h, .bf | .hu, .hf | .hu, .bf => some .same
  | .h, .f | .hu, .f => some .widen
  | .w, .hf | .w, .bf => some .narrow
  | .b, .hf | .b, .bf | .x, .hf | .x, .bf => some .widen
  | _, _ => none

/-- VCVT's operands are legal (R164): a listed pairing, mode rne where the destination is .x, an even register where a
pair is read or written. -/
def cvtWf (s d : VType) (rm : Round) (vd vs1 : Reg) : Bool :=
  match cvtShape s d with
  | none => false
  | some .same => true
  | some .widen => evenReg vd
  | some .narrow => evenReg vs1 && (d != .x || rm == .rne)

/-- The checks of an instruction's operands. -/
def Instr.wf : Instr → Bool
  | .cwait rd _ _ _ _ | .lwait rd _ _ _ _ | .recv rd _ _ _ => evenReg rd
  | .qpush _ _ rs2 _ _ => evenReg rs2
  | .vadd t _ _ _ _ _ | .vsub t _ _ _ _ _ | .vmul t _ _ _ _ _ | .vmin t _ _ _ _ _ | .vmax t _ _ _ _ _ => t.notX
  | .vmulh t _ _ _ _ _ => t.isInt
  | .vmadd t _ _ _ _ _ => t.isSigned || t.isFp
  | .vand t _ _ _ _ _ | .vor t _ _ _ _ _ | .vxor t _ _ _ _ _ => t.isSigned || t == .x
  | .vsll t _ _ _ _ _ | .vsrl t _ _ _ _ _ => t.isInt
  | .vsra t _ _ _ _ _ => t.isSigned
  | .vcmpeq t _ _ _ _ _ | .vcmplt t _ _ _ _ _ | .vcmple t _ _ _ _ _ => t.notX
  | .vsel t _ _ _ _ _ | .vperm t _ _ _ _ _ => t.notX
  | .vcvt s d rm vd vs1 _ _ => cvtWf s d rm vd vs1
  | .vnrw t rm _ vs1 _ _ => evenReg vs1 && ((t == .h || t == .w) && rm == .rne || t == .x)
  | .vwid t vd _ _ _ => evenReg vd && (t == .b || t == .h || t == .hu)
  | .vrsum t _ _ _ _ => t == .h || t == .w || t.isFp
  | .vrmax t _ _ _ _ | .vrmin t _ _ _ _ => t.notX
  | .vpopc t _ _ _ _ => t.isSigned || t == .x
  | .vlut t _ _ _ _ => t.isFp
  | .vabs t _ _ _ _ => t.isSigned || t.isFp
  | .vsplat t _ _ _ _ => t.notX
  | .vext t _ _ j _ | .vins t _ _ j _ => t.notX && decide (j.toNat < t.lanes)
  | .scmac t vd _ _ _ _ => evenReg vd && (t == .b || t == .h || t == .x)
  | .vld t _ _ _ _ | .vst t _ _ _ _ | .vldb t _ _ _ _ => t.notX
  | .vlds t _ _ _ _ _ | .vsts t _ _ _ _ _ | .vldx t _ _ _ _ _ | .vstx t _ _ _ _ _ => t.notX
  | .sbind t _ _ _ => t.notX
  | _ => true

end Sys2Proof
end

