-- ==== Sys2Proof/Decode.lean ====
section
/-!
DEFINITION. Sys2Proof/Decode.lean: the decoder, total on every 32-bit word, and the encoder, both written from the formats
and allocation tables of 02_instruction_words (R21 to R33).
-/
namespace Sys2Proof

/-- The fields every format of R23 cuts a word into: bits 31:27, 26:25, 24:20, 19:15, 14:12, 11:7, 6:2 and 1:0. -/
structure Raw where
  f5 : BitVec 5
  f2 : BitVec 2
  b  : BitVec 5
  a  : BitVec 5
  t  : BitVec 3
  d  : BitVec 5
  op : BitVec 5
  lo : BitVec 2
  deriving DecidableEq, Repr

/-- A word cut into its fields (R23). -/
def splitWord (w : IWord) : Raw :=
  ⟨w.extractLsb' 27 5, w.extractLsb' 25 2, w.extractLsb' 20 5, w.extractLsb' 15 5, w.extractLsb' 12 3,
    w.extractLsb' 7 5, w.extractLsb' 2 5, w.extractLsb' 0 2⟩

/-- The word of the fields (R23). -/
def joinWord (r : Raw) : IWord := r.f5 ++ r.f2 ++ r.b ++ r.a ++ r.t ++ r.d ++ r.op ++ r.lo

/-- Bits 1:0 of a word: 11, or 10 with the switch marker (R21). -/
def low (mark : Bool) : BitVec 2 := if mark then 2 else 3

/-- The word carries the switch marker (R21). -/
def Raw.marked (r : Raw) : Bool := r.lo == 2

/-- imm[11:0] of the I format (R23); the CSR number of a CSR instruction (R96). -/
def Raw.immI (r : Raw) : BitVec 12 := r.f5 ++ r.f2 ++ r.b
/-- imm[11:0] of the S format (R23). -/
def Raw.immS (r : Raw) : BitVec 12 := r.f5 ++ r.f2 ++ r.d
/-- imm[31:12] of the U format (R23). -/
def Raw.immU (r : Raw) : BitVec 20 := r.f5 ++ r.f2 ++ r.b ++ r.a ++ r.t
/-- imm[12:1] of the B format (R23): bit 31 is imm[12], 30:25 imm[10:5], 11:8 imm[4:1], 7 imm[11]. -/
def Raw.offB (r : Raw) : BitVec 12 :=
  r.f5.extractLsb' 4 1 ++ r.d.extractLsb' 0 1 ++ r.f5.extractLsb' 0 4 ++ r.f2 ++ r.d.extractLsb' 1 4
/-- imm[20:1] of the J format (R23): bit 31 is imm[20], 30:21 imm[10:1], 20 imm[11], 19:12 imm[19:12]. -/
def Raw.offJ (r : Raw) : BitVec 20 :=
  r.f5.extractLsb' 4 1 ++ r.a ++ r.t ++ r.b.extractLsb' 0 1 ++ r.f5.extractLsb' 0 4 ++ r.f2 ++ r.b.extractLsb' 1 4
/-- The 6-bit shift amount imm[5:0] (R24). -/
def Raw.shamt (r : Raw) : BitVec 6 := r.f2.extractLsb' 0 1 ++ r.b

/-- LOAD (R26): funct3 selects. -/
def decodeLoad (r : Raw) : Option Instr :=
  match r.t with
  | 0#3 => some (.lb r.d r.a r.immI r.marked)
  | 1#3 => some (.lh r.d r.a r.immI r.marked)
  | 2#3 => some (.lw r.d r.a r.immI r.marked)
  | 3#3 => some (.ld r.d r.a r.immI r.marked)
  | 4#3 => some (.lbu r.d r.a r.immI r.marked)
  | 5#3 => some (.lhu r.d r.a r.immI r.marked)
  | 6#3 => some (.lwu r.d r.a r.immI r.marked)
  | _ => none

/-- OP-IMM (R26, R85, R90). -/
def decodeOpImm (r : Raw) : Option Instr :=
  match r.t with
  | 0#3 => some (.addi r.d r.a r.immI r.marked)
  | 1#3 =>
    if r.f5 = 0#5 ∧ r.f2.extractLsb' 1 1 = 0#1 then some (.slli r.d r.a r.shamt r.marked)
    else if r.f5 = 12#5 ∧ r.f2 = 0#2 ∧ r.b = 0#5 then some (.clz r.d r.a r.marked)
    else if r.f5 = 12#5 ∧ r.f2 = 0#2 ∧ r.b = 1#5 then some (.ctz r.d r.a r.marked)
    else if r.f5 = 12#5 ∧ r.f2 = 0#2 ∧ r.b = 2#5 then some (.cpop r.d r.a r.marked)
    else none
  | 2#3 => some (.slti r.d r.a r.immI r.marked)
  | 3#3 => some (.sltiu r.d r.a r.immI r.marked)
  | 4#3 => some (.xori r.d r.a r.immI r.marked)
  | 5#3 =>
    if r.f5 = 0#5 ∧ r.f2.extractLsb' 1 1 = 0#1 then some (.srli r.d r.a r.shamt r.marked)
    else if r.f5 = 8#5 ∧ r.f2.extractLsb' 1 1 = 0#1 then some (.srai r.d r.a r.shamt r.marked)
    else none
  | 6#3 => some (.ori r.d r.a r.immI r.marked)
  | 7#3 => some (.andi r.d r.a r.immI r.marked)

/-- OP-IMM-32 (R26, R87). -/
def decodeOpImm32 (r : Raw) : Option Instr :=
  match r.t with
  | 0#3 => some (.addiw r.d r.a r.immI r.marked)
  | 1#3 => if r.f5 = 0#5 ∧ r.f2 = 0#2 then some (.slliw r.d r.a r.b r.marked) else none
  | 5#3 =>
    if r.f5 = 0#5 ∧ r.f2 = 0#2 then some (.srliw r.d r.a r.b r.marked)
    else if r.f5 = 8#5 ∧ r.f2 = 0#2 then some (.sraiw r.d r.a r.b r.marked)
    else none
  | _ => none

/-- STORE (R26). -/
def decodeStore (r : Raw) : Option Instr :=
  match r.t with
  | 0#3 => some (.sb r.b r.a r.immS r.marked)
  | 1#3 => some (.sh r.b r.a r.immS r.marked)
  | 2#3 => some (.sw r.b r.a r.immS r.marked)
  | 3#3 => some (.sd r.b r.a r.immS r.marked)
  | _ => none

/-- OP (R26, R86, R88, R89, R90): funct7 and funct3 select. -/
def decodeOp (r : Raw) : Option Instr :=
  match r.t with
  | 0#3 =>
    if r.f5 = 0#5 ∧ r.f2 = 0#2 then some (.add r.d r.a r.b r.marked)
    else if r.f5 = 8#5 ∧ r.f2 = 0#2 then some (.sub r.d r.a r.b r.marked)
    else if r.f5 = 0#5 ∧ r.f2 = 1#2 then some (.mul r.d r.a r.b r.marked)
    else none
  | 1#3 =>
    if r.f5 = 0#5 ∧ r.f2 = 0#2 then some (.sll r.d r.a r.b r.marked)
    else if r.f5 = 0#5 ∧ r.f2 = 1#2 then some (.mulh r.d r.a r.b r.marked)
    else none
  | 2#3 =>
    if r.f5 = 0#5 ∧ r.f2 = 0#2 then some (.slt r.d r.a r.b r.marked)
    else if r.f5 = 0#5 ∧ r.f2 = 1#2 then some (.mulhsu r.d r.a r.b r.marked)
    else if r.f5 = 4#5 ∧ r.f2 = 0#2 then some (.sh1add r.d r.a r.b r.marked)
    else none
  | 3#3 =>
    if r.f5 = 0#5 ∧ r.f2 = 0#2 then some (.sltu r.d r.a r.b r.marked)
    else if r.f5 = 0#5 ∧ r.f2 = 1#2 then some (.mulhu r.d r.a r.b r.marked)
    else none
  | 4#3 =>
    if r.f5 = 0#5 ∧ r.f2 = 0#2 then some (.xor r.d r.a r.b r.marked)
    else if r.f5 = 0#5 ∧ r.f2 = 1#2 then some (.div r.d r.a r.b r.marked)
    else if r.f5 = 1#5 ∧ r.f2 = 1#2 then some (.min r.d r.a r.b r.marked)
    else if r.f5 = 4#5 ∧ r.f2 = 0#2 then some (.sh2add r.d r.a r.b r.marked)
    else none
  | 5#3 =>
    if r.f5 = 0#5 ∧ r.f2 = 0#2 then some (.srl r.d r.a r.b r.marked)
    else if r.f5 = 8#5 ∧ r.f2 = 0#2 then some (.sra r.d r.a r.b r.marked)
    else if r.f5 = 0#5 ∧ r.f2 = 1#2 then some (.divu r.d r.a r.b r.marked)
    else if r.f5 = 1#5 ∧ r.f2 = 1#2 then some (.minu r.d r.a r.b r.marked)
    else none
  | 6#3 =>
    if r.f5 = 0#5 ∧ r.f2 = 0#2 then some (.or r.d r.a r.b r.marked)
    else if r.f5 = 8#5 ∧ r.f2 = 0#2 then some (.orn r.d r.a r.b r.marked)
    else if r.f5 = 0#5 ∧ r.f2 = 1#2 then some (.rem r.d r.a r.b r.marked)
    else if r.f5 = 1#5 ∧ r.f2 = 1#2 then some (.max r.d r.a r.b r.marked)
    else if r.f5 = 4#5 ∧ r.f2 = 0#2 then some (.sh3add r.d r.a r.b r.marked)
    else none
  | 7#3 =>
    if r.f5 = 0#5 ∧ r.f2 = 0#2 then some (.and r.d r.a r.b r.marked)
    else if r.f5 = 8#5 ∧ r.f2 = 0#2 then some (.andn r.d r.a r.b r.marked)
    else if r.f5 = 0#5 ∧ r.f2 = 1#2 then some (.remu r.d r.a r.b r.marked)
    else if r.f5 = 1#5 ∧ r.f2 = 1#2 then some (.maxu r.d r.a r.b r.marked)
    else none

/-- OP-32 (R26, R87 to R89). -/
def decodeOp32 (r : Raw) : Option Instr :=
  match r.t with
  | 0#3 =>
    if r.f5 = 0#5 ∧ r.f2 = 0#2 then some (.addw r.d r.a r.b r.marked)
    else if r.f5 = 8#5 ∧ r.f2 = 0#2 then some (.subw r.d r.a r.b r.marked)
    else if r.f5 = 0#5 ∧ r.f2 = 1#2 then some (.mulw r.d r.a r.b r.marked)
    else none
  | 1#3 => if r.f5 = 0#5 ∧ r.f2 = 0#2 then some (.sllw r.d r.a r.b r.marked) else none
  | 4#3 => if r.f5 = 0#5 ∧ r.f2 = 1#2 then some (.divw r.d r.a r.b r.marked) else none
  | 5#3 =>
    if r.f5 = 0#5 ∧ r.f2 = 0#2 then some (.srlw r.d r.a r.b r.marked)
    else if r.f5 = 8#5 ∧ r.f2 = 0#2 then some (.sraw r.d r.a r.b r.marked)
    else if r.f5 = 0#5 ∧ r.f2 = 1#2 then some (.divuw r.d r.a r.b r.marked)
    else none
  | 6#3 => if r.f5 = 0#5 ∧ r.f2 = 1#2 then some (.remw r.d r.a r.b r.marked) else none
  | 7#3 => if r.f5 = 0#5 ∧ r.f2 = 1#2 then some (.remuw r.d r.a r.b r.marked) else none
  | _ => none

/-- BRANCH (R26). -/
def decodeBranch (r : Raw) : Option Instr :=
  match r.t with
  | 0#3 => some (.beq r.a r.b r.offB r.marked)
  | 1#3 => some (.bne r.a r.b r.offB r.marked)
  | 4#3 => some (.blt r.a r.b r.offB r.marked)
  | 5#3 => some (.bge r.a r.b r.offB r.marked)
  | 6#3 => some (.bltu r.a r.b r.offB r.marked)
  | 7#3 => some (.bgeu r.a r.b r.offB r.marked)
  | _ => none

/-- SYSTEM (R27). -/
def decodeSystem (r : Raw) : Option Instr :=
  match r.t with
  | 0#3 =>
    if r.f5 = 0#5 ∧ r.f2 = 0#2 ∧ r.b = 0#5 ∧ r.a = 0#5 ∧ r.d = 0#5 then some (.ecall r.marked)
    else if r.f5 = 0#5 ∧ r.f2 = 0#2 ∧ r.b = 1#5 ∧ r.a = 0#5 ∧ r.d = 0#5 then some (.ebreak r.marked)
    else if r.f5 = 2#5 ∧ r.f2 = 0#2 ∧ r.b = 2#5 ∧ r.a = 0#5 ∧ r.d = 0#5 then some (.xret r.marked)
    else none
  | 1#3 => some (.csrrw r.d r.immI r.a r.marked)
  | 2#3 => some (.csrrs r.d r.immI r.a r.marked)
  | 3#3 => some (.csrrc r.d r.immI r.a r.marked)
  | 5#3 => some (.csrrwi r.d r.immI r.a r.marked)
  | 6#3 => some (.csrrsi r.d r.immI r.a r.marked)
  | 7#3 => some (.csrrci r.d r.immI r.a r.marked)
  | _ => none

/-- SYNC (R28, R29): a field marked 0 or 00 must be zero. -/
def decodeSync (r : Raw) : Option Instr :=
  match r.t with
  | 0#3 =>
    if r.f2 = 0#2 then some (.cwait r.d r.a r.b r.f5 r.marked)
    else if r.f2 = 1#2 then some (.lwait r.d r.a r.b r.f5 r.marked)
    else if r.f2 = 2#2 ∧ r.b = 0#5 then some (.barw r.d r.a r.f5 r.marked)
    else if r.f2 = 3#2 ∧ r.b = 0#5 then some (.recv r.d r.a r.f5 r.marked)
    else none
  | 1#3 => if r.b = 0#5 then some (.fencew (Scope.ofBits r.f2) r.d r.a r.f5 r.marked) else none
  | 2#3 =>
    if r.f2 = 0#2 ∧ r.b = 0#5 ∧ r.a = 0#5 then some (.mwait r.d r.f5 r.marked)
    else if r.f2 = 1#2 ∧ r.b = 0#5 ∧ r.a = 0#5 then some (.ifencew r.d r.f5 r.marked)
    else if r.f2 = 2#2 ∧ r.b = 0#5 then some (.barx r.d r.a r.f5 r.marked)
    else if r.f2 = 3#2 then some (.spawn r.d r.a r.b r.f5 r.marked)
    else none
  | 3#3 =>
    if r.f2 = 0#2 then some (.acasV r.d r.a r.b r.f5 r.marked)
    else if r.f2 = 1#2 then some (.acasS r.d r.a r.b r.f5 r.marked)
    else if r.f2 = 2#2 ∧ r.b = 0#5 then some (.ttake r.d r.a r.f5 r.marked)
    else if r.f2 = 3#2 then some (.qpush r.d r.a r.b r.f5 r.marked)
    else none
  | 4#3 =>
    if r.f5 = 0#5 then some (.cadd (Scope.ofBits r.f2) r.d r.a r.b r.marked)
    else if r.f5 = 1#5 ∧ r.f2 = 0#2 ∧ r.b = 0#5 then some (.mona r.d r.a r.marked)
    else if r.f5 = 2#5 ∧ r.f2 = 0#2 ∧ r.b = 0#5 ∧ r.d = 0#5 then some (.mclr r.a r.marked)
    else if r.f5 = 3#5 ∧ r.f2 = 0#2 ∧ r.b = 0#5 then some (.join r.d r.a r.marked)
    else if r.f5 = 4#5 ∧ r.f2 = 0#2 ∧ r.b = 0#5 then some (.leave r.d r.a r.marked)
    else if r.f5 = 5#5 ∧ r.f2 = 0#2 ∧ r.b = 0#5 then some (.gnew r.d r.a r.marked)
    else if r.f5 = 6#5 ∧ r.f2 = 0#2 ∧ r.b = 0#5 then some (.gfree r.d r.a r.marked)
    else if r.f5 = 7#5 ∧ r.f2 = 0#2 ∧ r.b = 0#5 then some (.bara r.d r.a r.marked)
    else if r.f5 = 8#5 ∧ r.f2 = 0#2 ∧ r.b = 0#5 ∧ r.d = 0#5 then some (.exit r.a r.marked)
    else if r.f5 = 9#5 ∧ r.b = 0#5 then some (.lda (Scope.ofBits r.f2) r.d r.a r.marked)
    else if r.f5 = 10#5 ∧ r.d = 0#5 then some (.stl (Scope.ofBits r.f2) r.a r.b r.marked)
    else if r.f5 = 11#5 ∧ r.f2 = 0#2 ∧ r.b = 0#5 ∧ r.d = 0#5 then some (.tgive r.a r.marked)
    else if r.f5 = 12#5 ∧ r.f2 = 0#2 ∧ r.b = 0#5 ∧ r.d = 0#5 then some (.tmark r.a r.marked)
    else if r.f5 = 13#5 ∧ r.f2 = 0#2 ∧ r.b = 0#5 ∧ r.a = 0#5 ∧ r.d = 0#5 then some (.cswap r.marked)
    else none
  | 5#3 =>
    if r.f5 = 0#5 then some (.aadd (Scope.ofBits r.f2) r.d r.a r.b r.marked)
    else if r.f5 = 1#5 then some (.aand (Scope.ofBits r.f2) r.d r.a r.b r.marked)
    else if r.f5 = 2#5 then some (.aor (Scope.ofBits r.f2) r.d r.a r.b r.marked)
    else if r.f5 = 3#5 then some (.axor (Scope.ofBits r.f2) r.d r.a r.b r.marked)
    else if r.f5 = 4#5 then some (.amin (Scope.ofBits r.f2) r.d r.a r.b r.marked)
    else if r.f5 = 5#5 then some (.amax (Scope.ofBits r.f2) r.d r.a r.b r.marked)
    else if r.f5 = 6#5 then some (.aminu (Scope.ofBits r.f2) r.d r.a r.b r.marked)
    else if r.f5 = 7#5 then some (.amaxu (Scope.ofBits r.f2) r.d r.a r.b r.marked)
    else if r.f5 = 8#5 then some (.aswap (Scope.ofBits r.f2) r.d r.a r.b r.marked)
    else none
  | 6#3 => if r.f2 = 0#2 ∧ r.b = 0#5 then some (.evstep r.d r.a r.f5 r.marked) else none
  | _ => none

/-- VEC (R30): op5 selects. -/
def decodeVec (r : Raw) : Option Instr :=
  match r.f5 with
  | 0#5 => some (.vadd (VType.ofBits r.t) r.d r.a r.b r.f2 r.marked)
  | 1#5 => some (.vsub (VType.ofBits r.t) r.d r.a r.b r.f2 r.marked)
  | 2#5 => some (.vmul (VType.ofBits r.t) r.d r.a r.b r.f2 r.marked)
  | 3#5 => some (.vmulh (VType.ofBits r.t) r.d r.a r.b r.f2 r.marked)
  | 4#5 => some (.vmadd (VType.ofBits r.t) r.d r.a r.b r.f2 r.marked)
  | 5#5 => some (.vmin (VType.ofBits r.t) r.d r.a r.b r.f2 r.marked)
  | 6#5 => some (.vmax (VType.ofBits r.t) r.d r.a r.b r.f2 r.marked)
  | 7#5 => some (.vand (VType.ofBits r.t) r.d r.a r.b r.f2 r.marked)
  | 8#5 => some (.vor (VType.ofBits r.t) r.d r.a r.b r.f2 r.marked)
  | 9#5 => some (.vxor (VType.ofBits r.t) r.d r.a r.b r.f2 r.marked)
  | 10#5 => some (.vsll (VType.ofBits r.t) r.d r.a r.b r.f2 r.marked)
  | 11#5 => some (.vsrl (VType.ofBits r.t) r.d r.a r.b r.f2 r.marked)
  | 12#5 => some (.vsra (VType.ofBits r.t) r.d r.a r.b r.f2 r.marked)
  | 13#5 => if r.d.extractLsb' 3 2 = 0#2 then some (.vcmpeq (VType.ofBits r.t) (r.d.extractLsb' 0 3) r.a r.b r.f2 r.marked) else none
  | 14#5 => if r.d.extractLsb' 3 2 = 0#2 then some (.vcmplt (VType.ofBits r.t) (r.d.extractLsb' 0 3) r.a r.b r.f2 r.marked) else none
  | 15#5 => if r.d.extractLsb' 3 2 = 0#2 then some (.vcmple (VType.ofBits r.t) (r.d.extractLsb' 0 3) r.a r.b r.f2 r.marked) else none
  | 16#5 => some (.vsel (VType.ofBits r.t) r.d r.a r.b r.f2 r.marked)
  | 17#5 => some (.vcvt (VType.ofBits r.t) (VType.ofBits (r.b.extractLsb' 0 3)) (Round.ofBits (r.b.extractLsb' 3 2)) r.d r.a r.f2 r.marked)
  | 18#5 => if r.b.extractLsb' 0 3 = 0#3 then some (.vnrw (VType.ofBits r.t) (Round.ofBits (r.b.extractLsb' 3 2)) r.d r.a r.f2 r.marked) else none
  | 19#5 => if r.b = 0#5 then some (.vwid (VType.ofBits r.t) r.d r.a r.f2 r.marked) else none
  | 20#5 => if r.b = 0#5 then some (.vrsum (VType.ofBits r.t) r.d r.a r.f2 r.marked) else none
  | 21#5 => if r.b = 0#5 then some (.vrmax (VType.ofBits r.t) r.d r.a r.f2 r.marked) else none
  | 22#5 => if r.b = 0#5 then some (.vrmin (VType.ofBits r.t) r.d r.a r.f2 r.marked) else none
  | 23#5 => some (.vperm (VType.ofBits r.t) r.d r.a r.b r.f2 r.marked)
  | 24#5 => if r.t = 0#3 then some (.vdot r.d r.a r.b r.f2 r.marked) else none
  | 25#5 => if r.b = 0#5 then some (.vpopc (VType.ofBits r.t) r.d r.a r.f2 r.marked) else none
  | 26#5 => if r.b = 0#5 then some (.vlut (VType.ofBits r.t) r.d r.a r.f2 r.marked) else none
  | 27#5 => if r.b = 0#5 then some (.vabs (VType.ofBits r.t) r.d r.a r.f2 r.marked) else none
  | 28#5 => if r.b = 0#5 then some (.vsplat (VType.ofBits r.t) r.d r.a r.f2 r.marked) else none
  | 29#5 => if r.f2 = 0#2 then some (.vext (VType.ofBits r.t) r.d r.a r.b r.marked) else none
  | 30#5 => if r.f2 = 0#2 then some (.vins (VType.ofBits r.t) r.d r.a r.b r.marked) else none
  | 31#5 => some (.scmac (VType.ofBits r.t) r.d r.a r.b r.f2 r.marked)
  | _ => none

/-- VMEM (R31): op5 selects. -/
def decodeVmem (r : Raw) : Option Instr :=
  match r.f5 with
  | 0#5 => if r.b = 0#5 then some (.vld (VType.ofBits r.t) r.d r.a r.f2 r.marked) else none
  | 1#5 => if r.b = 0#5 then some (.vst (VType.ofBits r.t) r.d r.a r.f2 r.marked) else none
  | 2#5 => some (.vlds (VType.ofBits r.t) r.d r.a r.b r.f2 r.marked)
  | 3#5 => some (.vsts (VType.ofBits r.t) r.d r.a r.b r.f2 r.marked)
  | 4#5 => some (.vldx (VType.ofBits r.t) r.d r.a r.b r.f2 r.marked)
  | 5#5 => some (.vstx (VType.ofBits r.t) r.d r.a r.b r.f2 r.marked)
  | 6#5 => if r.b = 0#5 then some (.vldb (VType.ofBits r.t) r.d r.a r.f2 r.marked) else none
  | 7#5 => if r.f2 = 0#2 ∧ r.b = 0#5 ∧ r.d.extractLsb' 3 2 = 3#2 then some (.sbind (VType.ofBits r.t) (r.d.extractLsb' 0 3) r.a r.marked) else none
  | 8#5 => if r.f2 = 0#2 ∧ r.b = 0#5 ∧ r.a = 0#5 ∧ r.t = 0#3 ∧ r.d.extractLsb' 3 2 = 3#2 then some (.sunb (r.d.extractLsb' 0 3) r.marked) else none
  | 9#5 => if r.f2 = 0#2 ∧ r.b.extractLsb' 3 2 = 3#2 ∧ r.a = 0#5 ∧ r.t = 0#3 then some (.sstat r.d (r.b.extractLsb' 0 3) r.marked) else none
  | 10#5 => if r.f2 = 0#2 ∧ r.b = 0#5 ∧ r.t = 0#3 ∧ r.d.extractLsb' 3 2 = 0#2 then some (.mldm (r.d.extractLsb' 0 3) r.a r.marked) else none
  | 11#5 => if r.f2 = 0#2 ∧ r.b = 0#5 ∧ r.t = 0#3 ∧ r.d.extractLsb' 3 2 = 0#2 then some (.mstm (r.d.extractLsb' 0 3) r.a r.marked) else none
  | 12#5 => if r.f2 = 0#2 ∧ r.b.extractLsb' 3 2 = 0#2 ∧ r.a.extractLsb' 3 2 = 0#2 ∧ r.t = 0#3 ∧ r.d.extractLsb' 3 2 = 0#2 then some (.mand (r.d.extractLsb' 0 3) (r.a.extractLsb' 0 3) (r.b.extractLsb' 0 3) r.marked) else none
  | 13#5 => if r.f2 = 0#2 ∧ r.b.extractLsb' 3 2 = 0#2 ∧ r.a.extractLsb' 3 2 = 0#2 ∧ r.t = 0#3 ∧ r.d.extractLsb' 3 2 = 0#2 then some (.mor (r.d.extractLsb' 0 3) (r.a.extractLsb' 0 3) (r.b.extractLsb' 0 3) r.marked) else none
  | 14#5 => if r.f2 = 0#2 ∧ r.b.extractLsb' 3 2 = 0#2 ∧ r.a.extractLsb' 3 2 = 0#2 ∧ r.t = 0#3 ∧ r.d.extractLsb' 3 2 = 0#2 then some (.mxor (r.d.extractLsb' 0 3) (r.a.extractLsb' 0 3) (r.b.extractLsb' 0 3) r.marked) else none
  | 15#5 => if r.f2 = 0#2 ∧ r.b = 0#5 ∧ r.a.extractLsb' 3 2 = 0#2 ∧ r.t = 0#3 ∧ r.d.extractLsb' 3 2 = 0#2 then some (.mnot (r.d.extractLsb' 0 3) (r.a.extractLsb' 0 3) r.marked) else none
  | 16#5 => if r.f2 = 0#2 ∧ r.b = 0#5 ∧ r.a.extractLsb' 3 2 = 0#2 ∧ r.t = 0#3 then some (.mpopc r.d (r.a.extractLsb' 0 3) r.marked) else none
  | 17#5 => if r.f2 = 0#2 ∧ r.b = 0#5 ∧ r.a.extractLsb' 3 2 = 0#2 ∧ r.t = 0#3 then some (.mfirst r.d (r.a.extractLsb' 0 3) r.marked) else none
  | 18#5 => if r.f2 = 0#2 ∧ r.b = 0#5 ∧ r.t = 0#3 ∧ r.d.extractLsb' 3 2 = 0#2 then some (.mset (r.d.extractLsb' 0 3) r.a r.marked) else none
  | 19#5 => if r.f2 = 0#2 ∧ r.b = 0#5 ∧ r.t = 1#3 then some (.sdstep r.d r.a r.marked) else none
  | 20#5 => if r.f2 = 0#2 ∧ r.t = 0#3 then some (.evsend r.d r.a r.b r.marked) else none
  | _ => none

/-- XENG (R32): engine and funct7 select. -/
def decodeXeng (r : Raw) : Option Instr :=
  match r.t with
  | 0#3 =>
    if r.f5 = 0#5 ∧ r.f2 = 0#2 then some (.mma r.d r.a r.b r.marked)
    else if r.f5 = 0#5 ∧ r.f2 = 1#2 then some (.mmaBs r.d r.a r.b r.marked)
    else if r.f5 = 0#5 ∧ r.f2 = 2#2 then some (.mlut r.d r.a r.b r.marked)
    else if r.f5 = 0#5 ∧ r.f2 = 3#2 then some (.mbin r.d r.a r.b r.marked)
    else if r.f5 = 1#5 ∧ r.f2 = 0#2 then some (.mzero r.d r.a r.b r.marked)
    else if r.f5 = 1#5 ∧ r.f2 = 1#2 then some (.mlda r.d r.a r.b r.marked)
    else if r.f5 = 1#5 ∧ r.f2 = 2#2 then some (.msta r.d r.a r.b r.marked)
    else if r.f5 = 1#5 ∧ r.f2 = 3#2 then some (.tcfg r.d r.a r.b r.marked)
    else if r.f5 = 2#5 ∧ r.f2 = 0#2 then some (.trel r.d r.a r.b r.marked)
    else if r.f5 = 2#5 ∧ r.f2 = 1#2 then some (.mteam r.d r.a r.b r.marked)
    else none
  | 1#3 =>
    if r.f5 = 0#5 ∧ r.f2 = 0#2 then some (.copy1 r.d r.a r.b r.marked)
    else if r.f5 = 0#5 ∧ r.f2 = 1#2 then some (.copy2 r.d r.a r.b r.marked)
    else if r.f5 = 0#5 ∧ r.f2 = 2#2 then some (.copyx r.d r.a r.b r.marked)
    else if r.f5 = 0#5 ∧ r.f2 = 3#2 then some (.cfill r.d r.a r.b r.marked)
    else none
  | 2#3 =>
    if r.f5 = 0#5 ∧ r.f2 = 0#2 then some (.qnt8 r.d r.a r.b r.marked)
    else if r.f5 = 0#5 ∧ r.f2 = 1#2 then some (.qs2p r.d r.a r.b r.marked)
    else if r.f5 = 0#5 ∧ r.f2 = 2#2 then some (.dqnt r.d r.a r.b r.marked)
    else none
  | 3#3 =>
    if r.f5 = 0#5 ∧ r.f2 = 0#2 then some (.cred r.d r.a r.b r.marked)
    else if r.f5 = 0#5 ∧ r.f2 = 1#2 then some (.cbcast r.d r.a r.b r.marked)
    else if r.f5 = 0#5 ∧ r.f2 = 2#2 then some (.cagath r.d r.a r.b r.marked)
    else none
  | 4#3 =>
    if r.f5 = 0#5 ∧ r.f2 = 0#2 then some (.sdcfg r.d r.a r.b r.marked)
    else if r.f5 = 0#5 ∧ r.f2 = 1#2 then some (.sdrst r.d r.a r.b r.marked)
    else none
  | _ => none

/-- The instruction of a word's form by its major opcode (R25), whatever the checks of WellFormed say of its operands.
Bits 1:0 of 00 or 01, and a major opcode that is not allocated, give none. -/
def decodeForm (r : Raw) : Option Instr :=
  if r.lo = 0#2 ∨ r.lo = 1#2 then none else
  match r.op with
  | 0#5 => decodeLoad r
  | 2#5 => decodeSync r
  | 4#5 => decodeOpImm r
  | 5#5 => some (.auipc r.d r.immU r.marked)
  | 6#5 => decodeOpImm32 r
  | 8#5 => decodeStore r
  | 10#5 => decodeVec r
  | 12#5 => decodeOp r
  | 13#5 => some (.lui r.d r.immU r.marked)
  | 14#5 => decodeOp32 r
  | 22#5 => decodeVmem r
  | 24#5 => decodeBranch r
  | 25#5 => if r.t = 0#3 then some (.jalr r.d r.a r.immI r.marked) else none
  | 27#5 => some (.jal r.d r.offJ r.marked)
  | 28#5 => decodeSystem r
  | 30#5 => decodeXeng r
  | _ => none

/-- The instruction of a word, or none where the word is illegal (R33): no allocated form, or one whose operands the
checks of `Instr.wf` refuse. -/
def decode (w : IWord) : Option Instr :=
  match decodeForm (splitWord w) with
  | some i => if i.wf then some i else none
  | none => none

/-- Fields of the U format (R23). -/
def rawU (imm : BitVec 20) (rd : Reg) (op : BitVec 5) (mark : Bool) : Raw :=
  ⟨imm.extractLsb' 15 5, imm.extractLsb' 13 2, imm.extractLsb' 8 5, imm.extractLsb' 3 5, imm.extractLsb' 0 3, rd, op,
    low mark⟩
/-- Fields of the J format (R23). -/
def rawJ (off : BitVec 20) (rd : Reg) (op : BitVec 5) (mark : Bool) : Raw :=
  ⟨off.extractLsb' 19 1 ++ off.extractLsb' 6 4, off.extractLsb' 4 2, off.extractLsb' 0 4 ++ off.extractLsb' 10 1,
    off.extractLsb' 14 5, off.extractLsb' 11 3, rd, op, low mark⟩
/-- Fields of the I format (R23). -/
def rawI (imm : BitVec 12) (rs1 : Reg) (t : BitVec 3) (rd : Reg) (op : BitVec 5) (mark : Bool) : Raw :=
  ⟨imm.extractLsb' 7 5, imm.extractLsb' 5 2, imm.extractLsb' 0 5, rs1, t, rd, op, low mark⟩
/-- Fields of the S format (R23). -/
def rawS (imm : BitVec 12) (rs2 rs1 : Reg) (t : BitVec 3) (op : BitVec 5) (mark : Bool) : Raw :=
  ⟨imm.extractLsb' 7 5, imm.extractLsb' 5 2, rs2, rs1, t, imm.extractLsb' 0 5, op, low mark⟩
/-- Fields of the B format (R23). -/
def rawB (off : BitVec 12) (rs2 rs1 : Reg) (t : BitVec 3) (op : BitVec 5) (mark : Bool) : Raw :=
  ⟨off.extractLsb' 11 1 ++ off.extractLsb' 6 4, off.extractLsb' 4 2, rs2, rs1, t,
    off.extractLsb' 0 4 ++ off.extractLsb' 10 1, op, low mark⟩

/-- The fields of an instruction's word, from the same tables; none for a station command or an event, which has no word
of its own. -/
def encodeRaw (i : Instr) : Option Raw :=
  match i with
  | .lui rd imm mark => some (rawU imm rd 13#5 mark)
  | .auipc rd imm mark => some (rawU imm rd 5#5 mark)
  | .jal rd off mark => some (rawJ off rd 27#5 mark)
  | .jalr rd rs1 imm mark => some (rawI imm rs1 (0#3) rd 25#5 mark)
  | .beq rs1 rs2 off mark => some (rawB off rs2 rs1 (0#3) 24#5 mark)
  | .bne rs1 rs2 off mark => some (rawB off rs2 rs1 (1#3) 24#5 mark)
  | .blt rs1 rs2 off mark => some (rawB off rs2 rs1 (4#3) 24#5 mark)
  | .bge rs1 rs2 off mark => some (rawB off rs2 rs1 (5#3) 24#5 mark)
  | .bltu rs1 rs2 off mark => some (rawB off rs2 rs1 (6#3) 24#5 mark)
  | .bgeu rs1 rs2 off mark => some (rawB off rs2 rs1 (7#3) 24#5 mark)
  | .lb rd rs1 imm mark => some (rawI imm rs1 (0#3) rd 0#5 mark)
  | .lh rd rs1 imm mark => some (rawI imm rs1 (1#3) rd 0#5 mark)
  | .lw rd rs1 imm mark => some (rawI imm rs1 (2#3) rd 0#5 mark)
  | .ld rd rs1 imm mark => some (rawI imm rs1 (3#3) rd 0#5 mark)
  | .lbu rd rs1 imm mark => some (rawI imm rs1 (4#3) rd 0#5 mark)
  | .lhu rd rs1 imm mark => some (rawI imm rs1 (5#3) rd 0#5 mark)
  | .lwu rd rs1 imm mark => some (rawI imm rs1 (6#3) rd 0#5 mark)
  | .sb rs2 rs1 imm mark => some (rawS imm rs2 rs1 (0#3) 8#5 mark)
  | .sh rs2 rs1 imm mark => some (rawS imm rs2 rs1 (1#3) 8#5 mark)
  | .sw rs2 rs1 imm mark => some (rawS imm rs2 rs1 (2#3) 8#5 mark)
  | .sd rs2 rs1 imm mark => some (rawS imm rs2 rs1 (3#3) 8#5 mark)
  | .addi rd rs1 imm mark => some (rawI imm rs1 (0#3) rd 4#5 mark)
  | .slti rd rs1 imm mark => some (rawI imm rs1 (2#3) rd 4#5 mark)
  | .sltiu rd rs1 imm mark => some (rawI imm rs1 (3#3) rd 4#5 mark)
  | .xori rd rs1 imm mark => some (rawI imm rs1 (4#3) rd 4#5 mark)
  | .ori rd rs1 imm mark => some (rawI imm rs1 (6#3) rd 4#5 mark)
  | .andi rd rs1 imm mark => some (rawI imm rs1 (7#3) rd 4#5 mark)
  | .slli rd rs1 sh mark => some ⟨0#5, 0#1 ++ sh.extractLsb' 5 1, sh.extractLsb' 0 5, rs1, 1#3, rd, 4#5, low mark⟩
  | .srli rd rs1 sh mark => some ⟨0#5, 0#1 ++ sh.extractLsb' 5 1, sh.extractLsb' 0 5, rs1, 5#3, rd, 4#5, low mark⟩
  | .srai rd rs1 sh mark => some ⟨8#5, 0#1 ++ sh.extractLsb' 5 1, sh.extractLsb' 0 5, rs1, 5#3, rd, 4#5, low mark⟩
  | .clz rd rs1 mark => some ⟨12#5, 0#2, 0#5, rs1, 1#3, rd, 4#5, low mark⟩
  | .ctz rd rs1 mark => some ⟨12#5, 0#2, 1#5, rs1, 1#3, rd, 4#5, low mark⟩
  | .cpop rd rs1 mark => some ⟨12#5, 0#2, 2#5, rs1, 1#3, rd, 4#5, low mark⟩
  | .addiw rd rs1 imm mark => some (rawI imm rs1 (0#3) rd 6#5 mark)
  | .slliw rd rs1 sh mark => some ⟨0#5, 0#2, sh, rs1, 1#3, rd, 6#5, low mark⟩
  | .srliw rd rs1 sh mark => some ⟨0#5, 0#2, sh, rs1, 5#3, rd, 6#5, low mark⟩
  | .sraiw rd rs1 sh mark => some ⟨8#5, 0#2, sh, rs1, 5#3, rd, 6#5, low mark⟩
  | .add rd rs1 rs2 mark => some ⟨0#5, 0#2, rs2, rs1, 0#3, rd, 12#5, low mark⟩
  | .sub rd rs1 rs2 mark => some ⟨8#5, 0#2, rs2, rs1, 0#3, rd, 12#5, low mark⟩
  | .sll rd rs1 rs2 mark => some ⟨0#5, 0#2, rs2, rs1, 1#3, rd, 12#5, low mark⟩
  | .slt rd rs1 rs2 mark => some ⟨0#5, 0#2, rs2, rs1, 2#3, rd, 12#5, low mark⟩
  | .sltu rd rs1 rs2 mark => some ⟨0#5, 0#2, rs2, rs1, 3#3, rd, 12#5, low mark⟩
  | .xor rd rs1 rs2 mark => some ⟨0#5, 0#2, rs2, rs1, 4#3, rd, 12#5, low mark⟩
  | .srl rd rs1 rs2 mark => some ⟨0#5, 0#2, rs2, rs1, 5#3, rd, 12#5, low mark⟩
  | .sra rd rs1 rs2 mark => some ⟨8#5, 0#2, rs2, rs1, 5#3, rd, 12#5, low mark⟩
  | .or rd rs1 rs2 mark => some ⟨0#5, 0#2, rs2, rs1, 6#3, rd, 12#5, low mark⟩
  | .and rd rs1 rs2 mark => some ⟨0#5, 0#2, rs2, rs1, 7#3, rd, 12#5, low mark⟩
  | .orn rd rs1 rs2 mark => some ⟨8#5, 0#2, rs2, rs1, 6#3, rd, 12#5, low mark⟩
  | .andn rd rs1 rs2 mark => some ⟨8#5, 0#2, rs2, rs1, 7#3, rd, 12#5, low mark⟩
  | .mul rd rs1 rs2 mark => some ⟨0#5, 1#2, rs2, rs1, 0#3, rd, 12#5, low mark⟩
  | .mulh rd rs1 rs2 mark => some ⟨0#5, 1#2, rs2, rs1, 1#3, rd, 12#5, low mark⟩
  | .mulhsu rd rs1 rs2 mark => some ⟨0#5, 1#2, rs2, rs1, 2#3, rd, 12#5, low mark⟩
  | .mulhu rd rs1 rs2 mark => some ⟨0#5, 1#2, rs2, rs1, 3#3, rd, 12#5, low mark⟩
  | .div rd rs1 rs2 mark => some ⟨0#5, 1#2, rs2, rs1, 4#3, rd, 12#5, low mark⟩
  | .divu rd rs1 rs2 mark => some ⟨0#5, 1#2, rs2, rs1, 5#3, rd, 12#5, low mark⟩
  | .rem rd rs1 rs2 mark => some ⟨0#5, 1#2, rs2, rs1, 6#3, rd, 12#5, low mark⟩
  | .remu rd rs1 rs2 mark => some ⟨0#5, 1#2, rs2, rs1, 7#3, rd, 12#5, low mark⟩
  | .min rd rs1 rs2 mark => some ⟨1#5, 1#2, rs2, rs1, 4#3, rd, 12#5, low mark⟩
  | .minu rd rs1 rs2 mark => some ⟨1#5, 1#2, rs2, rs1, 5#3, rd, 12#5, low mark⟩
  | .max rd rs1 rs2 mark => some ⟨1#5, 1#2, rs2, rs1, 6#3, rd, 12#5, low mark⟩
  | .maxu rd rs1 rs2 mark => some ⟨1#5, 1#2, rs2, rs1, 7#3, rd, 12#5, low mark⟩
  | .sh1add rd rs1 rs2 mark => some ⟨4#5, 0#2, rs2, rs1, 2#3, rd, 12#5, low mark⟩
  | .sh2add rd rs1 rs2 mark => some ⟨4#5, 0#2, rs2, rs1, 4#3, rd, 12#5, low mark⟩
  | .sh3add rd rs1 rs2 mark => some ⟨4#5, 0#2, rs2, rs1, 6#3, rd, 12#5, low mark⟩
  | .addw rd rs1 rs2 mark => some ⟨0#5, 0#2, rs2, rs1, 0#3, rd, 14#5, low mark⟩
  | .subw rd rs1 rs2 mark => some ⟨8#5, 0#2, rs2, rs1, 0#3, rd, 14#5, low mark⟩
  | .sllw rd rs1 rs2 mark => some ⟨0#5, 0#2, rs2, rs1, 1#3, rd, 14#5, low mark⟩
  | .srlw rd rs1 rs2 mark => some ⟨0#5, 0#2, rs2, rs1, 5#3, rd, 14#5, low mark⟩
  | .sraw rd rs1 rs2 mark => some ⟨8#5, 0#2, rs2, rs1, 5#3, rd, 14#5, low mark⟩
  | .mulw rd rs1 rs2 mark => some ⟨0#5, 1#2, rs2, rs1, 0#3, rd, 14#5, low mark⟩
  | .divw rd rs1 rs2 mark => some ⟨0#5, 1#2, rs2, rs1, 4#3, rd, 14#5, low mark⟩
  | .divuw rd rs1 rs2 mark => some ⟨0#5, 1#2, rs2, rs1, 5#3, rd, 14#5, low mark⟩
  | .remw rd rs1 rs2 mark => some ⟨0#5, 1#2, rs2, rs1, 6#3, rd, 14#5, low mark⟩
  | .remuw rd rs1 rs2 mark => some ⟨0#5, 1#2, rs2, rs1, 7#3, rd, 14#5, low mark⟩
  | .ecall mark => some ⟨0#5, 0#2, 0#5, 0#5, 0#3, 0#5, 28#5, low mark⟩
  | .ebreak mark => some ⟨0#5, 0#2, 1#5, 0#5, 0#3, 0#5, 28#5, low mark⟩
  | .xret mark => some ⟨2#5, 0#2, 2#5, 0#5, 0#3, 0#5, 28#5, low mark⟩
  | .csrrw rd csr rs1 mark => some (rawI csr rs1 (1#3) rd 28#5 mark)
  | .csrrs rd csr rs1 mark => some (rawI csr rs1 (2#3) rd 28#5 mark)
  | .csrrc rd csr rs1 mark => some (rawI csr rs1 (3#3) rd 28#5 mark)
  | .csrrwi rd csr z mark => some (rawI csr z (5#3) rd 28#5 mark)
  | .csrrsi rd csr z mark => some (rawI csr z (6#3) rd 28#5 mark)
  | .csrrci rd csr z mark => some (rawI csr z (7#3) rd 28#5 mark)
  | .cwait rd rs1 rs2 rs3 mark => some ⟨rs3, 0#2, rs2, rs1, 0#3, rd, 2#5, low mark⟩
  | .lwait rd rs1 rs2 rs3 mark => some ⟨rs3, 1#2, rs2, rs1, 0#3, rd, 2#5, low mark⟩
  | .barw rd rs1 rs3 mark => some ⟨rs3, 2#2, 0#5, rs1, 0#3, rd, 2#5, low mark⟩
  | .recv rd rs1 rs3 mark => some ⟨rs3, 3#2, 0#5, rs1, 0#3, rd, 2#5, low mark⟩
  | .fencew scope rd rs1 rs3 mark => some ⟨rs3, scope.bits, 0#5, rs1, 1#3, rd, 2#5, low mark⟩
  | .mwait rd rs3 mark => some ⟨rs3, 0#2, 0#5, 0#5, 2#3, rd, 2#5, low mark⟩
  | .ifencew rd rs3 mark => some ⟨rs3, 1#2, 0#5, 0#5, 2#3, rd, 2#5, low mark⟩
  | .barx rd rs1 rs3 mark => some ⟨rs3, 2#2, 0#5, rs1, 2#3, rd, 2#5, low mark⟩
  | .spawn rd rs1 rs2 rs3 mark => some ⟨rs3, 3#2, rs2, rs1, 2#3, rd, 2#5, low mark⟩
  | .acasV rd rs1 rs2 rs3 mark => some ⟨rs3, 0#2, rs2, rs1, 3#3, rd, 2#5, low mark⟩
  | .acasS rd rs1 rs2 rs3 mark => some ⟨rs3, 1#2, rs2, rs1, 3#3, rd, 2#5, low mark⟩
  | .ttake rd rs1 rs3 mark => some ⟨rs3, 2#2, 0#5, rs1, 3#3, rd, 2#5, low mark⟩
  | .qpush rd rs1 rs2 rs3 mark => some ⟨rs3, 3#2, rs2, rs1, 3#3, rd, 2#5, low mark⟩
  | .evstep rd rs1 rs3 mark => some ⟨rs3, 0#2, 0#5, rs1, 6#3, rd, 2#5, low mark⟩
  | .cadd scope rd rs1 rs2 mark => some ⟨0#5, scope.bits, rs2, rs1, 4#3, rd, 2#5, low mark⟩
  | .mona rd rs1 mark => some ⟨1#5, 0#2, 0#5, rs1, 4#3, rd, 2#5, low mark⟩
  | .mclr rs1 mark => some ⟨2#5, 0#2, 0#5, rs1, 4#3, 0#5, 2#5, low mark⟩
  | .join rd rs1 mark => some ⟨3#5, 0#2, 0#5, rs1, 4#3, rd, 2#5, low mark⟩
  | .leave rd rs1 mark => some ⟨4#5, 0#2, 0#5, rs1, 4#3, rd, 2#5, low mark⟩
  | .gnew rd rs1 mark => some ⟨5#5, 0#2, 0#5, rs1, 4#3, rd, 2#5, low mark⟩
  | .gfree rd rs1 mark => some ⟨6#5, 0#2, 0#5, rs1, 4#3, rd, 2#5, low mark⟩
  | .bara rd rs1 mark => some ⟨7#5, 0#2, 0#5, rs1, 4#3, rd, 2#5, low mark⟩
  | .exit rs1 mark => some ⟨8#5, 0#2, 0#5, rs1, 4#3, 0#5, 2#5, low mark⟩
  | .lda scope rd rs1 mark => some ⟨9#5, scope.bits, 0#5, rs1, 4#3, rd, 2#5, low mark⟩
  | .stl scope rs1 rs2 mark => some ⟨10#5, scope.bits, rs2, rs1, 4#3, 0#5, 2#5, low mark⟩
  | .tgive rs1 mark => some ⟨11#5, 0#2, 0#5, rs1, 4#3, 0#5, 2#5, low mark⟩
  | .tmark rs1 mark => some ⟨12#5, 0#2, 0#5, rs1, 4#3, 0#5, 2#5, low mark⟩
  | .cswap mark => some ⟨13#5, 0#2, 0#5, 0#5, 4#3, 0#5, 2#5, low mark⟩
  | .aadd scope rd rs1 rs2 mark => some ⟨0#5, scope.bits, rs2, rs1, 5#3, rd, 2#5, low mark⟩
  | .aand scope rd rs1 rs2 mark => some ⟨1#5, scope.bits, rs2, rs1, 5#3, rd, 2#5, low mark⟩
  | .aor scope rd rs1 rs2 mark => some ⟨2#5, scope.bits, rs2, rs1, 5#3, rd, 2#5, low mark⟩
  | .axor scope rd rs1 rs2 mark => some ⟨3#5, scope.bits, rs2, rs1, 5#3, rd, 2#5, low mark⟩
  | .amin scope rd rs1 rs2 mark => some ⟨4#5, scope.bits, rs2, rs1, 5#3, rd, 2#5, low mark⟩
  | .amax scope rd rs1 rs2 mark => some ⟨5#5, scope.bits, rs2, rs1, 5#3, rd, 2#5, low mark⟩
  | .aminu scope rd rs1 rs2 mark => some ⟨6#5, scope.bits, rs2, rs1, 5#3, rd, 2#5, low mark⟩
  | .amaxu scope rd rs1 rs2 mark => some ⟨7#5, scope.bits, rs2, rs1, 5#3, rd, 2#5, low mark⟩
  | .aswap scope rd rs1 rs2 mark => some ⟨8#5, scope.bits, rs2, rs1, 5#3, rd, 2#5, low mark⟩
  | .vadd ty vd vs1 vs2 m mark => some ⟨0#5, m, vs2, vs1, ty.bits, vd, 10#5, low mark⟩
  | .vsub ty vd vs1 vs2 m mark => some ⟨1#5, m, vs2, vs1, ty.bits, vd, 10#5, low mark⟩
  | .vmul ty vd vs1 vs2 m mark => some ⟨2#5, m, vs2, vs1, ty.bits, vd, 10#5, low mark⟩
  | .vmulh ty vd vs1 vs2 m mark => some ⟨3#5, m, vs2, vs1, ty.bits, vd, 10#5, low mark⟩
  | .vmadd ty vd vs1 vs2 m mark => some ⟨4#5, m, vs2, vs1, ty.bits, vd, 10#5, low mark⟩
  | .vmin ty vd vs1 vs2 m mark => some ⟨5#5, m, vs2, vs1, ty.bits, vd, 10#5, low mark⟩
  | .vmax ty vd vs1 vs2 m mark => some ⟨6#5, m, vs2, vs1, ty.bits, vd, 10#5, low mark⟩
  | .vand ty vd vs1 vs2 m mark => some ⟨7#5, m, vs2, vs1, ty.bits, vd, 10#5, low mark⟩
  | .vor ty vd vs1 vs2 m mark => some ⟨8#5, m, vs2, vs1, ty.bits, vd, 10#5, low mark⟩
  | .vxor ty vd vs1 vs2 m mark => some ⟨9#5, m, vs2, vs1, ty.bits, vd, 10#5, low mark⟩
  | .vsll ty vd vs1 vs2 m mark => some ⟨10#5, m, vs2, vs1, ty.bits, vd, 10#5, low mark⟩
  | .vsrl ty vd vs1 vs2 m mark => some ⟨11#5, m, vs2, vs1, ty.bits, vd, 10#5, low mark⟩
  | .vsra ty vd vs1 vs2 m mark => some ⟨12#5, m, vs2, vs1, ty.bits, vd, 10#5, low mark⟩
  | .vcmpeq ty md vs1 vs2 m mark => some ⟨13#5, m, vs2, vs1, ty.bits, 0#2 ++ md, 10#5, low mark⟩
  | .vcmplt ty md vs1 vs2 m mark => some ⟨14#5, m, vs2, vs1, ty.bits, 0#2 ++ md, 10#5, low mark⟩
  | .vcmple ty md vs1 vs2 m mark => some ⟨15#5, m, vs2, vs1, ty.bits, 0#2 ++ md, 10#5, low mark⟩
  | .vsel ty vd vs1 vs2 m mark => some ⟨16#5, m, vs2, vs1, ty.bits, vd, 10#5, low mark⟩
  | .vcvt ty dty rm vd vs1 m mark => some ⟨17#5, m, rm.bits ++ dty.bits, vs1, ty.bits, vd, 10#5, low mark⟩
  | .vnrw ty rm vd vs1 m mark => some ⟨18#5, m, rm.bits ++ 0#3, vs1, ty.bits, vd, 10#5, low mark⟩
  | .vwid ty vd vs1 m mark => some ⟨19#5, m, 0#5, vs1, ty.bits, vd, 10#5, low mark⟩
  | .vrsum ty vd vs1 m mark => some ⟨20#5, m, 0#5, vs1, ty.bits, vd, 10#5, low mark⟩
  | .vrmax ty vd vs1 m mark => some ⟨21#5, m, 0#5, vs1, ty.bits, vd, 10#5, low mark⟩
  | .vrmin ty vd vs1 m mark => some ⟨22#5, m, 0#5, vs1, ty.bits, vd, 10#5, low mark⟩
  | .vperm ty vd vs1 vs2 m mark => some ⟨23#5, m, vs2, vs1, ty.bits, vd, 10#5, low mark⟩
  | .vdot vd vs1 vs2 m mark => some ⟨24#5, m, vs2, vs1, 0#3, vd, 10#5, low mark⟩
  | .vpopc ty vd vs1 m mark => some ⟨25#5, m, 0#5, vs1, ty.bits, vd, 10#5, low mark⟩
  | .vlut ty vd vs1 m mark => some ⟨26#5, m, 0#5, vs1, ty.bits, vd, 10#5, low mark⟩
  | .vabs ty vd vs1 m mark => some ⟨27#5, m, 0#5, vs1, ty.bits, vd, 10#5, low mark⟩
  | .vsplat ty vd rs1 m mark => some ⟨28#5, m, 0#5, rs1, ty.bits, vd, 10#5, low mark⟩
  | .vext ty rd vs1 lane mark => some ⟨29#5, 0#2, lane, vs1, ty.bits, rd, 10#5, low mark⟩
  | .vins ty vd rs1 lane mark => some ⟨30#5, 0#2, lane, rs1, ty.bits, vd, 10#5, low mark⟩
  | .scmac ty vd rs1 rs2 m mark => some ⟨31#5, m, rs2, rs1, ty.bits, vd, 10#5, low mark⟩
  | .vld ty vd rs1 m mark => some ⟨0#5, m, 0#5, rs1, ty.bits, vd, 22#5, low mark⟩
  | .vst ty vs rs1 m mark => some ⟨1#5, m, 0#5, rs1, ty.bits, vs, 22#5, low mark⟩
  | .vlds ty vd rs1 rs2 m mark => some ⟨2#5, m, rs2, rs1, ty.bits, vd, 22#5, low mark⟩
  | .vsts ty vs rs1 rs2 m mark => some ⟨3#5, m, rs2, rs1, ty.bits, vs, 22#5, low mark⟩
  | .vldx ty vd rs1 vk m mark => some ⟨4#5, m, vk, rs1, ty.bits, vd, 22#5, low mark⟩
  | .vstx ty vs rs1 vk m mark => some ⟨5#5, m, vk, rs1, ty.bits, vs, 22#5, low mark⟩
  | .vldb ty vd rs1 m mark => some ⟨6#5, m, 0#5, rs1, ty.bits, vd, 22#5, low mark⟩
  | .sbind ty n rs1 mark => some ⟨7#5, 0#2, 0#5, rs1, ty.bits, 3#2 ++ n, 22#5, low mark⟩
  | .sunb n mark => some ⟨8#5, 0#2, 0#5, 0#5, 0#3, 3#2 ++ n, 22#5, low mark⟩
  | .sstat rd n mark => some ⟨9#5, 0#2, 3#2 ++ n, 0#5, 0#3, rd, 22#5, low mark⟩
  | .mldm md rs1 mark => some ⟨10#5, 0#2, 0#5, rs1, 0#3, 0#2 ++ md, 22#5, low mark⟩
  | .mstm ms rs1 mark => some ⟨11#5, 0#2, 0#5, rs1, 0#3, 0#2 ++ ms, 22#5, low mark⟩
  | .mand md ma mb mark => some ⟨12#5, 0#2, 0#2 ++ mb, 0#2 ++ ma, 0#3, 0#2 ++ md, 22#5, low mark⟩
  | .mor md ma mb mark => some ⟨13#5, 0#2, 0#2 ++ mb, 0#2 ++ ma, 0#3, 0#2 ++ md, 22#5, low mark⟩
  | .mxor md ma mb mark => some ⟨14#5, 0#2, 0#2 ++ mb, 0#2 ++ ma, 0#3, 0#2 ++ md, 22#5, low mark⟩
  | .mnot md ma mark => some ⟨15#5, 0#2, 0#5, 0#2 ++ ma, 0#3, 0#2 ++ md, 22#5, low mark⟩
  | .mpopc rd ma mark => some ⟨16#5, 0#2, 0#5, 0#2 ++ ma, 0#3, rd, 22#5, low mark⟩
  | .mfirst rd ma mark => some ⟨17#5, 0#2, 0#5, 0#2 ++ ma, 0#3, rd, 22#5, low mark⟩
  | .mset md rs1 mark => some ⟨18#5, 0#2, 0#5, rs1, 0#3, 0#2 ++ md, 22#5, low mark⟩
  | .sdstep vs rs1 mark => some ⟨19#5, 0#2, 0#5, rs1, 1#3, vs, 22#5, low mark⟩
  | .evsend rd rs1 rs2 mark => some ⟨20#5, 0#2, rs2, rs1, 0#3, rd, 22#5, low mark⟩
  | .mma rd rs1 rs2 mark => some ⟨0#5, 0#2, rs2, rs1, 0#3, rd, 30#5, low mark⟩
  | .mmaBs rd rs1 rs2 mark => some ⟨0#5, 1#2, rs2, rs1, 0#3, rd, 30#5, low mark⟩
  | .mlut rd rs1 rs2 mark => some ⟨0#5, 2#2, rs2, rs1, 0#3, rd, 30#5, low mark⟩
  | .mbin rd rs1 rs2 mark => some ⟨0#5, 3#2, rs2, rs1, 0#3, rd, 30#5, low mark⟩
  | .mzero rd rs1 rs2 mark => some ⟨1#5, 0#2, rs2, rs1, 0#3, rd, 30#5, low mark⟩
  | .mlda rd rs1 rs2 mark => some ⟨1#5, 1#2, rs2, rs1, 0#3, rd, 30#5, low mark⟩
  | .msta rd rs1 rs2 mark => some ⟨1#5, 2#2, rs2, rs1, 0#3, rd, 30#5, low mark⟩
  | .tcfg rd rs1 rs2 mark => some ⟨1#5, 3#2, rs2, rs1, 0#3, rd, 30#5, low mark⟩
  | .trel rd rs1 rs2 mark => some ⟨2#5, 0#2, rs2, rs1, 0#3, rd, 30#5, low mark⟩
  | .mteam rd rs1 rs2 mark => some ⟨2#5, 1#2, rs2, rs1, 0#3, rd, 30#5, low mark⟩
  | .copy1 rd rs1 rs2 mark => some ⟨0#5, 0#2, rs2, rs1, 1#3, rd, 30#5, low mark⟩
  | .copy2 rd rs1 rs2 mark => some ⟨0#5, 1#2, rs2, rs1, 1#3, rd, 30#5, low mark⟩
  | .copyx rd rs1 rs2 mark => some ⟨0#5, 2#2, rs2, rs1, 1#3, rd, 30#5, low mark⟩
  | .cfill rd rs1 rs2 mark => some ⟨0#5, 3#2, rs2, rs1, 1#3, rd, 30#5, low mark⟩
  | .qnt8 rd rs1 rs2 mark => some ⟨0#5, 0#2, rs2, rs1, 2#3, rd, 30#5, low mark⟩
  | .qs2p rd rs1 rs2 mark => some ⟨0#5, 1#2, rs2, rs1, 2#3, rd, 30#5, low mark⟩
  | .dqnt rd rs1 rs2 mark => some ⟨0#5, 2#2, rs2, rs1, 2#3, rd, 30#5, low mark⟩
  | .cred rd rs1 rs2 mark => some ⟨0#5, 0#2, rs2, rs1, 3#3, rd, 30#5, low mark⟩
  | .cbcast rd rs1 rs2 mark => some ⟨0#5, 1#2, rs2, rs1, 3#3, rd, 30#5, low mark⟩
  | .cagath rd rs1 rs2 mark => some ⟨0#5, 2#2, rs2, rs1, 3#3, rd, 30#5, low mark⟩
  | .sdcfg rd rs1 rs2 mark => some ⟨0#5, 0#2, rs2, rs1, 4#3, rd, 30#5, low mark⟩
  | .sdrst rd rs1 rs2 mark => some ⟨0#5, 1#2, rs2, rs1, 4#3, rd, 30#5, low mark⟩
  | .shoot _ => none
  | .wake _ => none
  | .move _ => none
  | .commandStart _ _ => none
  | .commandCompletion _ => none
  | .commandDeadline _ => none
  | .blockRetire _ _ => none
  | .breakpointTrap _ _ => none
  | .longResultReturn _ _ _ _ => none
  | .storeAcceptance _ _ => none
  | .storePerform _ => none
  | .ltbExpiry _ _ => none
  | .replyArrival _ => none
  | .waitConditionMet _ => none
  | .waitDeadlineExpiry _ => none
  | .timeoutWindowBoundary _ => none
  | .hangReportA _ _ => none
  | .hangReportB _ _ => none
  | .clockGate _ => none
  | .powerGate _ _ => none
  | .coreWake _ => none
  | .followMove _ _ => none
  | .postedFaultReport _ => none
  | .hostCounterPoll _ => none
  | .streamDataReady _ _ _ => none
  | .streamDeadline _ _ => none
  | .streamContextDrain _ => none
  | .evcfgWrite _ _ => none
  | .eventPacketArrival _ => none
  | .packetAck _ => none
  | .packetNack _ => none
  | .markerResend _ => none
  | .stepMarkerSend _ _ => none
  | .queueRegister _ _ _ => none
  | .queueKick _ _ => none
  | .packetReread _ _ => none
  | .queueStale _ _ => none
  | .preconditionMet _ _ => none
  | .holdDeadline _ _ => none
  | .kernelPlacement _ _ => none
  | .imageLoad _ => none
  | .startMessage _ _ => none
  | .queueResume _ _ => none
  | .poolDispatch _ => none
  | .kernelEndSequence _ => none
  | .kernelEnding _ => none
  | .contextDescriptorWrite _ _ _ => none
  | .contextKill _ => none
  | .collectiveAbort _ _ => none
  | .preempt _ _ => none
  | .preemptionTrap _ _ => none
  | .migrate _ _ _ => none
  | .migrationTrap _ _ => none
  | .migrationForceExpiry _ _ => none
  | .spill _ _ => none
  | .spillDone _ _ => none
  | .fill _ _ => none
  | .fillDone _ _ => none
  | .swapin _ _ => none
  | .resume _ _ => none
  | .reportPost => none
  | .remapGo _ => none
  | .remapMoveComplete => none
  | .pageWalk _ _ _ _ => none
  | .ringClockChange _ => none
  | .clockStallComplete => none
  | .jorraxPortUp _ _ _ => none
  | .jorraxPortDown _ => none
  | .jorraxFlitReceive _ _ _ => none
  | .jorraxAck _ _ => none
  | .jorraxNak _ _ => none
  | .jorraxReplayTimeout _ => none
  | .keySlotWrite _ _ _ _ => none
  | .keySwitch _ => none
  | .remoteAccess _ _ _ _ _ => none
  | .timeSyncExchange _ _ => none
  | .timeSyncLoss => none
  | .counterWindowWrite _ _ _ => none
  | .hostMemoryAccess _ _ _ _ => none
  | .waisarReading _ => none
  | .waisarVersionOffer _ _ => none
  | .telemetryLoss => none
  | .shedForceExpiry => none
  | .restoreHoldExpiry => none
  | .powerWindowEnd _ _ => none
  | .overcapEnd => none
  | .droopDetect _ => none
  | .canaryWarning _ => none
  | .canaryStepDown _ => none
  | .sensorRead _ _ => none
  | .thermalClockStep => none
  | .samplingPulse => none
  | .moduleReset _ => none
  | .firmwareVerify _ _ => none
  | .linkBringup _ => none
  | .supervisorVerify _ => none
  | .attestationRequest _ => none
  | .registerWrite _ _ => none
  | .illegalInstruction _ => none
  | .instructionFetchFault => none
  | .softError _ => none
  | .clusterPairCurrentSample _ _ _ _ => none
  | .rackBusOutOfRange _ => none

/-- The word of an instruction (R21 to R32). -/
def encode (i : Instr) : Option IWord := (encodeRaw i).map joinWord

/-- A 32-bit word from four bytes, the first in the lowest bits (R2, R21: little-endian). -/
def wordOfBytes (b0 b1 b2 b3 : Byte) : IWord := b3 ++ b2 ++ b1 ++ b0

/-- The byte at offset `n` of a word stored little-endian (R21). -/
def byteOfWord (w : IWord) (n : Nat) : Byte := w.extractLsb' (8 * n) 8

/-- The instruction the decoder reads from the bytes of a word (R21). -/
def decodeBytes (b0 b1 b2 b3 : Byte) : Option Instr := decode (wordOfBytes b0 b1 b2 b3)

/-- The instruction the decoder reads from a word of the opcode table, numbered as the table numbers its bits. Every word
of this part is 32 bits, one table word, little-endian (R21), so a shorter row's further bits are 0. -/
def decodeTableWord (nbits w : Nat) : Option Instr :=
  let v : IWord := BitVec.ofNat 32 (w % 2 ^ nbits)
  decodeBytes (byteOfWord v 0) (byteOfWord v 1) (byteOfWord v 2) (byteOfWord v 3)

end Sys2Proof
end

