-- ==== Sys2Proof/Machine/State.lean ====
section
/-!
DEFINITION. Sys2Proof/Machine/State.lean: everything the spec gives the machine, as plain data, and the state after reset.
Sparse stores are lists of key and value with the keys rising; an absent key stands for the reset contents.
-/
namespace Sys2Proof.Machine

/-- A sparse store: keys rising, an absent key standing for the reset contents. -/
abbrev AMap (α : Type) := List (Nat × α)

/-- A trap to be taken (R294): cause, detail, tval. -/
structure Trap where
  cause  : Nat
  detail : Nat
  val    : Word
  deriving DecidableEq, Repr

/-- A CSR write held in the block result buffer (R67, R97): write, set or clear bits. -/
inductive CsrOp where
  | write (v : Word)
  | set (v : Word)
  | clear (v : Word)
  deriving DecidableEq, Repr

/-- What an accepted store does at its home (R68, R120, R143, R149). -/
inductive StoreOp where
  | write
  | cadd
  | atomic (op : Nat)
  deriving DecidableEq, Repr

/-- One access of a held store (R67): virtual address, size in bytes, bytes as a number, and what it
does there: a posted atomic is presented like a store (R143, R149). -/
structure StoreElem where
  va   : Nat
  size : Nat
  val  : Nat
  op   : StoreOp
  deriving DecidableEq, Repr

/-- Where one instruction of a block stands (R67, R68): its results are ready; it waits for a long result; it faulted. -/
inductive EState where
  | done
  | sent
  | faulted (t : Trap)
  deriving DecidableEq, Repr

/-- One access of a load (R67): the register-file lanes it fills, as a mask (R173), virtual address, size, its value once
returned, and where its station translated it to when it was sent (R316). -/
structure LoadElem where
  lanes : Nat
  va   : Nat
  size : Nat
  got  : Option Nat
  pin  : Option Nat
  deriving DecidableEq, Repr

/-- What the values of a load's accesses become when all have returned: nothing; an x register of a size, sign-extended or
not (R91); the lanes of a vector register (R173); a mask register (R175). -/
inductive LoadPost where
  | none
  | x (rd : Reg) (size : Nat) (signed : Bool)
  | v (vd : Reg) (width : Nat)
  | m (md : BitVec 3)
  /-- The lanes appended to write stream `j` (R178). -/
  | app (j : Nat) (width : Nat)
  deriving DecidableEq, Repr

/-- A held register write (R66, R67): register, value, and whether it is short. -/
structure XWrite where
  reg   : Reg
  val   : Word
  short : Bool
  deriving DecidableEq, Repr

/-- A held vector write (R159): register, the bits it writes, their values. -/
structure VWrite where
  reg  : Reg
  bits : Vec
  val  : Vec
  deriving DecidableEq, Repr

/-- A held mask write: register, the bits it writes, their values. -/
structure MWrite where
  reg  : BitVec 3
  bits : Mask
  val  : Mask
  deriving DecidableEq, Repr

/-- A presented store or atomic (R68, R174, R316): when it was presented; the latest E of the matrix commands whose locks
have delayed it so far (R136); the first identity given after its translations were pinned; where the accesses translated
then go; whether every access has passed the checks of R174's first step. -/
structure Presented where
  since   : Nat
  bound   : Nat
  mark    : Nat
  pins    : List (Option Nat)
  checked : Bool
  deriving DecidableEq, Repr

/-- How far the walk has brought a store or deferred instruction (R68, R174): untouched; presented to its targets and
waiting for acceptance; its request held at a moving vcore (R307), or on its way to another package since a time (R325); its
result back. -/
inductive Phase where
  | fresh
  | presented (p : Presented)
  | asked (since : Nat)
  | accepted
  | held
  deriving DecidableEq, Repr

/-- One instruction of a switch block, with what R67 holds for it and the operands it read at issue (R66). `deferred`: the
walk still has to perform it; `stores` the accesses the walk still has to present. -/
structure Entry where
  pc    : Word
  ins   : Instr
  ops   : List Word
  vops  : List Vec
  st    : EState
  xw    : List XWrite
  vw    : List VWrite
  mw    : List MWrite
  flags : Nat
  csr   : Option (BitVec 12 × CsrOp)
  pops  : List Nat
  app   : List (Nat × Vec)
  loads : List LoadElem
  post  : LoadPost
  stores : List StoreElem
  deferred : Bool
  phase : Phase
  sentAt : Nat
  /-- E, poll and ceiling of a wait whose request is held at a moving vcore, as its walk began it (R104, R307). -/
  begun : Option (Nat × Bool × Bool)
  deriving DecidableEq, Repr

/-- A change the machine made to a thread's state in an ac (R71, R97): what a counting CSR held before; a reply filled a
register, a CSR counted one more, or some bits of a CSR were set or replaced. -/
inductive HwChange where
  | base (csr : Nat) (val : Word)
  | filled (r : Reg)
  | counted (csr : Nat)
  | orBits (csr : Nat) (bits : Word)
  | put (csr : Nat) (val : Word)
  deriving DecidableEq, Repr

/-- The engines of R213. -/
inductive Eng where
  | matrix (v : Nat)
  | copy (v : Nat)
  | ladle (cluster : Nat)
  | collective (io : Nat)
  | sdu (v : Nat)
  | stations
  deriving DecidableEq, Repr

/-- Whom a release covers (R118, R123): its scope, the thread that made it, that thread's compute die, and the members of its
groups at that instant (R258). -/
structure Cover where
  scope   : Scope
  tid     : Nat
  die     : Nat
  members : List Nat
  deriving DecidableEq, Repr

/-- What a parked thread waits for (R64, R105). -/
inductive WaitKind where
  /-- CWAIT (R145): location and target. -/
  | counter (loc : Nat) (va : Word) (target : Word)
  /-- LWAIT (R152): location and compare value. -/
  | word (loc : Nat) (va : Word) (cmp : Word)
  /-- BARW (R264), or BARX (R266) where `arrive` is false: group key, and the phase it waits for, none once its thread has left
  the group and with it its arrival (R267). -/
  | barrier (key : Nat) (phase : Option Nat) (arrive : Bool)
  /-- RECV (R202): the vcore of the inbox it registered at, and the class mask. -/
  | recv (v : Nat) (mask : Nat)
  /-- MWAIT (R155). -/
  | monitor
  /-- FENCEW (R130): scope and class mask, the stores, commands and appends (stream and position, R180) it waits for. -/
  | fence (scope : Scope) (mask : Nat) (stores : List Nat) (cmds : List Nat) (apps : List (Nat × Nat))
  /-- IFENCEW (R138): the accepted I-store writes it waits for. -/
  | ifence (stores : List Nat)
  /-- SPAWN (R285): rs1v and the argument. -/
  | spawn (flags : Word) (arg : Word)
  /-- TTAKE (R220): tile number within the package. -/
  | ttake (tile : Nat)
  /-- XCMD or QPUSH awaiting a queue entry (R209, R212): the command as it would be placed, with mfmt and mscl as they were
  (R234). -/
  | place (push : Bool) (body : List Word) (v : Nat) (eng : Eng) (op : Nat) (mfmt mscl : Word)
  /-- EVSTEP (R201): the vcore of the SDU, the range and the closed step. -/
  | evstep (v : Nat) (range : Nat) (step : Nat)
  /-- An empty reply register (R71). -/
  | reply (reg : Reg)
  /-- A pop or append of a stream register (R179), or SUNB's wait (R176). -/
  | stream (j : Nat)
  /-- A light thread held after a recoverable trap (R297). -/
  | light
  deriving DecidableEq, Repr

/-- How a wait was decided (R105, R107): when, the code, detail and aux of its status, and the value beside it. -/
structure Verdict where
  tm     : Nat
  code   : Nat
  detail : Nat
  aux    : Nat
  val    : Word
  deriving DecidableEq, Repr

/-- A pending wait (R104, R105): its condition, status register, effective deadline, whether it is a poll, whether the
ceiling set E, its verdict once the home has decided, and its place in the order of registration (R202). -/
structure PWait where
  kind    : WaitKind
  rd      : Reg
  deadline : Nat
  poll    : Bool
  ceil    : Bool
  verdict : Option Verdict
  order  : Nat
  deriving DecidableEq, Repr

/-- A wait left registered while a handler runs (R295): the level it was taken at, the wait, and its instruction. -/
structure Suspended where
  level : Nat
  wait  : PWait
  block : List Entry
  deriving DecidableEq, Repr

/-- A trap bank (R296). -/
structure TrapBank where
  cause : Word
  epc   : Word
  val   : Word
  stat  : Word
  deriving DecidableEq, Repr

/-- The state of a monitor entry (R153), with the watched line. -/
inductive MonSt where
  | free
  | quiet (line : Nat) (va : Nat)
  | written (line : Nat) (va : Nat)
  | lost (line : Nat) (va : Nat)
  deriving DecidableEq, Repr

/-- One vector a read stream delivers (R178 to R180): its data, the fault it took, and whether it is the POISON vector of a
deadline that passed. -/
structure StreamVec where
  pos   : Nat
  vec   : Vec
  fault : Option Trap
  late  : Bool
  deriving DecidableEq, Repr

/-- A bound stream register (R176 to R181): element type and descriptor, the committed position, the position the next
pop or append takes, vectors kept until their pops commit, vectors fetched ahead, appends not yet accepted with the PC and
the L of each. -/
structure Stream where
  ty       : VType
  append   : Bool
  indirect : Bool
  base     : Word
  index    : Word
  s1       : Word
  s2       : Word
  n1       : Nat
  n2       : Nat
  dl       : Word
  pos      : Nat
  cur      : Nat
  kept     : List StreamVec
  ready    : List StreamVec
  buf      : List (Nat × Vec × Word × Nat)
  deriving DecidableEq, Repr

/-- Run states of R64 that a thread carries itself; Empty is no thread, Shed is `Thread.shed`, Swapped is its place. -/
inductive Run where
  | ready
  | block
  | wait
  deriving DecidableEq, Repr

/-- Where a thread is (R64, R300): in a slot; in the chrysalis bank of a slot; only in a save record, with the slot it
left; between two cores. -/
inductive Place where
  | slot (v s : Nat)
  | bank (v s : Nat)
  | record (v s : Nat) (pa : Nat)
  deriving DecidableEq, Repr

/-- A thread and all the state it owns (R62, R79, R303). `preempt`, `migrate` and `shedReq` are requests still to be taken
(R302, R305, R341): a migration as its detail, the time from which it is taken at the next point, and whether a barrier
completion takes it before; a shed as the time from which it is taken. `mprogOf` is the command that mprog describes (R243),
`saved` the save record with a copy of the thread (R300), `pcoreAt` the physical core it last ran on (R157), `escDue` the
window count of a wait-escalation trap still to be taken (R110), `issuedAt` the ac after that of its last issue, 0 before any (R348), `hw` what the
machine changed in the ac `hwAc` (R71, R97), `followTo` the cluster a follow thread moves to once its block has retired
(R73), `image` what its save record was last written with (R303), `fences` the release fences that its next store completes
(R131). -/
structure Thread where
  place : Place
  run   : Run
  shed  : Bool
  light : Bool
  ctx   : Nat
  cls   : Nat
  kernel : Option Nat
  follow : Bool
  pc    : Word
  x     : List Word
  v     : List Vec
  m     : List Mask
  sup   : Bool
  level : Nat
  vflags : Word
  lutb  : Word
  mfmt  : Word
  mscl  : Word
  mprog : Word
  mprogOf : Option Nat
  sdcnt : Word
  sbstat : Word
  rdrop : Word
  tmocnt : Word
  tmolim : Word
  wceil : Word
  tvec  : Word
  bank0 : TrapBank
  bank1 : TrapBank
  empty : List (Option Nat)
  winCount : Nat
  winIdx : Nat
  block : List Entry
  issued : Nat
  walking : Bool
  snap  : List (Nat × Word)
  wait  : Option PWait
  susp  : List Suspended
  mon   : List MonSt
  moveSpur : Bool
  streams : List (Option Stream)
  logical : Nat
  bpIgnore : Option Word
  preempt : Bool
  migrate : Option (Nat × Nat × Bool)
  migrating : Bool
  shedReq : Option Nat
  parkedAt : Nat
  reportedA : Bool
  reportedB : Bool
  stale : List (Nat × IWord)
  saved : Option Nat
  pcoreAt : Nat
  escDue : Option Nat
  issuedAt : Nat
  hwAc : Nat
  hw : List HwChange
  followTo : Option Nat
  image : List (List Nat)
  fences : List Cover
  deriving DecidableEq, Repr

/-- How far an accepted store has come (R120, R122, R325, R327): still in its buffer; on its way to its home; in a message of a
port to another package; acknowledged there. -/
inductive StoreSt where
  | buffered
  | out
  | sent (port : Nat)
  | delivered
  deriving DecidableEq, Repr

/-- An accepted and pinned store or posted atomic that has not been performed (R68, R120, R132); `tid` is the command's
number where an engine made it, `pinned` an identity older than which its translation is (R316), `rel` what it releases
(R123, R131). -/
structure PStore where
  id     : Nat
  tid    : Nat
  kernel : Option Nat
  ctx    : Nat
  v      : Nat
  loc    : Nat
  va     : Nat
  size   : Nat
  val    : Nat
  op     : StoreOp
  pc     : Word
  accepted : Nat
  logical : Nat
  st     : StoreSt
  pinned : Nat
  rel    : List Cover
  deriving DecidableEq, Repr

/-- The states of a command (R214). -/
inductive CmdSt where
  | queued
  | running
  | paused (va : Nat)
  | completing
  deriving DecidableEq, Repr

/-- A command in an engine's queue (R206 to R217). `body` is its eight doublewords; `v` the vcore whose windows its
addresses are relative to; `deadline` its E; `units` the whole units done; `code` and `detail` its status as it will be
given; `poison` data it read failed its check; `tid` and `reg` where its reply goes; `spads` the scratchpad tiles it names;
`told` the report of its pause has been posted; `added` its completion add is on its way to its home (R217). -/
structure Cmd where
  id    : Nat
  eng   : Eng
  op    : Nat
  v     : Nat
  ctx   : Nat
  sup   : Bool
  kernel : Option Nat
  tid   : Nat
  push  : Bool
  cls   : Nat
  body  : List Word
  reg   : Option Reg
  deadline : Nat
  mfmt  : Word
  mscl  : Word
  st    : CmdSt
  units : Nat
  code  : Option Nat
  detail : Nat
  poison : Bool
  spads : List Nat
  told  : Bool
  added : Bool
  logical : Nat
  deriving DecidableEq, Repr

/-- A reply on its way to its register (R71). -/
structure Reply where
  id     : Nat
  tid    : Nat
  reg    : Reg
  status : Word
  deriving DecidableEq, Repr

/-- An accumulator tile that is not Free (R228): kind, context, lead vcore, its 256 elements. -/
structure Tile where
  kind : Nat
  ctx  : Nat
  lead : Nat
  el   : List (BitVec 32)
  deriving DecidableEq, Repr

/-- A destination of an SDU range (R186). -/
structure Dest where
  valid : Bool
  vcore : Nat
  index : Nat
  ctr   : Nat
  deriving DecidableEq, Repr

/-- An SDU range (R183, R185). -/
structure Range where
  enabled : Bool
  base  : Nat
  count : Nat
  shift : Nat
  channel : Nat
  cls   : Nat
  dests : List Dest
  parity : Nat
  cur   : Nat
  deriving DecidableEq, Repr

/-- A closed step that is not Done (R185, R201): its number, parity, packets refused, whether it is Marking, and the L of the
EVSTEP that closed it (R364). -/
structure SdStep where
  range  : Nat
  num    : Nat
  parity : Nat
  nacked : Nat
  marking : Bool
  logical : Nat
  deriving DecidableEq, Repr

/-- The SDU of a vcore (R183): owner, ranges, slots that differ from reset (threshold and the four sent values), closed
steps, and the packets refused in each open step. -/
structure Sdu where
  owner  : Option Nat
  ranges : List Range
  slots  : AMap (Nat × List Int)
  steps  : List SdStep
  openNacks : List Nat
  deriving DecidableEq, Repr

/-- Where a packet came from (R198 to R201): an SDSTEP lane, an EVSEND, a step marker, or a marker of a context that was killed
since (R199). -/
inductive Origin where
  | sdstep (slot dest : Nat) (amount : Int) (range step : Nat)
  | evsend (tid : Nat)
  | marker (range step dest : Nat)
  | orphan (range : Nat)
  deriving DecidableEq, Repr

/-- A packet in flight, or its settlement on the way back (R197, R198): `answer` is none before it arrives, true for an
acknowledgement, false for a refusal; `resend` marks a refused marker waiting to be sent again (R199); `logical` its L
(R364). -/
structure Packet where
  id   : Nat
  src  : Nat
  dst  : Nat
  ctx  : Nat
  word : Word
  from_ : Origin
  answer : Option Bool
  resend : Bool
  sentAt : Nat
  logical : Nat
  deriving DecidableEq, Repr

/-- An inbox (R194): evcfg, owner context, owner kernel, the four class queues of packets and markers. -/
structure Inbox where
  evcfg : Word
  owner : Option Nat
  ownerK : Option Nat
  q     : List (List Word)
  deriving DecidableEq, Repr

/-- The chrysalis bank of a full slot (R300); the context a bank holds is the thread whose place is that bank. -/
inductive BankSt where
  | empty
  | unsaved
  | saved
  | spilling (since pa : Nat)
  | filling (tid : Nat) (since : Nat)
  deriving DecidableEq, Repr

/-- A breakpoint register (R361) is kept as its word. The rest is a vcore's own state: hang thresholds (R112), step
registers, bank states and save addresses (R302), arbiter turns (R75), gating and the ac since which every slot has been idle (R113, R351), the supervisor stub lost by a
third-level reset and the bytes of it written again since (R298), resident stream contexts least recent first (R181), the ac
of the core's last reset (R78). -/
structure VCore where
  hangA : Word
  hangB : Word
  bps   : List Word
  steps : List Word
  banks : List BankSt
  saveAddr : List Word
  prioLast : Nat
  rrLast : Nat
  prioWin : Nat
  prioCount : Nat
  clockGated : Bool
  powerGated : List Nat
  idleSince : Option Nat
  stubLost : Bool
  stubBack : List Nat
  resident : List Nat
  acBase : Nat
  deriving DecidableEq, Repr

/-- A line of an L1 data cache that need not equal memory (R117): the core, context, virtual line, physical line, bytes. -/
structure L1Line where
  v    : Nat
  ctx  : Nat
  va   : Nat
  line : Nat
  data : List Byte
  deriving DecidableEq, Repr

/-- A translation a station holds (R312): station, context, first virtual address, size of its page, the leaf. -/
structure TlbEntry where
  st   : Nat
  ctx  : Nat
  va   : Nat
  size : Nat
  leaf : Word
  deriving DecidableEq, Repr

/-- The states of a kernel (R280); Placing is its packet's Holding, Ended is its absence. -/
inductive KSt where
  | loading
  | running
  | draining
  | faulting
  | ending
  deriving DecidableEq, Repr

/-- One core of a kernel (R282, R283): vcore, its slots with their thread numbers, I-store and TCM shares, whether its
start message was delivered. -/
structure KCore where
  v     : Nat
  slots : List (Nat × Nat)
  istBase : Nat
  istSize : Nat
  tcmBase : Nat
  tcmSize : Nat
  started : Bool
  deriving DecidableEq, Repr

/-- A kernel from placement to its end (R275, R280 to R288), with the descriptor and registration of the queue it came by.
`out` counts its accepted stores homed outside its die set
(R139). -/
structure Kernel where
  ctx   : Nat
  cls   : Nat
  st    : KSt
  packet : List Word
  desc  : List Word
  io    : Nat
  q     : Nat
  inst  : Nat
  k     : Nat
  cores : List KCore
  runs  : List (Nat × Nat)
  imageLoaded : Bool
  status : Option Word
  cause : Nat
  out   : Nat
  deriving DecidableEq, Repr

/-- The states of a queue (R278); Disabled is its absence. -/
inductive QSt where
  | idle
  | reading
  | holding
  | stale (detail : Nat)
  | halted
  deriving DecidableEq, Repr

/-- A registered queue (R273, R277): descriptor, state, packets taken, the published counts it has learned of with their
times, when its next packet was last read, whether a read of its slot, or the translations of its hold, have translated, the packet in Holding and its hold
deadline, whether the precondition is met and where its home registers it, an address whose translation was reported, a halt that waits
for the packet in Holding, and the number of its registration. -/
structure Queue where
  desc  : List Word
  st    : QSt
  taken : Nat
  pubs  : List (Nat × Nat)
  lastRead : Option Nat
  translated : Bool
  packet : List Word
  hold  : Nat
  preMet : Bool
  preLoc : Option Nat
  told  : Option Nat
  haltDue : Bool
  inst  : Nat
  deriving DecidableEq, Repr

/-- A context descriptor (R290) and whether its kill sequence runs (R304). -/
structure Context where
  desc  : List Word
  killing : Bool
  deriving DecidableEq, Repr

/-- An entry of a light-thread pool (R285, R286). -/
structure PoolEntry where
  entry  : Nat
  arg    : Word
  follow : Bool
  cls    : Nat
  kernel : Option Nat
  core   : Nat
  ctx    : Nat
  deriving DecidableEq, Repr

/-- The arrival state of a member (R261). -/
inductive Arrival where
  | idle
  | arrived
  | passed (phase : Nat)
  deriving DecidableEq, Repr

/-- A member of a group (R251, R256). -/
structure Member where
  idx : Nat
  tid : Nat
  arr : Arrival
  deriving DecidableEq, Repr

/-- A group slot (R250, R252, R260): generation; when Active its class, kernel, context, members and phase number. -/
structure Group where
  gen   : Nat
  active : Bool
  cls   : Nat
  kernel : Option Nat
  ctx   : Nat
  members : List Member
  phase : Nat
  deriving DecidableEq, Repr

/-- An access held at a moving vcore, in the order it arrived (R307); a store is named, and waits in the store buffer. -/
inductive Held where
  | store (id : Nat)
  | load (tid idx : Nat)
  | deferred (tid : Nat)
  deriving DecidableEq, Repr

/-- A running vcore move (R306): the vcore, its partner or none for the spare, and when it started. -/
structure Move where
  va : Nat
  vb : Option Nat
  since : Nat
  deriving DecidableEq, Repr

/-- Reports of the report ring (R293): kind (1 hang, 2 migration request, 3 translation fault of an engine command or queue
processor, 4 trap of a light thread, 5 third-level reset), cause or park class, the vcore, slot and context concerned, PC
or address, value, time. -/
structure Report where
  kind : Nat
  cause : Nat
  v    : Nat
  slot : Nat
  ctx  : Nat
  pc   : Word
  val  : Word
  time : Nat
  deriving DecidableEq, Repr

/-- A message of this package to another (R325, R328): an accepted store by its number, a read of a load, atomic or engine
by the thread or command that made it, or the answer to an access of theirs, poisoned or with its value, or
its refusal. -/
inductive JMsg where
  | store (id : Nat)
  | read (who loc size : Nat)
  | answer (poisoned : Bool) (val : Nat)
  | refusal
  deriving DecidableEq, Repr

/-- An unacknowledged flit of the replay buffer (R325): the flit as first sent, when it was last sent, the message in it. -/
structure Sent where
  flit : Flit
  at_  : Nat
  msg  : JMsg
  deriving DecidableEq, Repr

/-- A Jorrax port (R323 to R326): the peer's package and port numbers (R324), messages waiting for room in the replay buffer,
the ACK and NAK flits it has answered with and how many since Up, `rolling` after a key switch until the old key is erased, `rxSlot` the slot of
the last flit accepted, `rxRolling` a new receive key written since. -/
structure Port where
  up     : Bool
  ver    : Nat
  peer   : BitVec 16
  peerPort : BitVec 8
  txSeq  : Nat
  rxSeq  : Nat
  outq   : List JMsg
  replay : List Sent
  ctl    : List Flit
  ctlSeq : Nat
  fails  : Nat
  txKeys : List (Option Nat)
  rxKeys : List (Option Nat)
  txSlot : Nat
  rxSlot : Nat
  rolling : Bool
  rxRolling : Bool
  busy   : Bool
  deriving DecidableEq, Repr

/-- What a flit of the package ring carries (R320): an event packet or the answer to it; a store or posted atomic; the request of
a load, atomic or wait of a thread at a location. -/
inductive RingMsg where
  | packet (id : Nat)
  | store (id : Nat)
  | read (who loc : Nat)
  deriving DecidableEq, Repr

/-- A flit of the package ring (R320): what it carries, its destination stop, its class, whether it is a response or
acknowledgement, and the source at its stop of entry. -/
structure RingFlit where
  msg  : RingMsg
  dst  : Nat
  cls  : Nat
  resp : Bool
  src  : Nat
  deriving DecidableEq, Repr

/-- A stop of the package ring (R320): its flit slots clockwise and anticlockwise, the flits waiting to enter, the source
that entered last, and whether the last entry was of class 0. -/
structure RingStop where
  cw   : List RingFlit
  acw  : List RingFlit
  wait : List RingFlit
  last : Nat
  zero : Bool
  deriving DecidableEq, Repr

/-- Entries of the logs read through the management window (R144, R330, R332 to R346, R352). -/
inductive LogEntry where
  | counterDiscarded (off : Nat)
  | hostOverflow (off : Nat)
  | egress (line : Nat)
  | versionFailure (what : Nat)
  | overcap
  | trip (v : Nat)
  | hangB (v slot : Nat) (pc : Word) (cls parked : Nat)
  | syncLost
  | portDown (port : Nat)
  | bootFailed (err : Nat)
  deriving DecidableEq, Repr

/-- The power controller (R335 to R353): its registers, the readings, sheds with the time of each class's decision and
restores in progress, T under telemetry loss in µW, ballast, throttles, stretched ac and how many of each cluster, canary rises by
cluster, the last temperature of each vcore, clusters under the thermal throttle, the metered power of each class as last
supplied and, for a shed class, before its shed; the tenths of a watt left of UPSLOPE, the ac of every 8 that the issue throttle
withholds in a restore, the pair ballast counted in P,
windows ended, and the 25 MHz steps the thermal throttle and the cap have taken off the clock. -/
structure Power where
  pcfg   : Word
  pfuse  : Word
  prest  : Word
  ptherm : Word
  pfpt   : List Word
  pvpt   : List Word
  target : Nat
  shed   : Nat
  tloss  : Bool
  lossAt : Nat
  lossT  : Nat
  overcap : Bool
  overSince : Nat
  overEnd : Nat
  trip   : Bool
  pmeas  : Nat
  ballast : Nat
  waisarVer : Nat
  lastSeq : Option Nat
  lastReading : Nat
  discarded : Nat
  restoreSince : Option Nat
  restoring : Option Nat
  upFrac : Nat
  restThr : Nat
  pairIn : Nat
  lag    : AMap Nat
  shedAt : List Nat
  meter  : List Nat
  shedMeter : List Nat
  slopeFree : Bool
  pairBallast : AMap Nat
  throttle : AMap Nat
  stretch : AMap Nat
  canary : AMap Nat
  canaryAt : AMap Nat
  temps  : AMap Nat
  hot    : List Nat
  thermAt : Nat
  winAt  : Nat
  thermDrop : Nat
  capDrop : Nat
  deriving DecidableEq, Repr

/-- The debug registers (R354) and the pulse sequence number (R358). -/
structure Debug where
  dsamp  : Word
  dimago : Word
  dtrace : Word
  idrop  : Nat
  tdrop  : Nat
  pulses : Nat
  lastPulse : Nat
  issuedNow : AMap Nat
  deriving DecidableEq, Repr

/-- Boot and identity state (R367 to R372). -/
structure Boot where
  stage  : Nat
  err    : Nat
  slot   : Nat
  fwsvn  : Nat
  minsvn : Nat
  rootKey : Nat
  supKey : Nat
  fwHash : Nat
  supHash : Nat
  idIndex : Nat
  tried  : Nat
  harvest : List Nat
  package : Nat
  waisarNode : Nat
  hostVer : Nat
  eventVer : Nat
  timeSource : Nat
  attest : Option (List Nat)
  refused : Bool
  deriving DecidableEq, Repr

/-- What a scheduled step does (the model's own): a core issues from the slot R75 picks; a thread in retirement takes its
next step; an event happens; a stop of the package ring moves its flits one hop (R320); the host or another package writes
its own memory. -/
inductive Act where
  | core (v : Nat)
  | walk (v s : Nat)
  | event (i : Instr)
  | ring (stop : Nat)
  | outside (loc : Nat) (bytes : List Byte)
  deriving DecidableEq, Repr

/-- One scheduled step (the model's own): time that passes before it, in ns and in ac, what it does, and which of the outcomes
that the rules leave open it takes: the word a fetch returns (R137, R138); elsewhere 1 a refusal by another package (R328), 2
data that fail on the way (R331), 3 no more order than R118 and R122 ask for; 0 none of these. -/
structure Turn where
  ns   : Nat
  ac   : Nat
  act  : Act
  pick : Nat
  deriving DecidableEq, Repr

/-- The state of the machine. -/
structure State where
  /-- Package time in ns (R101). -/
  pt : Nat
  /-- PT is established (R101); sync is lost until a module reset; PT runs free (R334). -/
  ptSet : Bool
  ptLost : Bool
  ptFree : Bool
  /-- When a port was last Up (R334), and the tick trim in ppm times 1,000 towards the time source (R101). -/
  lastUp : Nat
  trim : Int
  /-- What the trim has added that is less than 1 ns, in ns times 10^9 (R334). -/
  trimAcc : Int
  /-- Cycles of the arithmetic clock since core reset (R78). -/
  ac : Nat
  /-- The arithmetic clock in MHz (R19); a change in progress: its target and when the stall began (R322). -/
  mhz : Nat
  clockChange : Option (Nat × Nat)
  /-- Every byte of every store, at the flat location of Ops.lean (R114, R116, R308). -/
  mem : List Host.Cell
  /-- 64-byte lines whose check value fails (R331). -/
  poison : List Nat
  /-- Scratchpad tiles whose owner bit says engine (R135). -/
  owned : List Nat
  /-- Threads by identity (R251). -/
  threads : AMap Thread
  /-- Vcore state that differs from reset. -/
  vcores : AMap VCore
  /-- Vcores bound to a position other than the reset one (R15, R16). -/
  bind : AMap Nat
  /-- L1 lines of non-local memory (R117). -/
  l1 : List L1Line
  /-- Accepted stores in acceptance order (R68, R132). -/
  storeBuf : List PStore
  /-- By doubleword: the heads of the release sequences its value belongs to, where threads' stores alone gave it the value
  (R123, R127). -/
  relHeads : AMap (List Cover)
  /-- Station caches (R312). -/
  tlb : List TlbEntry
  /-- Engine commands in acceptance order (R213). -/
  cmds : List Cmd
  replies : List Reply
  /-- Accumulator tiles that are not Free, by vcore times 64 plus number (R228). -/
  tiles : AMap Tile
  /-- Lines Sprue holds locked: line, command, the address it was fetched by (R136, R246, R316). -/
  locks : List (Nat × Nat × Nat)
  sdus : AMap Sdu
  inboxes : AMap Inbox
  packets : List Packet
  /-- Groups by die times 1,024 plus slot (R250). -/
  groups : AMap Group
  pools : AMap (List PoolEntry)
  kernels : AMap Kernel
  /-- Queue descriptor words as stored in the supervisor windows, and the registered queues, by IO die times 64 plus queue
  (R273, R292). -/
  qtab : AMap (List Word)
  queues : AMap Queue
  /-- By IO die: the last packet its queue processor took was of class 0 (R274). -/
  qpTurn : AMap Nat
  ctxs : AMap Context
  /-- Communicator entries, by IO die times 256 plus number (R292). -/
  comms : AMap (List Word)
  /-- Reports waiting for room in the report ring, which is memory (R293). -/
  reportsDue : List Report
  /-- The remap CSR (R306), the move in progress and the accesses it holds (R307). -/
  remap : Word
  moving : Option Move
  held : List Held
  /-- Links (R323 to R334): ports, route tables by IO die times 65,536 plus package, import table, host aperture table,
  doorbells, egress used in the current microsecond by context. -/
  ports : List Port
  routes : AMap Nat
  imports : AMap Word
  apertures : AMap Word
  doorbells : AMap (List Word)
  egress : AMap (Nat × Nat)
  jorraxIn : List (BitVec 1792)
  /-- What the host's reads were answered, none a poisoned completion (R330, R332). -/
  hostReads : List (Option Nat)
  /-- The stops of the package ring (R320). -/
  ring : AMap RingStop
  /-- Posted faults on their way to their kernels (R132, R144, R149): kernel, trap, PC. -/
  posted : List (Nat × Nat × Trap × Word)
  /-- Host interrupts raised and log entries (R278, R330, R352). -/
  irqs : List Nat
  log : List LogEntry
  power : Power
  dbg : Debug
  boot : Boot
  /-- The model's own: the schedule still to run, the slot whose instruction `exec` performs, the fetch pick of the step,
  counters for free values and identities. -/
  agenda : List Turn
  cur : Nat × Nat
  pick : Nat
  free : Nat
  nextId : Nat
  deriving DecidableEq, Repr

/-- Why the machine stops. -/
inductive Fault where
  /-- Raised by an access to a device address to which no rule of the spec gives contents (R308, R330). Safe: the machine
  stops where the hardware would do something the spec does not say. -/
  | deviceWindow (pa : Nat)
  deriving DecidableEq, Repr

/-- Why a step has no meaning. -/
inductive Refusal where
  /-- Raised by an arm of Dispatch.lean whose instruction has no meaning yet. Safe: the run stops. -/
  | notModelled (mnemonic : String)
  deriving DecidableEq, Repr

/-- A vcore after reset (R112, R302, R361). -/
def VCore.reset : VCore :=
  { hangA := 10000, hangB := 1000000, bps := List.replicate 4 0, steps := List.replicate 8 0,
    banks := List.replicate 4 .empty, saveAddr := List.replicate 8 0, prioLast := 7, rrLast := 7, prioWin := 0,
    prioCount := 0, clockGated := false, powerGated := [], idleSince := none, stubLost := false, stubBack := []
    resident := [], acBase := 0 }

/-- A range after reset (R185). -/
def Range.reset : Range :=
  { enabled := false, base := 0, count := 0, shift := 0, channel := 0, cls := 0,
    dests := List.replicate 4 ⟨false, 0, 0, 0⟩, parity := 0, cur := 0 }

/-- An SDU after reset (R184). -/
def Sdu.reset : Sdu :=
  { owner := none, ranges := List.replicate 8 .reset, slots := [], steps := [], openNacks := List.replicate 8 0 }

/-- An inbox after reset (R194): CAP 512, the rest 0. -/
def Inbox.reset : Inbox :=
  { evcfg := 512, owner := none, ownerK := none, q := List.replicate 4 [] }

/-- A group slot after reset. -/
def Group.reset : Group :=
  { gen := 0, active := false, cls := 0, kernel := none, ctx := 0, members := [], phase := 0 }

/-- A Jorrax port after reset (R323). -/
def Port.reset : Port :=
  { up := false, ver := 0, peer := 0, peerPort := 0, txSeq := 0, rxSeq := 0, outq := [], replay := [], ctl := [], ctlSeq := 0, fails := 0
    txKeys := [none, none], rxKeys := [none, none], txSlot := 0, rxSlot := 0, rolling := false, rxRolling := false
    busy := false }

/-- A ring stop after reset: no flit. -/
def RingStop.reset : RingStop := { cw := [], acw := [], wait := [], last := 0, zero := false }

/-- The power controller after reset (R337, R338). -/
def Power.reset : Power :=
  { pcfg := 800 + 1600 * 2 ^ 16 + 400 * 2 ^ 32 + 2 ^ 49
    pfuse := 1600 + 400 * 2 ^ 16 + 115 * 2 ^ 32
    prest := 50 + 20 * 2 ^ 16 + 200 * 2 ^ 32
    ptherm := 95 + 105 * 2 ^ 8 + 115 * 2 ^ 16 + 2 * 2 ^ 24
    pfpt := (List.range 8).map fun (i : Nat) =>
      (BitVec.ofInt 32 (250 * Int.ofNat i - 1000)).setWidth 64 + 1600 * 2 ^ 32
    pvpt := (List.range 8).map fun (i : Nat) => BitVec.ofNat 64 (44000 + 2000 * i) + 1600 * 2 ^ 32
    target := 1600, shed := 0, tloss := false, lossAt := 0, lossT := 0, overcap := false, overSince := 0, overEnd := 0,
    trip := false, pmeas := 0, ballast := 0, waisarVer := 0, lastSeq := none, lastReading := 0, discarded := 0,
    restoreSince := none, restoring := none, upFrac := 0, restThr := 0, pairIn := 0, lag := [], shedAt := [0, 0, 0, 0]
    meter := [0, 0, 0, 0], shedMeter := [0, 0, 0, 0], slopeFree := false, pairBallast := [], throttle := [], stretch := [],
    canary := [], canaryAt := [], temps := [], hot := [], thermAt := 0, winAt := 0, thermDrop := 0, capDrop := 0 }

/-- The debug unit after reset (R354). -/
def Debug.reset : Debug :=
  { dsamp := 0, dimago := 0, dtrace := 0, idrop := 0, tdrop := 0, pulses := 0, lastPulse := 0, issuedNow := [] }

/-- Boot and identity state after reset (R370). -/
def Boot.reset : Boot :=
  { stage := 0, err := 0, slot := 0, fwsvn := 0, minsvn := 0, rootKey := 0, supKey := 0, fwHash := 0, supHash := 0,
    idIndex := 0, tried := 0, harvest := [], package := 0, waisarNode := 0, hostVer := 0, eventVer := 1, timeSource := 0, attest := none,
    refused := false }

/-- The machine right after reset: package time 0, the nominal clock, no thread, kernel, queue or context, every store at
its reset contents, every register at the value its table gives. -/
def State.reset : State :=
  { pt := 0, ptSet := false, ptLost := false, ptFree := false, lastUp := 0, trim := 0, trimAcc := 0, ac := 0, mhz := 800, clockChange := none,
    mem := [], poison := [], owned := [], threads := [], vcores := [], bind := [], l1 := [], storeBuf := [], relHeads := [], tlb := [],
    cmds := [], replies := [], tiles := [], locks := [], sdus := [], inboxes := [], packets := [], groups := [],
    pools := [], kernels := [], qtab := [], queues := [], qpTurn := [], ctxs := [], comms := [], reportsDue := [], remap := 0, moving := none, held := [], ports := List.replicate 12 .reset,
    routes := [], imports := [], apertures := [], doorbells := [], egress := [], jorraxIn := [], hostReads := [], ring := [], posted := [],
    irqs := [], log := [], power := .reset, dbg := .reset, boot := .reset, agenda := [], cur := (0, 0), pick := 0,
    free := 0, nextId := 0 }

end Sys2Proof.Machine
end

