-- ==== Sys2Proof/Machine/Ops.lean ====
section
/-!
DEFINITION. Sys2Proof/Machine/Ops.lean: the named operations over memory, registers, threads and waits that every meaning
uses, and taking a trap and returning from one (R294 to R300).
-/
namespace Sys2Proof.Machine

/-! ## Sparse stores -/

/-- The entry of a key. -/
def mapGet? (m : AMap α) (k : Nat) : Option α :=
  match m with
  | [] => none
  | (k', a) :: r => if k' = k then some a else mapGet? r k

/-- The entry of a key, or the reset contents. -/
def mapGet (m : AMap α) (k : Nat) (d : α) : α := (mapGet? m k).getD d

/-- A store with one entry replaced or added, its keys still rising. -/
def mapSet (m : AMap α) (k : Nat) (a : α) : AMap α :=
  match m with
  | [] => [(k, a)]
  | (k', a') :: r =>
    if k < k' then (k, a) :: (k', a') :: r else if k = k' then (k, a) :: r else (k', a') :: mapSet r k a

/-- A store without a key. -/
def mapErase (m : AMap α) (k : Nat) : AMap α := m.filter fun e => e.1 != k

/-- A set of numbers with one more, rising. -/
def setInsert (l : List Nat) (n : Nat) : List Nat :=
  match l with
  | [] => [n]
  | a :: r => if n < a then n :: a :: r else if n = a then a :: r else a :: setInsert r n

/-- A set of numbers without one. -/
def setErase (l : List Nat) (n : Nat) : List Nat := l.filter fun a => a != n

/-- A list with the element at an index replaced by a function of it. -/
def modifyAt (l : List α) (n : Nat) (f : α → α) : List α :=
  match l, n with
  | [], _ => []
  | a :: r, 0 => f a :: r
  | a :: r, n + 1 => a :: modifyAt r n f

/-- The field of bits `lo` to `lo + w - 1` of a number. -/
def bitsOf (x lo w : Nat) : Nat := x / 2 ^ lo % 2 ^ w

/-- The field of bits `lo` to `lo + w - 1` of a word. -/
def fieldOf (x : Word) (lo w : Nat) : Nat := bitsOf x.toNat lo w

/-- A word with the field at `lo` of width `w` replaced. -/
def setField (x : Word) (lo w n : Nat) : Word :=
  BitVec.ofNat 64 (x.toNat - fieldOf x lo w * 2 ^ lo + n % 2 ^ w * 2 ^ lo)

/-- Bit `n` of a number. -/
def bitAt (x n : Nat) : Bool := x / 2 ^ n % 2 == 1

/-- The two's-complement reading of the low `w` bits of a number (R5 sext). -/
def sextNat (x w : Nat) : Int :=
  let y := x % 2 ^ w
  if y < 2 ^ (w - 1) then (y : Int) else (y : Int) - (2 ^ w : Nat)

/-- The low `w` bits of an integer as a number (R5 trunc). -/
def truncInt (x : Int) (w : Nat) : Nat := (x % (2 ^ w : Nat)).toNat

/-- The number of set bits among the low `w` bits (R90). -/
def popcount (x w : Nat) : Nat := (List.range w).foldl (fun n i => if bitAt x i then n + 1 else n) 0

/-- status(c, d, a) (R109). -/
def status (code detail aux : Nat) : Word := BitVec.ofNat 64 (code + detail % 256 * 256 + aux % 65536 * 65536)

/-! ## Locations (R114, R116, R308) -/

/-- The place of a byte of vcore v's TCM in the package's flat store. -/
def tcmLoc (v off : Nat) : Nat := 2 ^ 48 + v * 2 ^ 17 + off
/-- The place of a byte of vcore v's I-store. -/
def istLoc (v off : Nat) : Nat := 2 ^ 49 + v * 2 ^ 15 + off
/-- The place of a byte of a cluster's scratchpad, clusters numbered 0 to 255 over the package. -/
def spadLoc (c off : Nat) : Nat := 2 ^ 50 + c * 2 ^ 22 + off
/-- The cluster of a vcore, 0 to 255 over the package (R15). -/
def clusterOf (v : Nat) : Nat := v / 16
/-- The compute die of a vcore (R15). -/
def dieOf (v : Nat) : Nat := v / 256
/-- The 64-byte line of a location (R116). -/
def lineOf (loc : Nat) : Nat := loc / 64
/-- The location is a TCM byte, an I-store byte, a scratchpad byte. -/
def isTcm (loc : Nat) : Bool := 2 ^ 48 ≤ loc && loc < 2 ^ 49
def isIst (loc : Nat) : Bool := 2 ^ 49 ≤ loc && loc < 2 ^ 50
def isSpad (loc : Nat) : Bool := 2 ^ 50 ≤ loc
/-- The scratchpad tile of a location, numbered over the package (R135). -/
def tileOf (loc : Nat) : Nat := (loc - 2 ^ 50) / 4096
/-- The location is in die SRAM; in LPDDR-6; in another package; in host memory; a device window (R308). -/
def isSram (loc : Nat) : Bool := loc < 0x40000000
def isLpddr (loc : Nat) : Bool :=
  0x10000000000 ≤ loc && loc < 0x10000000000 + 16 * 0x1000000000 && (loc - 0x10000000000) % 0x1000000000 < 0xB40000000
def isRemote (loc : Nat) : Bool := 0x400000000000 ≤ loc && loc < 0x800000000000
def isHost (loc : Nat) : Bool := 0x800000000000 ≤ loc && loc < 0xFF0000000000
def isDevice (loc : Nat) : Bool := 0xFF0000000000 ≤ loc && loc < 0xFF0100000000
/-- The report ring's records and counters, which are plain memory (R292, R293). -/
def isRing (loc : Nat) : Bool :=
  (0xFF0006000000 ≤ loc && loc < 0xFF0006000000 + 4096 * 64) || (0xFF0007000000 ≤ loc && loc < 0xFF0007000010)
/-- The location is a device register. -/
def isReg (loc : Nat) : Bool := isDevice loc && !isRing loc
/-- The physical address is in some row of R308. -/
def populated (pa : Nat) : Bool := isSram pa || isLpddr pa || isRemote pa || isHost pa || isDevice pa
/-- The package number of a location of another package (R308). -/
def packageOf (loc : Nat) : Nat := bitsOf loc 30 16
/-- The IO die that drives an LPDDR-6 location (R308). -/
def ioOf (loc : Nat) : Nat := (loc - 0x10000000000) / 0x1000000000 / 4

/-- The compute die that holds a line's home, if any (R116). -/
def homeDie (loc : Nat) : Option Nat :=
  if isSpad loc then some ((loc - 2 ^ 50) / 2 ^ 22 / 16)
  else if isIst loc then some ((loc - 2 ^ 49) / 2 ^ 15 / 256)
  else if isTcm loc then some ((loc - 2 ^ 48) / 2 ^ 17 / 256)
  else if isSram loc then some (loc / 0x4000000)
  else none

/-- The home cluster of a scratchpad or die-SRAM location, numbered over the package (R73, R308). -/
def homeCluster (loc : Nat) : Option Nat :=
  if isSpad loc then some ((loc - 2 ^ 50) / 2 ^ 22) else if isSram loc then some (loc / 0x400000) else none

/-- The vcore whose TCM or I-store holds a location. -/
def vcoreOfLoc (loc : Nat) : Option Nat :=
  if isSpad loc then none
  else if isIst loc then some ((loc - 2 ^ 49) / 2 ^ 15)
  else if isTcm loc then some ((loc - 2 ^ 48) / 2 ^ 17)
  else none

/-! ## Memory: one canonical list of bytes, an unlisted byte reading 0 (R367, log 2) -/

/-- What a location nothing has written reads as. -/
def memDefault : Byte := 0

/-- The byte at a location. -/
def readCells (m : List Host.Cell) (loc : Nat) : Byte :=
  match m with
  | [] => memDefault
  | (a, b) :: r => if a = loc then b else readCells r loc

/-- The cells with one byte written, in canonical form. -/
def writeCells (m : List Host.Cell) (loc : Nat) (b : Byte) : List Host.Cell :=
  match m with
  | [] => if b = memDefault then [] else [(loc, b)]
  | (a, c) :: r =>
    if loc < a then (if b = memDefault then (a, c) :: r else (loc, b) :: (a, c) :: r)
    else if loc = a then (if b = memDefault then r else (loc, b) :: r)
    else (a, c) :: writeCells r loc b

/-- The canonical form: addresses strictly rising, no entry equal to what an unlisted address reads as. -/
def Memory.wf (m : List Host.Cell) : Bool :=
  match m with
  | [] => true
  | [(_, b)] => b != memDefault
  | (a, b) :: (a', b') :: r => b != memDefault && decide (a < a') && Memory.wf ((a', b') :: r)

/-- The byte at a location. -/
def State.byteAt (s : State) (loc : Nat) : Byte := readCells s.mem loc

/-- The `n` bytes from a location, little-endian (R2, R5). -/
def State.read (s : State) (loc n : Nat) : Nat :=
  match n with
  | 0 => 0
  | n + 1 => (s.byteAt loc).toNat + 256 * s.read (loc + 1) n

/-- The bytes of a number, little-endian (R2). -/
def bytesOf (val n : Nat) : List Byte :=
  match n with
  | 0 => []
  | n + 1 => BitVec.ofNat 8 val :: bytesOf (val / 256) n

/-- The number of little-endian bytes. -/
def ofBytes (bs : List Byte) : Nat :=
  match bs with
  | [] => 0
  | b :: r => b.toNat + 256 * ofBytes r

/-- Cells with a run of bytes written. -/
def writeRun (m : List Host.Cell) (loc : Nat) (bs : List Byte) : List Host.Cell :=
  match bs with
  | [] => m
  | b :: r => writeRun (writeCells m loc b) (loc + 1) r

/-- The lines a run of bytes touches. -/
def linesOf (loc n : Nat) : List Nat :=
  if n = 0 then [] else (List.range ((loc + n - 1) / 64 + 1 - loc / 64)).map fun i => loc / 64 + i

/-- Some line of a run fails its check value (R331). -/
def State.bad (s : State) (loc n : Nat) : Bool := (linesOf loc n).any fun l => s.poison.contains l

/-- The failing lines after a run of bytes is written: a line it covers whole gets a fresh check value, a line it covers
in part stays as it was (R331). -/
def poisonAfter (p : List Nat) (loc n : Nat) : List Nat :=
  p.filter fun l => !(decide (loc ≤ l * 64) && decide (l * 64 + 64 ≤ loc + n))

/-! ## Threads, vcores and their registers -/

/-- The thread of an identity (R251). -/
def State.thr (s : State) (tid : Nat) : Option Thread := mapGet? s.threads tid
/-- The state with a thread's state replaced. -/
def State.setThr (s : State) (tid : Nat) (t : Thread) : State := { s with threads := mapSet s.threads tid t }
/-- The state with a thread changed, where there is one. -/
def State.updThr (s : State) (tid : Nat) (f : Thread → Thread) : State :=
  match s.thr tid with
  | some t => s.setThr tid (f t)
  | none => s
/-- The state without a thread: its slot or bank is Empty (R64). -/
def State.dropThr (s : State) (tid : Nat) : State := { s with threads := mapErase s.threads tid }
/-- Every thread changed. -/
def State.mapThr (s : State) (f : Nat → Thread → Thread) : State :=
  { s with threads := s.threads.map fun e => (e.1, f e.1 e.2) }
/-- The thread in a slot (R63). -/
def State.inSlot (s : State) (v sl : Nat) : Option (Nat × Thread) :=
  s.threads.find? fun e => e.2.place == .slot v sl
/-- The thread in a slot's chrysalis bank (R300). -/
def State.inBank (s : State) (v sl : Nat) : Option (Nat × Thread) :=
  s.threads.find? fun e => e.2.place == .bank v sl
/-- The thread whose instruction `exec` performs. -/
def State.current (s : State) : Option (Nat × Thread) := s.inSlot s.cur.1 s.cur.2
/-- The vcore of a thread: where its slot or bank is, or the slot it left (R71, R115). -/
def Thread.vcore (t : Thread) : Nat :=
  match t.place with
  | .slot v _ | .bank v _ | .record v _ _ => v
/-- The slot number of a thread (R78 tslot). -/
def Thread.slot (t : Thread) : Nat :=
  match t.place with
  | .slot _ s | .bank _ s | .record _ s _ => s
/-- The thread is in a slot. -/
def Thread.placed (t : Thread) : Bool :=
  match t.place with
  | .slot _ _ => true
  | _ => false
/-- A vcore's own state. -/
def State.vc (s : State) (v : Nat) : VCore := mapGet s.vcores v .reset
/-- The state with a vcore's own state changed. -/
def State.updVc (s : State) (v : Nat) (f : VCore → VCore) : State :=
  { s with vcores := mapSet s.vcores v (f (s.vc v)) }
def State.sdu (s : State) (v : Nat) : Sdu := mapGet s.sdus v .reset
def State.updSdu (s : State) (v : Nat) (f : Sdu → Sdu) : State := { s with sdus := mapSet s.sdus v (f (s.sdu v)) }
def State.inbox (s : State) (v : Nat) : Inbox := mapGet s.inboxes v .reset
def State.updInbox (s : State) (v : Nat) (f : Inbox → Inbox) : State :=
  { s with inboxes := mapSet s.inboxes v (f (s.inbox v)) }
def State.group (s : State) (key : Nat) : Group := mapGet s.groups key .reset
def State.setGroup (s : State) (key : Nat) (g : Group) : State := { s with groups := mapSet s.groups key g }
def State.pool (s : State) (die : Nat) : List PoolEntry := mapGet s.pools die []
def State.setPool (s : State) (die : Nat) (p : List PoolEntry) : State := { s with pools := mapSet s.pools die p }
def State.kern (s : State) (k : Nat) : Option Kernel := mapGet? s.kernels k
def State.updKern (s : State) (k : Nat) (f : Kernel → Kernel) : State :=
  match s.kern k with
  | some kn => { s with kernels := mapSet s.kernels k (f kn) }
  | none => s

/-- X[n]: x0 reads 0 (R5). -/
def Thread.xr (t : Thread) (r : Reg) : Word := if r = 0 then 0 else t.x.getD r.toNat 0
/-- V[n]. -/
def Thread.vr (t : Thread) (r : Reg) : Vec := t.v.getD r.toNat 0
/-- M[n]: m0 reads all ones (R62). -/
def Thread.mr (t : Thread) (n : Nat) : Mask := if n = 0 then BitVec.allOnes 32 else t.m.getD n 0
/-- X[n] := val; writing x0 has no effect (R5). -/
def Thread.setX (t : Thread) (r : Reg) (val : Word) : Thread :=
  if r = 0 then t else { t with x := t.x.set r.toNat val }
/-- A masked write of V[n] (R159). -/
def Thread.setV (t : Thread) (w : VWrite) : Thread :=
  { t with v := modifyAt t.v w.reg.toNat fun o => (o &&& ~~~ w.bits) ||| (w.val &&& w.bits) }
/-- A masked write of M[n]; writes of m0 are ignored (R62). -/
def Thread.setM (t : Thread) (w : MWrite) : Thread :=
  if w.reg = 0 then t else { t with m := modifyAt t.m w.reg.toNat fun o => (o &&& ~~~ w.bits) ||| (w.val &&& w.bits) }

/-- A fresh identity or number. -/
def State.fresh (s : State) : Nat × State := (s.nextId, { s with nextId := s.nextId + 1 })

/-- A value the spec states no result for (log 7), and the state with the counter advanced. -/
def State.freeValue (s : State) (why : Nat) : Word × State :=
  (Config.freeWord why s.free, { s with free := s.free + 1 })

/-- The ac a cluster's stretched cycles have cost it so far (R349): the last one counts once it has begun. -/
def State.lagOf (s : State) (cluster : Nat) : Nat :=
  mapGet s.power.lag cluster 0 - (if s.ac < mapGet s.power.stretch cluster 0 then 1 else 0)

/-- Cycles of the clock of a vcore's cluster (R78, R349): a stretched cycle counts as one. -/
def State.cycles (s : State) (v : Nat) : Nat := s.ac - s.lagOf (clusterOf v)

/-- Every arithmetic clock stands: a clock change stalls the cores, or the module is in thermal trip (R322, R352). -/
def State.stalled (s : State) : Bool := s.clockChange.isSome || s.power.trip

/-- A change the machine makes to a thread in an ac, remembered until the ac is over (R71, R97). -/
def Thread.noteHw (t : Thread) (ac : Nat) (h : HwChange) : Thread :=
  { t with hw := (if t.hwAc = ac then t.hw else []) ++ [h], hwAc := ac }

/-- What the machine has changed of a thread in this ac. -/
def Thread.hwNow (t : Thread) (ac : Nat) : List HwChange := if t.hwAc = ac then t.hw else []

/-- What a counting CSR held before the counts of this ac, where it has counted (R97). -/
def Thread.hwBase (t : Thread) (ac n : Nat) : Option Word :=
  if n ≠ 0x009 ∧ n ≠ 0x115 then none
  else (t.hwNow ac).findSome? fun h => match h with
    | .base c v => if c = n then some v else none
    | _ => none

/-- A CSR that is about to count, noted with what it holds (R97). -/
def Thread.noteBase (t : Thread) (ac n : Nat) (v : Word) : Thread :=
  if (t.hwBase ac n).isSome then t else t.noteHw ac (.base n v)

/-! ## Contexts -/

/-- Doubleword `n` of a context's descriptor, 0 where the context is Free (R290). -/
def State.ctxWord (s : State) (c n : Nat) : Word :=
  match mapGet? s.ctxs c with
  | some x => x.desc.getD n 0
  | none => 0
/-- The context is Resident (R291). -/
def State.resident (s : State) (c : Nat) : Bool :=
  match mapGet? s.ctxs c with
  | some x => fieldOf (x.desc.getD 3 0) 0 1 == 1 && !x.killing
  | none => false
/-- WCEIL, values above 10 s acting as 10 s (R290). -/
def State.ctxCeil (s : State) (c : Nat) : Nat := min (s.ctxWord c 1).toNat 10000000000
/-- TMOLIM (R290). -/
def State.ctxTmolim (s : State) (c : Nat) : Nat := fieldOf (s.ctxWord c 4) 32 16
/-- PERMIT of a class (R290). -/
def State.permits (s : State) (c cls : Nat) : Bool := bitAt (fieldOf (s.ctxWord c 3) 2 4) cls
/-- CAPc (R290). -/
def State.ctxCap (s : State) (c cls : Nat) : Nat := fieldOf (s.ctxWord c 2) (16 * cls) 16
/-- DET (R290, R364). -/
def State.det (s : State) (c : Nat) : Bool := fieldOf (s.ctxWord c 3) 6 1 == 1

/-! ## Waits (R104 to R108) -/

/-- The absence a thread is in, as the DETAIL of LATE gives it: 0 in its slot, 1 shed, 2 swapped, 3 migrating (R107, R109). -/
def Thread.absent (t : Thread) : Nat :=
  if t.placed then (if t.shed then 1 else 0) else if t.migrating then 3 else 2

/-- The success of a condition met now: OK in the slot, LATE while out, OK always in deterministic mode (R107, R364). -/
def State.success (s : State) (t : Thread) (aux : Nat) (val : Word) : Verdict :=
  if t.absent = 0 || s.det t.ctx then ⟨s.pt, 0, 0, aux, val⟩ else ⟨s.pt, 2, t.absent, aux, val⟩

/-- The TIMEOUT of a wait whose E passes now: bit 0 poll, bit 1 ceiling, bit 2 E passed while out (R107, R109). -/
def State.timeout (s : State) (t : Thread) (w : PWait) (val : Word) : Verdict :=
  ⟨s.pt, 1, (if w.poll then 1 else 0) + (if w.ceil then 2 else 0) + (if t.absent = 0 then 0 else 4), 0, val⟩

/-- A change to every wait of a thread, pending or left under a handler, that has no verdict yet. -/
def Thread.mapWaits (t : Thread) (f : PWait → PWait) : Thread :=
  let g := fun w : PWait => if w.verdict.isNone then f w else w
  { t with wait := t.wait.map g, susp := t.susp.map fun u => { u with wait := g u.wait } }

/-- What the home answers a counter or word wait when it tests its line (R145, R152): POISON where the line fails its check
value, success where the condition holds, none otherwise. A test after E meets nothing (R142). -/
def State.testWait (s : State) (t : Thread) (w : PWait) : Option Verdict :=
  if s.pt > w.deadline then none else
  match w.kind with
  | .counter loc _ target =>
    if s.bad loc 8 then some ⟨s.pt, 10, 0, 0, 0⟩
    else if target.toNat ≤ s.read loc 8 then some (s.success t 0 (w64 (s.read loc 8))) else none
  | .word loc _ cmp =>
    if s.bad loc 8 then some ⟨s.pt, 10, 0, 0, 0⟩
    else if s.read loc 8 ≠ cmp.toNat then some (s.success t 0 (w64 (s.read loc 8))) else none
  | _ => none

/-- The TIMEOUT of a wait: CWAIT gives the value its home holds, LWAIT the compare value (R145, R152). -/
def State.lateWait (s : State) (t : Thread) (w : PWait) : Verdict :=
  match w.kind with
  | .counter loc _ _ => s.timeout t w (w64 (s.read loc 8))
  | .word _ _ cmp => s.timeout t w cmp
  | _ => s.timeout t w 0

/-- The location a counter or word wait is registered at; host memory registers none (R146), nor does a device register. -/
def WaitKind.home (k : WaitKind) : Option Nat :=
  match k with
  | .counter loc _ _ | .word loc _ _ => if isHost loc || isReg loc then none else some loc
  | _ => none

/-- A wait after its home has seen a write of some lines (R145, R152). -/
def State.seeWrite (s : State) (t : Thread) (lines : List Nat) (w : PWait) : PWait :=
  match w.kind.home with
  | some loc =>
    if lines.contains (lineOf loc) then
      match s.testWait t w with
      | some d => { w with verdict := some d }
      | none => w
    else w
  | none => w

/-- A wait whose home sees a write to its line after E: it timed out with the value before the write (R105, R145, R152). -/
def State.seeLate (old : State) (t : Thread) (lines : List Nat) (w : PWait) : PWait :=
  match w.kind.home with
  | some loc =>
    if lines.contains (lineOf loc) && decide (w.deadline < old.pt) then { w with verdict := some (old.lateWait t w) } else w
  | none => w

/-- The precondition of a packet in Holding after a write of some lines (R277). -/
def State.seePre (s : State) (lines : List Nat) (q : Queue) : Queue :=
  match q.preLoc with
  | some loc =>
    if lines.contains (lineOf loc) && !s.bad loc 8 && decide (fieldOf (q.packet.getD 4 0) 0 64 ≤ s.read loc 8) && decide (s.pt ≤ q.hold)
    then { q with preMet := true } else q
  | none => q

/-- A monitor entry after a write of some lines (R153). -/
def MonSt.seeWrite (m : MonSt) (lines : List Nat) : MonSt :=
  match m with
  | .quiet l va => if lines.contains l then .written l va else m
  | _ => m

/-- MWAIT's condition: some entry written or lost, or a move SPUR pending (R155). -/
def Thread.monMet (t : Thread) : Bool :=
  t.moveSpur || t.mon.any fun m => match m with
    | .written _ _ | .lost _ _ => true
    | _ => false

/-- What MWAIT returns when its condition holds (R155, R157): OK with the mask of written entries, else SPUR with the lost
ones (detail 1) or, for a move, every armed one (detail 2). Where an entry is Lost and a move SPUR is pending too, it is detail
1 with the lost ones alone: DESIGN CHOICE (log 38). -/
def State.monVerdict (s : State) (t : Thread) : Verdict :=
  let mask := fun (f : MonSt → Bool) =>
    (List.range 4).foldl (fun n i => if f (t.mon.getD i .free) then n + 2 ^ i else n) 0
  let w := mask fun m => match m with | .written _ _ => true | _ => false
  let l := mask fun m => match m with | .lost _ _ => true | _ => false
  let a := mask fun m => match m with | .free => false | _ => true
  if w ≠ 0 then s.success t w 0
  else if l ≠ 0 then ⟨s.pt, 3, 1, l, 0⟩
  else ⟨s.pt, 3, 2, a, 0⟩

/-- A parked MWAIT after a change of its thread's entries. -/
def State.monWait (s : State) (t : Thread) : Thread :=
  if t.monMet then
    t.mapWaits fun w => match w.kind with
      | .monitor => if s.pt ≤ w.deadline then { w with verdict := some (s.monVerdict t) } else w
      | _ => w
  else t

/-- The words a thread may still hold fetched ahead, after a write to its core's I-store (R137, R138). -/
def Thread.seeCode (t : Thread) (v : Nat) (old : Nat → IWord) (loc n : Nat) : Thread :=
  let words := if n = 0 then [] else (List.range ((loc + n - 1) / 4 + 1 - loc / 4)).map fun i => 4 * (loc / 4 + i)
  if t.vcore = v then { t with stale := (words.map fun a => (a, old a)) ++ t.stale } else t

/-- Every registration told of a write of `n` bytes at a location: waiters, monitors and fetched-ahead words (R145, R152,
R153, R137). `old` is the state before the write. -/
def State.noteWrite (s : State) (old : State) (loc n : Nat) : State :=
  let lines := linesOf loc n
  let s := { s with queues := s.queues.map fun (e : Nat × Queue) => (e.1, s.seePre lines e.2) }
  s.mapThr fun _ t =>
    let t := (t.mapWaits (old.seeLate t lines)).mapWaits (s.seeWrite t lines)
    let t := s.monWait { t with mon := t.mon.map (MonSt.seeWrite · lines) }
    if isIst loc then t.seeCode ((loc - 2 ^ 49) / 2 ^ 15) (fun a => BitVec.ofNat 32 (old.read a 4)) loc n else t

/-- Bytes written at their home (R119): cells, check values and registrations. -/
def State.putBytes (s : State) (loc : Nat) (bs : List Byte) : State :=
  State.noteWrite { s with mem := writeRun s.mem loc bs, poison := poisonAfter s.poison loc bs.length } s loc bs.length

/-- The bytes of a core's supervisor stub, numbered: 1 KiB of I-store, then 1 KiB of TCM (R298). -/
def stubByte (loc : Nat) : Option Nat :=
  if isSpad loc then none
  else if isIst loc then (if (loc - 2 ^ 49) % 2 ^ 15 < 1024 then some ((loc - 2 ^ 49) % 2 ^ 15) else none)
  else if isTcm loc && decide ((loc - 2 ^ 48) % 2 ^ 17 < 1024) then some (1024 + (loc - 2 ^ 48) % 2 ^ 17) else none

/-- A core that lost its stub, after a write to its memories: eligible again once every byte of the stub has been written
(R298). -/
def VCore.seeStub (c : VCore) (loc n : Nat) : VCore :=
  if c.stubLost then
    let back := ((List.range n).filterMap fun i => stubByte (loc + i)).foldl setInsert c.stubBack
    if back.length = 2048 then { c with stubLost := false, stubBack := [] } else { c with stubBack := back }
  else c

/-- The vcores after a write of some bytes (R298). -/
def State.stubbed (s : State) (loc n : Nat) : AMap VCore :=
  match vcoreOfLoc loc with
  | some v => s.vcores.map fun (e : Nat × VCore) => if e.1 = v then (e.1, e.2.seeStub loc n) else e
  | none => s.vcores

/-- The doublewords whose value threads' stores gave, after some bytes are written by anything else (R123). -/
def State.headsAfter (s : State) (loc n : Nat) : AMap (List Cover) :=
  s.relHeads.filter fun e => !(decide (loc < e.1 * 8 + 8) && decide (e.1 * 8 < loc + n))

/-- Bytes written at their home, a core's stub among them (R119, R298). -/
def State.writeBytes (s : State) (loc : Nat) (bs : List Byte) : State :=
  { s.putBytes loc bs with vcores := s.stubbed loc bs.length, relHeads := s.headsAfter loc bs.length }

/-- `n` bytes of a number written at their home. -/
def State.write (s : State) (loc n val : Nat) : State := s.writeBytes loc (bytesOf val n)

/-- Bytes written with failing check values (R216, R224): every line they touch fails. -/
def State.writePoison (s : State) (loc n : Nat) : State :=
  State.noteWrite { s with poison := (linesOf loc n).foldl setInsert s.poison } s loc n

/-- A range of whole lines zeroed with fresh check values (R283, R298, R367); its waiters and monitors are told. -/
def State.zero (s : State) (loc n : Nat) : State :=
  State.noteWrite { s with
    mem := s.mem.filter fun c => !(decide (loc ≤ c.1) && decide (c.1 < loc + n)),
    poison := s.poison.filter fun l => !(decide (loc / 64 ≤ l) && decide (l * 64 < loc + n)) } s loc n

/-! ## Writes that a lock delays (R136) -/

/-- A line Sprue holds locked is among some bytes (R136). -/
def State.locked (s : State) (loc n : Nat) : Bool := s.locks.any fun k => (linesOf loc n).contains k.1

/-- A store in the store buffer (R120). -/
def State.buffer (s : State) (p : PStore) : State := { s with storeBuf := s.storeBuf ++ [p], nextId := s.nextId + 1 }

/-- A write the machine itself makes for a context, as the buffer keeps it. -/
def State.ownStore (s : State) (agent ctx loc n val : Nat) (op : StoreOp) : PStore :=
  { id := s.nextId, tid := agent, kernel := none, ctx := ctx, v := 0, loc := loc, va := 0, size := n, val := val, op := op, pc := 0
    accepted := s.pt, logical := 0, st := .out, pinned := s.nextId, rel := [] }

/-- A write of the machine itself waits: for a lock on its line (R136), or behind an earlier one of the same agent. -/
def State.writeWaits (s : State) (agent loc n : Nat) : Bool := s.locked loc n || s.storeBuf.any fun p => p.tid == agent

/-- Bytes the machine itself writes, once no lock delays them (R136). -/
def State.sysWrite (s : State) (agent ctx loc : Nat) (bs : List Byte) : State :=
  if s.writeWaits agent loc bs.length then s.buffer (s.ownStore agent ctx loc bs.length (ofBytes bs) .write) else s.writeBytes loc bs

/-- A count the machine itself adds 1 to, as it will be once every add that waits is made. -/
def State.countDue (s : State) (loc : Nat) : Nat :=
  s.read loc 8 + (s.storeBuf.filter fun p => p.loc == loc && p.op == .cadd).length

/-- 1 added to a count by the machine itself, once no lock delays it (R136). -/
def State.sysCount (s : State) (agent ctx loc : Nat) : State :=
  if s.writeWaits agent loc 8 then s.buffer (s.ownStore agent ctx loc 8 1 .cadd)
  else s.write loc 8 (min (s.read loc 8 + 1) (2 ^ 64 - 1))

/-- Effective deadline, whether it is a poll and whether the ceiling set it (R104): an absolute D at or before the issue time
gives the issue time. -/
def State.deadline (s : State) (d : Word) (ceil : Nat) : Nat × Bool × Bool :=
  let ti := s.pt
  let raw := if d = 0 then ti else if d.toNat < 2 ^ 63 then max d.toNat ti else ti + (d.toNat - 2 ^ 63)
  (min raw (ti + ceil), d == 0, d != 0 && decide (raw > ti + ceil))

/-! ## Atomics at the home (R128, R143, R148) -/

/-- The new value of a far atomic by its op number (R148). -/
def atomicNew (op : Nat) (old arg : Word) : Word :=
  match op with
  | 0 => old + arg
  | 1 => old &&& arg
  | 2 => old ||| arg
  | 3 => old ^^^ arg
  | 4 => if old.slt arg then old else arg
  | 5 => if old.slt arg then arg else old
  | 6 => if old.ult arg then old else arg
  | 7 => if old.ult arg then arg else old
  | _ => arg

/-- A counter add: the value left, and whether it overflowed (R143). -/
def counterAdd (old arg : Nat) : Nat × Bool :=
  if old + arg > 2 ^ 64 - 1 then (2 ^ 64 - 1, true) else (old + arg, false)

/-! ## Records, reports and the trace (R293, R298, R299, R355, R360) -/

/-- A report on its way to the report ring (R293). -/
def State.report (s : State) (r : Report) : State := { s with reportsDue := s.reportsDue ++ [r] }

/-- The first two doublewords of a fault or crash record and its queue word (R299). -/
def recordHead (kind cause detail v slot ctx : Nat) : Word :=
  BitVec.ofNat 64 (kind + cause % 256 * 2 ^ 8 + detail % 256 * 2 ^ 16 + v * 2 ^ 24 + slot * 2 ^ 36 + ctx * 2 ^ 39)

/-- The word that names a kernel's packet in a record: queue processor, queue, SEQ (R299). -/
def State.packetWord (s : State) (k : Option Nat) : Word :=
  match k.bind s.kern with
  | some kn => BitVec.ofNat 64 (kn.io % 4 + kn.q % 64 * 4 + fieldOf (kn.packet.getD 0 0) 0 32 * 256)
  | none => 0

/-- The bytes of doublewords, little-endian. -/
def wordBytes (ws : List Word) : List Byte := ws.flatMap fun w => bytesOf w.toNat 8

/-- A fault record of a context, where it has a fault ring (R299): the record, then 1 added to the ring's count. -/
def State.faultRecord (s : State) (ctx : Nat) (ws : List Word) : State :=
  let fa := fieldOf (s.ctxWord ctx 6) 0 48
  if fa = 0 then s else
    let n := s.countDue fa
    let agent := s.nextId
    (s.sysWrite agent ctx (fa + 64 + n % 63 * 64) (wordBytes ws)).sysCount agent ctx fa

/-- A program fault of a kernel (R287): its first is recorded and starts the end sequence; later ones change nothing.
`w4` and `w5` are the record's words at 32 and 40. -/
def State.endKernel (s : State) (k : Nat) (cause detail v slot : Nat) (pc val w4 w5 : Word) : State :=
  match s.kern k with
  | none => s
  | some kn =>
    if kn.status.isSome then s else
      let s := s.faultRecord kn.ctx
        [recordHead 1 cause detail v slot kn.ctx, pc, val, w64 s.pt, w4, w5, s.packetWord (some k), 0]
      s.updKern k fun kn => { kn with st := .faulting, cause := cause, status := some (status 7 1 cause) }

/-- A host interrupt of a source, by its MSI-X vector (R330). -/
def State.interrupt (s : State) (source : Nat) : State := { s with irqs := s.irqs ++ [Config.msixVector source % 64] }

/-- A record of the trace ring, where the trace is enabled: dropped and counted when the ring is full (R355, R360). -/
def State.traceRecord (s : State) (kind v slot ctx val : Nat) : State :=
  if fieldOf s.dbg.dtrace 52 1 = 0 then s else
    let base := fieldOf s.dbg.dtrace 6 42 * 64
    let size := 2 ^ (fieldOf s.dbg.dtrace 48 4 + 8)
    let p := s.countDue base
    let agent := s.nextId
    if size ≤ p - s.read (base + 8) 8 then
      { s with dbg := { s.dbg with tdrop := min (s.dbg.tdrop + 1) 0xFFFFFFFF } }
    else
      let w := kind + v * 2 ^ 8 + slot * 2 ^ 20 + ctx * 2 ^ 23 + val % 2 ^ 32 * 2 ^ 32
      (s.sysWrite agent ctx (base + 64 + p % size * 16) (wordBytes [w64 w, w64 s.pt])).sysCount agent ctx base

/-! ## Taking a trap and returning from one (R294 to R298) -/

/-- A stream with its uncommitted pops undone: the same vectors are delivered again (R178). -/
def Stream.rewind (st : Stream) : Stream := { st with cur := st.pos, ready := st.kept ++ st.ready, kept := [] }

/-- A thread with its block discarded from the walk's position on (R69). -/
def Thread.discard (t : Thread) : Thread :=
  { t with block := [], issued := 0, walking := false, snap := [], wait := none,
           streams := t.streams.map fun o => o.map Stream.rewind }

/-- The physical address of a vcore's crash record (R298). -/
def crashAddr (v : Nat) : Nat := dieOf v * 0x4000000 + 15 * 0x400000 + 0x400000 - 0x4000 + v % 256 * 64

/-- The third-level reset of a core (R298): crash record, every kernel with a thread on the core ended with cause 23, slots
and banks emptied, TCM and I-store zeroed, a report. -/
def State.thirdLevel (s : State) (t : Thread) (tr : Trap) (pc : Word) : State :=
  let v := t.vcore
  let s := s.sysWrite s.nextId t.ctx (crashAddr v) (wordBytes
    [recordHead 2 23 tr.cause v t.slot t.ctx, pc, tr.val, w64 s.pt, t.bank0.epc, t.bank1.epc, s.packetWord t.kernel, 0])
  let here := s.threads.filter fun e => match e.2.place with
    | .slot w _ | .bank w _ => w == v
    | .record _ _ _ => false
  let s := here.foldl (fun s e => match e.2.kernel with
    | some k => s.endKernel k 23 tr.cause v e.2.slot pc tr.val 0 0
    | none => s) s
  let s := { s with threads := s.threads.filter fun e => !(here.any fun h => h.1 == e.1) }
  let s := (s.zero (tcmLoc v 0) 0x20000).zero (istLoc v 0) 0x8000
  let s := s.updVc v fun c => { c with
    stubLost := true, stubBack := [], banks := List.replicate 4 .empty, resident := [], acBase := s.cycles v, idleSince := none }
  s.report ⟨5, tr.cause, v, t.slot, t.ctx, pc, tr.val, s.pt⟩

/-- tstat of a trap (R295, R296). -/
def trapStat (sup : Bool) (level : Nat) (waitp : Bool) (detail : Nat) : Word :=
  BitVec.ofNat 64 ((if sup then 1 else 0) + level % 4 * 2 + (if waitp then 8 else 0) + detail % 256 * 256)

/-- The thread in its handler after a trap (R295): the bank of its level holds cause, PC, value and status; one level up,
in supervisor mode, at tvec.BASE × 4. A wait it was parked in stays registered. -/
def Thread.deliver (t : Thread) (tr : Trap) (pc : Word) (fromWait : Bool) : Thread :=
  let bank : TrapBank := ⟨BitVec.ofNat 64 (tr.cause % 256), (pc >>> 2) <<< 2, tr.val, trapStat t.sup t.level fromWait tr.detail⟩
  let susp := match fromWait, t.wait with
    | true, some w => ⟨t.level, w, t.block⟩ :: t.susp
    | _, _ => t.susp
  let t' := t.discard
  { t' with
    bank0 := if t.level = 0 then bank else t.bank0
    bank1 := if t.level = 0 then t.bank1 else bank
    susp := susp, level := t.level + 1, sup := true, pc := (t.tvec >>> 2) <<< 2, run := .ready }

/-- A light thread held at a recoverable trap (R297): in Parked-wait, its PC at the trapping instruction, or at the next one
for ECALL. -/
def Thread.hold (t : Thread) (tr : Trap) (pc : Word) (fromWait : Bool) : Thread :=
  let susp := match fromWait, t.wait with
    | true, some w => ⟨0, w, t.block⟩ :: t.susp
    | _, _ => t.susp
  { t.discard with
    susp := susp, pc := if tr.cause = 6 then pc + 4 else pc, run := .wait,
    wait := some ⟨.light, 0, 0, false, false, none, 0⟩ }

/-- The end of a thread that a program fault reaches and that belongs to no kernel: its slot is Empty (log 9). -/
def State.endLoneThread (s : State) (tid : Nat) (t : Thread) (tr : Trap) (pc : Word) : State :=
  (s.faultRecord t.ctx [recordHead 1 tr.cause tr.detail t.vcore t.slot t.ctx, pc, tr.val, w64 s.pt, 0, 0, 0, 0]).dropThr tid

/-- A trap is taken (R295): the ONE operation every fault, call and request goes through. -/
def State.takeTrap (s : State) (tid : Nat) (tr : Trap) (pc : Word) (fromWait : Bool) : State :=
  match s.thr tid with
  | none => s
  | some t =>
    let s := if tr.cause = 5 then s.traceRecord 3 t.vcore t.slot t.ctx tr.detail else s
    if 16 ≤ tr.cause && (t.light || t.level == 0) then
      match t.kernel with
      | some k => (s.setThr tid t.discard).endKernel k tr.cause tr.detail t.vcore t.slot pc tr.val 0 0
      | none => s.endLoneThread tid t tr pc
    else if t.light then
      let t := if t.run = .ready then { t with parkedAt := s.pt, reportedA := false, reportedB := false } else t
      (s.setThr tid (t.hold tr pc fromWait)).report ⟨4, tr.cause, t.vcore, t.slot, t.ctx, pc, tr.val, s.pt⟩
    else if 2 ≤ t.level then s.thirdLevel t tr pc
    else s.setThr tid (t.deliver tr pc fromWait)

/-- A thread back in a wait on a reply register whose reply has come meanwhile reads it: it is Ready (R64, R71). -/
def Thread.readReply (t : Thread) : Thread :=
  match t.run, t.wait with
  | .wait, some ⟨.reply r, _, _, _, _, _, _⟩ =>
    if (t.empty.getD r.toNat none).isNone && !t.walking then { t with run := .ready, wait := none } else t
  | _, _ => t

/-- The thread after XRET from the bank of its level (R100, R295): PC, mode and level restored; with WAITP, the wait it left
is resumed with its E and not issued again, so that the thread goes on after the wait's instruction. -/
def Thread.xret (t : Thread) : Thread :=
  let b := if t.level = 1 then t.bank0 else t.bank1
  let lvl := fieldOf b.stat 1 2
  let epc := (b.epc >>> 2) <<< 2
  let t' := { t.discard with
    pc := epc, sup := fieldOf b.stat 0 1 == 1, level := lvl, run := .ready,
    bpIgnore := if b.cause = 5 && fieldOf b.stat 8 8 == 1 then some epc else t.bpIgnore
    susp := t.susp.filter fun x => x.level != lvl }
  match fieldOf b.stat 3 1, t.susp.find? fun u => u.level == lvl with
  | 1, some u =>
    Thread.readReply { t' with
      pc := if u.block.isEmpty then epc else epc + 4, block := u.block, walking := !u.block.isEmpty, wait := some u.wait, run := .wait }
  | _, _ => t'

end Sys2Proof.Machine
end

