-- ==== Sys2Proof/Machine/Pages.lean ====
section
/-!
DEFINITION. Sys2Proof/Machine/Pages.lean: page-table walks and stations (18_pages R308 to R312), and the address map of a
thread's or command's accesses (R114, R115, R283, R327).
-/
namespace Sys2Proof.Machine

/-- The station that serves a vcore's cluster (R312): 0 to 127 on the V-dies, then two for each IO die. -/
def stationOf (v : Nat) : Nat := dieOf v * 8 + clusterOf v % 16 / 2
/-- The station of an IO die's queue processor; its other one serves the collective engine (R312). -/
def ioStation (io : Nat) (coll : Bool) : Nat := 128 + 2 * io + (if coll then 1 else 0)

/-- Field accessors of a page-table entry (R310). -/
def pteBit (e : Word) (n : Nat) : Bool := e.getLsbD n
/-- FRAME as a physical address (R310). -/
def pteFrame (e : Word) : Nat := fieldOf e 16 32 * 0x10000
/-- HOME (R310). -/
def pteHome (e : Word) : Nat := fieldOf e 6 4

/-- An entry with V = 1 that R311 calls malformed at its level. -/
def pteMalformed (e : Word) (level : Nat) : Bool :=
  let leaf := pteBit e 5
  fieldOf e 11 5 != 0 || fieldOf e 48 16 != 0 || (leaf && level == 1) || (!leaf && level == 3) ||
  (if leaf then
    (level == 2 && fieldOf e 16 13 != 0) || !populated (pteFrame e) ||
    (if isSram (pteFrame e) then pteHome e != bitsOf (pteFrame e) 26 4 else pteHome e != 0)
  else
    pteBit e 1 || pteBit e 2 || pteBit e 3 || pteBit e 4 || pteBit e 10 || pteHome e != 0 ||
    !(isSram (pteFrame e) || isLpddr (pteFrame e)))

/-- The leaf has the bits an access requires (R311). -/
def leafAllows (e : Word) (acc : Access) : Bool :=
  match acc with
  | .read => pteBit e 1
  | .write => pteBit e 2
  | .rw => pteBit e 1 && pteBit e 2
  | .eread => pteBit e 4 && pteBit e 1
  | .ewrite => pteBit e 4 && pteBit e 2
  | .erw => pteBit e 4 && pteBit e 1 && pteBit e 2
  | .image => pteBit e 3

/-- DETAIL of translation not present by the access (R294). -/
def accessDetail (a : Access) : Nat :=
  match a with
  | .read | .eread | .image => 0
  | .write | .ewrite => 1
  | .rw | .erw => 2

/-- The index into a level's node (R309). -/
def vaIndex (va level : Nat) : Nat :=
  match level with
  | 1 => bitsOf va 42 10
  | 2 => bitsOf va 29 13
  | _ => bitsOf va 16 13

/-- A walk from a node at a level, `fuel` levels left (R309, R311): the leaf and its page size, or what stops it. -/
def State.walkFrom (s : State) (node va level fuel : Nat) (detail : Nat) : Except Trap (Word × Nat) :=
  match fuel with
  | 0 => .error ⟨21, 0, w64 va⟩
  | fuel + 1 =>
    let a := node + vaIndex va level * 8
    let e := w64 (s.read a 8)
    if s.bad a 8 then .error ⟨19, 1, w64 va⟩
    else if !pteBit e 0 then (if pteBit e 10 then .error ⟨21, 0, w64 va⟩ else .error ⟨1, detail, w64 va⟩)
    else if pteMalformed e level then .error ⟨21, 0, w64 va⟩
    else if pteBit e 5 then .ok (e, if level = 2 then 0x20000000 else 0x10000)
    else s.walkFrom (pteFrame e) va (level + 1) fuel detail

/-- A walk of a context's page table (R309): from ROOT of its descriptor. -/
def State.walk (s : State) (ctx va detail : Nat) : Except Trap (Word × Nat) :=
  s.walkFrom (fieldOf (s.ctxWord ctx 0) 0 48) va 1 3 detail

/-- The translation a station holds for an address (R312). -/
def State.cached (s : State) (st ctx va : Nat) : Option TlbEntry :=
  s.tlb.find? fun e => e.st == st && e.ctx == ctx && decide (e.va ≤ va) && decide (va < e.va + e.size)

/-- A device window only context 0 reaches (R292, R315, R328, R330, R361). -/
def isSupWindow (pa : Nat) : Bool := isDevice pa && 0xFF0002000000 ≤ pa

/-- Translation at a station (R311, R312): the physical address, or the trap. -/
def State.translate (s : State) (st ctx va : Nat) (acc : Access) (detail : Nat) : Except Trap Nat :=
  let leaf : Except Trap (Word × Nat) := match s.cached st ctx va with
    | some e => .ok (e.leaf, e.size)
    | none => s.walk ctx va detail
  match leaf with
  | .error t => .error t
  | .ok (e, size) =>
    let pa := pteFrame e + va % size
    if !leafAllows e acc then .error ⟨18, 4, w64 va⟩
    else if isSupWindow pa && ctx != 0 then .error ⟨18, 4, w64 va⟩
    else if !populated pa then .error ⟨21, 0, w64 va⟩
    else .ok pa

/-- The station holds the translation a walk let through (R312); it holds at most 8,192, the oldest leaving first. -/
def State.fillTlb (s : State) (st ctx va : Nat) (acc : Access) : State :=
  match s.cached st ctx va with
  | some _ => s
  | none =>
    match s.walk ctx va (accessDetail acc) with
    | .ok (e, size) =>
      if leafAllows e acc then
        let new : TlbEntry := ⟨st, ctx, va - va % size, size, e⟩
        let mine := s.tlb.filter fun x => x.st == st
        let old := if 8192 ≤ mine.length then mine.head? else none
        { s with tlb := (s.tlb.filter fun x => some x != old) ++ [new] }
      else s
    | .error _ => s

/-! ## Who accesses -/

/-- The agent an access belongs to: the vcore its own windows are relative to, context, mode, kernel, and whether it is an
engine's (R115, R211, R311). `at_` is the vcore whose station translates. -/
structure Accessor where
  v : Nat
  ctx : Nat
  sup : Bool
  kernel : Option Nat
  eng : Bool
  deriving DecidableEq, Repr

/-- A thread as accessor. -/
def Thread.accessor (t : Thread) : Accessor := ⟨t.vcore, t.ctx, t.sup, t.kernel, false⟩
/-- A command as accessor (R211). -/
def Cmd.accessor (c : Cmd) : Accessor := ⟨c.v, c.ctx, c.sup, c.kernel, true⟩

/-- The kernel on a vcore that an access of a context reaches (R283): the accessor's own where it is there, otherwise the
one of its context, the class-0 one of two. -/
def State.kernelOn (s : State) (v ctx : Nat) (own : Option Nat) : Option (Kernel × KCore) :=
  let here : List (Nat × Kernel × KCore) := s.kernels.filterMap fun e =>
    if e.2.ctx = ctx then (e.2.cores.find? fun c => c.v == v).map fun c => (e.1, e.2, c) else none
  let pick : Option (Nat × Kernel × KCore) := match here.find? fun h => some h.1 == own with
    | some h => some h
    | none => match here.find? fun h => h.2.1.cls == 0 with
      | some h => some h
      | none => here.head?
  pick.map fun h => h.2

/-- The base of a kernel's scratchpad run in a cluster, in tiles, and its length (R283). -/
def Kernel.run (k : Kernel) (cluster : Nat) : Option (Nat × Nat) :=
  (k.runs.find? fun r => r.1 == cluster).map fun r => (r.2, fieldOf (k.packet.getD 2 0) 43 11)

/-- Some thread of a context counts as placed on a vcore (R115), one whose start message is still on its way (R280) among them. -/
def State.placedOn (s : State) (ctx v : Nat) : Bool :=
  (s.threads.any fun e => e.2.ctx == ctx && e.2.vcore == v) ||
  s.kernels.any fun e => e.2.ctx == ctx && e.2.st == .loading &&
    e.2.cores.any fun c => c.v == v && !c.started && !c.slots.isEmpty

/-- The windows a core reaches itself (R114, R283, R93): the location, a trap found at issue, or none where the access goes
to the fabric or a station. -/
def State.ownWindow (s : State) (a : Accessor) (va n : Nat) : Option (Except Trap Nat) :=
  if va + n ≤ 0x20000 then
    if a.sup then some (.ok (tcmLoc a.v va))
    else match s.kernelOn a.v a.ctx a.kernel with
      | some (_, c) => if va + n ≤ c.tcmSize then some (.ok (tcmLoc a.v (c.tcmBase + va))) else some (.error ⟨18, 7, w64 va⟩)
      | none => some (.error ⟨18, 7, w64 va⟩)
  else if 0x1000000 ≤ va && va + n ≤ 0x1400000 then
    if a.sup then some (.ok (spadLoc (clusterOf a.v) (va - 0x1000000)))
    else match (s.kernelOn a.v a.ctx a.kernel).bind fun k => k.1.run (clusterOf a.v) with
      | some (base, len) =>
        if va - 0x1000000 + n ≤ len * 4096 then some (.ok (spadLoc (clusterOf a.v) (base * 4096 + (va - 0x1000000))))
        else some (.error ⟨18, 7, w64 va⟩)
      | none => some (.error ⟨18, 7, w64 va⟩)
  else if 0x2000000 ≤ va && va + n ≤ 0x2008000 then
    if a.sup then some (.ok (istLoc a.v (va - 0x2000000))) else some (.error ⟨18, 2, w64 va⟩)
  else if 0x10000000 ≤ va && va < 0x10000000000000 then none
  else some (.error ⟨18, 1, w64 va⟩)

/-- The address is in the fabric window (R115). -/
def inFabric (va : Nat) : Bool := 0x1000000000 ≤ va && va < 0x1100000000

/-- An access through the fabric window as the target core answers it (R115, R283). -/
def State.fabric (s : State) (a : Accessor) (va n : Nat) : Except Trap Nat :=
  let v := (va - 0x1000000000) / 0x100000
  let off := (va - 0x1000000000) % 0x100000
  let user := !a.sup
  if off + n ≤ 0x20000 then
    if user && !s.placedOn a.ctx v then .error ⟨18, 3, w64 va⟩
    else if user then
      match s.kernelOn v a.ctx a.kernel with
      | some (_, c) => if off + n ≤ c.tcmSize then .ok (tcmLoc v (c.tcmBase + off)) else .error ⟨18, 7, w64 va⟩
      | none => .error ⟨18, 7, w64 va⟩
    else .ok (tcmLoc v off)
  else if 0x80000 ≤ off && off + n ≤ 0x88000 then
    if user then .error ⟨18, 2, w64 va⟩ else .ok (istLoc v (off - 0x80000))
  else if 0xC0000 ≤ off then
    let o := v % 16 * 0x40000 + (off - 0xC0000)
    if user && !s.placedOn a.ctx v then .error ⟨18, 3, w64 va⟩
    else if user then
      match (s.kernelOn v a.ctx a.kernel).bind fun k => k.1.run (clusterOf v) with
      | some (base, len) =>
        if o + n ≤ len * 4096 then .ok (spadLoc (clusterOf v) (base * 4096 + o)) else .error ⟨18, 7, w64 va⟩
      | none => .error ⟨18, 7, w64 va⟩
    else .ok (spadLoc (clusterOf v) o)
  else .error ⟨18, 1, w64 va⟩

/-- The Up ports that reach a package, as a mask, by the route table of the IO die that serves a compute die (R327): IO die
floor(die / 4), DESIGN CHOICE (log 24). -/
def State.upMask (s : State) (die pkg : Nat) : Nat :=
  let mask := mapGet s.routes (die / 4 * 65536 + pkg) 0
  (List.range 12).foldl (fun m p => if bitAt mask p && (s.ports.getD p .reset).up then m + 2 ^ p else m) 0

/-- Some Up port reaches a package (R327). -/
def State.reachable (s : State) (die pkg : Nat) : Bool := s.upMask die pkg != 0

/-- An access beyond the core (R93, R115, R311, R327): the location, or the trap that answers it. `st` is the station;
`detail` what translation not present reports. -/
def State.offCore (s : State) (a : Accessor) (st va n : Nat) (acc : Access) (detail : Nat) : Except Trap Nat :=
  if inFabric va then s.fabric a va n
  else match s.translate st a.ctx va acc detail with
    | .error t => .error t
    | .ok pa =>
      if isRemote pa && !s.reachable (dieOf a.v) (packageOf pa) then .error ⟨19, 4, w64 va⟩ else .ok pa

/-- Any access of an agent (R114): its own windows, then beyond the core. -/
def State.locate (s : State) (a : Accessor) (st va n : Nat) (acc : Access) (detail : Nat) : Except Trap Nat :=
  match s.ownWindow a va n with
  | some r => r
  | none => s.offCore a st va n acc detail

/-- The location is an engine inbox window or the stations' (R211, R315); addresses of the range that no formula of R211 names are
treated as windows: DESIGN CHOICE (log 38). -/
def isInbox (pa : Nat) : Bool := (0xFF0000000000 ≤ pa && pa < 0xFF0002000000) || pa / 64 == 0xFF0008000000 / 64

/-- The device contents a thread's load or store may reach: not an inbox window, to which only QPUSH writes (R211). -/
def inboxCheck (r : Except Trap Nat) (va : Nat) : Except Trap Nat :=
  match r with
  | .ok pa => if isInbox pa then .error ⟨18, 1, w64 va⟩ else .ok pa
  | .error t => .error t

end Sys2Proof.Machine
end

