-- ==== Sys2Proof/Machine/Csr.lean ====
section
/-!
DEFINITION. Sys2Proof/Machine/Csr.lean: the CSR map (04_threads R77 to R79): which numbers exist, who may read and write
them, their values and the effect of a write.
-/
namespace Sys2Proof.Machine

/-- Who may use a CSR (R77): everyone reading and writing; everyone reading; user mode reading and supervisor mode writing;
supervisor mode writing; supervisor mode reading. -/
inductive CsrClass where
  | rw | ro | roUser | sup | supRo
  deriving DecidableEq, Repr

/-- The class of a CSR number, none where the map has no such number (R77). -/
def csrClass (n : Nat) : Option CsrClass :=
  match n with
  | 0x001 | 0x002 | 0x003 | 0x004 | 0x007 | 0x008 | 0x009 => some .rw
  | 0x005 | 0x114 | 0x115 | 0xC06 => some .roUser
  | 0x006 | 0xC00 | 0xC01 | 0xC02 | 0xC03 | 0xC04 | 0xC05 | 0xC07 => some .ro
  | 0x100 | 0x101 | 0x102 | 0x103 | 0x104 | 0x108 | 0x109 | 0x10A | 0x10B | 0x111 | 0x112 | 0x113 => some .sup
  | 0x110 => some .supRo
  | _ => none

/-- A light thread may name the CSR (R77). -/
def csrLight (n : Nat) : Bool :=
  n == 0x009 || n == 0x114 || n == 0x115 || (0xC00 ≤ n && n ≤ 0xC07)

/-- The trap a CSR instruction takes at issue, if any (R27, R77): an absent number, or one closed to light threads, is
illegal; a supervisor one in user mode is a permission fault; a write of one read-only in the mode is illegal. A light
thread in user mode that names a supervisor CSR meets two of these, in no stated order: DESIGN CHOICE, illegal (log 36). -/
def csrTrap (light sup : Bool) (n : Nat) (writes : Bool) (word : Word) : Option Trap :=
  match csrClass n with
  | none => some ⟨16, 0, word⟩
  | some c =>
    if light && !csrLight n then some ⟨16, 0, word⟩
    else match c with
      | .rw => none
      | .ro => if writes then some ⟨16, 0, word⟩ else none
      | .roUser => if writes && !sup then some ⟨16, 0, word⟩ else none
      | .sup => if sup then none else some ⟨18, 5, word⟩
      | .supRo => if !sup then some ⟨18, 5, word⟩ else if writes then some ⟨16, 0, word⟩ else none

/-- isaver (R1): major 1, minor 0, part 0x7740. -/
def isaver : Word := 0x77400100

/-- The physical position a vcore is bound to in its cluster (R15, R16): a rebinding, or the n-th good position. -/
def State.position (s : State) (v : Nat) : Nat :=
  let good := (List.range 17).filter fun p => !s.boot.harvest.contains (clusterOf v * 17 + p)
  mapGet s.bind v (good.getD (v % 16) 0)

/-- pcore (R14): die × 272 + cluster × 17 + position. -/
def State.pcore (s : State) (v : Nat) : Nat := dieOf v * 272 + clusterOf v % 16 * 17 + s.position v

/-- One stream's byte of sbstat (R182). -/
def sbByte (resident : Bool) (st : Option Stream) (w1c : Nat) : Nat :=
  match st with
  | some x =>
    1 + (if x.append then 2 else 0) + (if resident then 4 else 0) + (if x.n1 * x.n2 ≤ x.pos then 8 else 0) + w1c
  | none => w1c

/-- sbstat as it reads (R182); `Thread.sbstat` keeps the bits that are written 1 to clear. -/
def State.sbstatOf (s : State) (t : Thread) : Word :=
  let res := (s.vc t.vcore).resident.contains t.slot
  BitVec.ofNat 64 ((List.range 8).foldl
    (fun n j => n + sbByte res (t.streams.getD j none) (fieldOf t.sbstat (8 * j) 8) * 2 ^ (8 * j)) 0)

/-- The value of a CSR for a thread (R78, R79): a light thread's tmocnt and rdrop are its status word's fields. -/
def State.csrRead (s : State) (t : Thread) (n : Nat) : Word :=
  match n with
  | 0x001 => t.vflags
  | 0x002 => t.lutb
  | 0x003 => t.mfmt
  | 0x004 => t.mscl
  | 0x005 => t.mprog
  | 0x006 => t.sdcnt
  | 0x007 => (s.inbox t.vcore).evcfg
  | 0x008 => s.sbstatOf t
  | 0x009 => t.rdrop
  | 0x100 => t.tvec
  | 0x101 => t.bank0.cause
  | 0x102 => t.bank0.epc
  | 0x103 => t.bank0.val
  | 0x104 => t.bank0.stat
  | 0x108 => t.bank1.cause
  | 0x109 => t.bank1.epc
  | 0x10A => t.bank1.val
  | 0x10B => t.bank1.stat
  | 0x110 => w64 (s.pcore t.vcore)
  | 0x111 => s.remap
  | 0x112 => (s.vc t.vcore).hangA
  | 0x113 => (s.vc t.vcore).hangB
  | 0x114 => t.tmolim
  | 0x115 => t.tmocnt
  | 0xC00 => w64 (s.cycles t.vcore - (s.vc t.vcore).acBase)
  | 0xC01 => w64 s.pt
  | 0xC02 => w64 t.vcore
  | 0xC03 => w64 t.slot
  | 0xC04 => w64 t.ctx
  | 0xC05 => w64 t.cls
  | 0xC06 => if t.light then w64 (s.ctxCeil t.ctx) else t.wceil
  | 0xC07 => isaver
  | _ => 0

/-- The CSRs the machine itself may change while a block runs; their values at the start of a block are kept (R97). -/
def snapNumbers : List Nat := [0x005, 0x006, 0x007, 0x008, 0x009, 0x110, 0x111, 0x112, 0x113, 0x115, 0xC06]

/-- The values a block's CSR reads return (R97). -/
def State.snapshot (s : State) (t : Thread) : List (Nat × Word) := snapNumbers.map fun n => (n, s.csrRead t n)

/-- X[rd] of a CSR instruction (R97): the value at the start of the block, cycle and pt as they are now. -/
def State.csrSample (s : State) (t : Thread) (n : Nat) : Word :=
  match mapGet? t.snap n with
  | some v => v
  | none => s.csrRead t n

/-- A word restricted to some of its bits. -/
def maskWord (v : Word) (m : Nat) : Word := v &&& BitVec.ofNat 64 m

/-- W1C bits of sbstat after a write (R182). -/
def sbClear (old v : Word) : Word := old &&& ~~~ (v &&& 0x7070707070707070)

/-- evcfg after a write (R194): CAP clamped at 512, reserved bits zero. -/
def evcfgWrite (v : Word) : Word :=
  BitVec.ofNat 64 (min (fieldOf v 0 10) 512 + fieldOf v 16 32 * 2 ^ 16 + fieldOf v 48 1 * 2 ^ 48)

/-- A write of evcfg by a thread (R194): while EN = 1 only the owner context's writes act; setting EN makes the writer's
context and kernel the owner, emptying the inbox where another context owned it; clearing EN keeps the owner. -/
def State.writeEvcfg (s : State) (t : Thread) (val : Word) : State :=
  let ib := s.inbox t.vcore
  let new := evcfgWrite val
  let en := fieldOf ib.evcfg 48 1 == 1
  let own := ib.owner == some t.ctx
  let set := fieldOf new 48 1 == 1
  if en && !own then s
  else if set then
    let q := if own || ib.owner.isNone then ib.q else List.replicate 4 []
    s.updInbox t.vcore fun _ => ⟨new, some t.ctx, t.kernel, q⟩
  else if own || ib.owner.isNone then s.updInbox t.vcore fun i => { i with evcfg := new }
  else s

/-- tstat after a write (R296): a PLVL of 2 or 3 stores 1. -/
def tstatWrite (v : Word) : Word :=
  let l := if 2 ≤ fieldOf v 1 2 then 1 else fieldOf v 1 2
  BitVec.ofNat 64 (fieldOf v 0 1 + l * 2 + fieldOf v 3 1 * 8 + fieldOf v 8 8 * 256)

/-- hangA and hangB after a write (R112). -/
def hangWrite (v : Word) : Word := w64 (max (fieldOf v 0 32) 100)

/-- The remap CSR's writable fields (R306): VA, SPARE, VB; BUSY and ERR stay. -/
def remapWrite (old v : Word) : Word :=
  BitVec.ofNat 64 (fieldOf v 0 13 + fieldOf v 16 12 * 2 ^ 16 + fieldOf old 32 2 * 2 ^ 32)

/-- A thread's own CSR after a write; none where the CSR is not the thread's own. In supervisor mode a light thread's tmocnt
is written, clamped to its field, and its wceil, which comes from the context, shows no effect: DESIGN CHOICE (log 36). -/
def Thread.csrWrite (t : Thread) (n : Nat) (v : Word) : Option Thread :=
  match n with
  | 0x001 => some { t with vflags := maskWord v 0x3F }
  | 0x002 => some { t with lutb := maskWord v 0xFF01FE00 }
  | 0x003 => some { t with mfmt := maskWord v 0x77 }
  | 0x004 => some { t with mscl := maskWord v 0x307FF07FF }
  | 0x005 => some { t with mprog := maskWord v 0x3FFF03FFFF }
  | 0x008 => some { t with sbstat := sbClear t.sbstat v }
  | 0x009 => some { t with rdrop := if t.light then w64 (min (fieldOf v 0 32) 0xFFFF) else maskWord v 0xFFFFFFFF }
  | 0x100 => some { t with tvec := (v >>> 2) <<< 2 }
  | 0x101 => some { t with bank0 := { t.bank0 with cause := maskWord v 0xFF } }
  | 0x102 => some { t with bank0 := { t.bank0 with epc := (v >>> 2) <<< 2 } }
  | 0x103 => some { t with bank0 := { t.bank0 with val := v } }
  | 0x104 => some { t with bank0 := { t.bank0 with stat := tstatWrite v } }
  | 0x108 => some { t with bank1 := { t.bank1 with cause := maskWord v 0xFF } }
  | 0x109 => some { t with bank1 := { t.bank1 with epc := (v >>> 2) <<< 2 } }
  | 0x10A => some { t with bank1 := { t.bank1 with val := v } }
  | 0x10B => some { t with bank1 := { t.bank1 with stat := tstatWrite v } }
  | 0x114 => some { t with tmolim := maskWord v 0xFFFFFFFF }
  | 0x115 => some { t with tmocnt := if t.light then w64 (min (fieldOf v 0 32) 0xFF) else maskWord v 0xFFFFFFFF }
  | 0xC06 => some { t with wceil := w64 (min v.toNat 10000000000) }
  | _ => none

/-- The new value a CSR operation asks for, from the value the CSR holds when the walk applies it (R97). -/
def CsrOp.apply (o : CsrOp) (old : Word) : Word :=
  match o with
  | .write v => v
  | .set v => old ||| v
  | .clear v => old &&& ~~~ v

/-- The slots of a vcore are all Empty, as a move asks (R306); one held for a start message is not (log 22). -/
def State.slotsEmpty (s : State) (v : Nat) : Bool :=
  ((List.range 8).all fun sl => (s.inSlot v sl).isNone) &&
  !(s.kernels.any fun e => e.2.cores.any fun c => c.v == v && !c.started)

/-- The free good position of a vcore's cluster, if any (R16). -/
def State.sparePos (s : State) (v : Nat) : Option Nat :=
  let used := (List.range 16).map fun n => s.position (clusterOf v * 16 + n)
  (List.range 17).find? fun p => !s.boot.harvest.contains (clusterOf v * 17 + p) && !used.contains p

/-- A write of remap (R306): the fields; with GO, a move starts or ERR is set. -/
def State.writeRemap (s : State) (v : Word) : State :=
  let r := remapWrite s.remap v
  let busy := s.moving.isSome
  if fieldOf v 31 1 = 0 then { s with remap := r }
  else
    let va := fieldOf v 0 12
    let vb := fieldOf v 16 12
    let spare := fieldOf v 12 1 == 1
    let bad := busy || !s.slotsEmpty va || (spare && (s.sparePos va).isNone) ||
      (!spare && (va == vb || clusterOf va != clusterOf vb || !s.slotsEmpty vb))
    if bad then { s with remap := setField r 33 1 1 }
    else { s with remap := setField (setField r 33 1 0) 32 1 1, moving := some ⟨va, if spare then none else some vb, s.pt⟩ }

/-- A CSR that counts, one higher, saturating (R71, R78, R79, R110). -/
def Thread.countCsr (t : Thread) (n : Nat) : Thread :=
  if n = 0x009 then { t with rdrop := w64 (min (t.rdrop.toNat + 1) (if t.light then 0xFFFF else 0xFFFFFFFF)) }
  else { t with tmocnt := w64 (min (t.tmocnt.toNat + 1) (if t.light then 0xFF else 0xFFFFFFFF)) }

/-- One change of the machine to a CSR that a write of the same ac does not undo (R97). -/
def Thread.replay (n : Nat) (t : Thread) (h : HwChange) : Thread :=
  match h with
  | .filled _ | .base _ _ => t
  | .counted c => if c = n then t.countCsr n else t
  | .orBits c b => if c = n then { t with sbstat := t.sbstat ||| b } else t
  | .put c v => if c = n then { t with mprog := v } else t

/-- A count of this ac that a write of its CSR came before (R97). -/
def HwChange.rebase (n : Nat) (v : Word) (h : HwChange) : HwChange :=
  match h with
  | .base c x => if c = n then .base c v else .base c x
  | h => h

/-- A CSR write the walk applies (R67, R97): what the machine changed of the CSR in the same ac comes after it, so that the old
value is the one from before. -/
def State.csrWrite (s : State) (tid : Nat) (t : Thread) (n : Nat) (o : CsrOp) : State :=
  let v := o.apply ((t.hwBase s.ac n).getD (s.csrRead t n))
  match t.csrWrite n v with
  | some t' =>
    let t' := { t' with hw := t'.hw.map (HwChange.rebase n (s.csrRead t' n)) }
    s.setThr tid ((t'.hwNow s.ac).foldl (Thread.replay n) t')
  | none =>
    match n with
    | 0x007 => s.writeEvcfg t v
    | 0x111 => s.writeRemap v
    | 0x112 => s.updVc t.vcore fun c => { c with hangA := hangWrite v }
    | 0x113 => s.updVc t.vcore fun c => { c with hangB := hangWrite v }
    | _ => s

end Sys2Proof.Machine
end

