-- ==== Sys2Proof/Machine/Devices.lean ====
section
/-!
DEFINITION. Sys2Proof/Machine/Devices.lean: what a read of a device register returns.
-/
namespace Sys2Proof.Machine

/-- The slot control word as it reads (R302): BANK and REQ. -/
def State.slotControl (s : State) (v sl : Nat) : Word :=
  let bank := match (s.vc v).banks.getD sl .empty with
    | .empty => 0
    | .unsaved => 1
    | .saved => 2
    | .spilling _ _ => 3
    | .filling _ _ => 4
  let req := match s.inSlot v sl with
    | some (_, t) => t.preempt || t.migrate.isSome
    | none => false
  w64 (bank * 2 ^ 8 + if req then 2 ^ 11 else 0)

/-- The entry of a store of tables, as one of its doublewords. -/
def tableWord (m : AMap (List Word)) (k n : Nat) : Word := (mapGet m k []).getD n 0

/-- The value of the device register at an aligned physical address, none where no rule gives it contents (R292, R302, R328,
R330, R361). -/
def State.regRead (s : State) (pa : Nat) : Option Word :=
  let off := pa % 0x1000000
  let dw := pa / 8 % 8
  match pa / 0x1000000 with
  | 0xFF0002 =>
    let v := off / 0x100
    let sl := off % 0x100 / 16
    if 4096 ≤ v || 8 ≤ sl then none
    else if off % 16 = 0 then some (s.slotControl v sl) else some ((s.vc v).saveAddr.getD sl 0)
  | 0xFF0003 => if off < 4096 then some (s.ctxWord (off / 64) dw) else none
  | 0xFF0004 => if off < 0x10000 then some (tableWord s.comms (off / 0x4000 * 256 + off % 0x4000 / 64) dw) else none
  | 0xFF0005 => if off < 0x4000 then some (tableWord s.qtab (off / 0x1000 * 64 + off % 0x1000 / 64) dw) else none
  | 0xFF0009 => if off < 0x20000 then some (mapGet s.imports (off / 8) 0) else none
  | 0xFF000A => if off < 0x20000 then some (tableWord s.doorbells (off / 16) (off / 8 % 2)) else none
  | 0xFF000B =>
    let v := off / 0x80
    let n := off % 0x80 / 8
    if 4096 ≤ v then none
    else if n < 4 then some ((s.vc v).bps.getD n 0) else if 8 ≤ n then some ((s.vc v).steps.getD (n - 8) 0) else none
  | _ => none

/-- `n` bytes at a location as its home answers them: memory, or the register that holds them. -/
def State.homeRead (s : State) (loc n : Nat) : Nat :=
  if isReg loc then bitsOf ((s.regRead (loc - loc % 8)).getD 0).toNat (8 * (loc % 8)) (8 * n) else s.read loc n

/-- The location is a device address to which no rule gives contents. -/
def State.noDevice (s : State) (loc : Nat) : Bool := isReg loc && (s.regRead (loc - loc % 8)).isNone

end Sys2Proof.Machine
end

