-- ==== Sys2Proof/Machine/Flags.lean ====
section
/-!
DEFINITION. Sys2Proof/Machine/Flags.lean: the vflags bits (03_numbers R49) and the clamps that set vflags.SAT (R5, R51).
-/
namespace Sys2Proof.Machine

/-- A set of vflags bits, as the number the CSR would hold (R49). -/
abbrev Flags := Nat

/-- Invalid operation (R46). -/
def flagNV : Flags := 1
/-- Integer division by zero (R89). -/
def flagDZ : Flags := 2
/-- Floating-point overflow (R47). -/
def flagOF : Flags := 4
/-- Floating-point underflow (R48). -/
def flagUF : Flags := 8
/-- Inexact result or conversion (R47, R48, R52). -/
def flagNX : Flags := 16
/-- Integer saturation (R49, R51). -/
def flagSAT : Flags := 32

/-- The union of two sets of flags. -/
def flagOr (a b : Flags) : Flags := a ||| b

/-- vflags after an instruction commits: its flags are ORed in (R50). -/
def vflagsAfter (old : Word) (f : Flags) : Word := old ||| BitVec.ofNat 64 (f % 64)

/-- A value clamped to a range, with SAT where the clamp changes it (R5, R51). -/
def satTo (lo hi v : Int) : Int × Flags :=
  if v < lo then (lo, flagSAT) else if hi < v then (hi, flagSAT) else (v, 0)

/-- sat8, sat16, sat32, and the unsigned 16-bit clamp of .hu (R5, R51). -/
def sat8 (v : Int) : Int × Flags := satTo (-128) 127 v
def sat16 (v : Int) : Int × Flags := satTo (-32768) 32767 v
def sat32 (v : Int) : Int × Flags := satTo (-2147483648) 2147483647 v
def satHu (v : Int) : Int × Flags := satTo 0 65535 v

/-- A consumed delta code: −128 acts as −127 and sets SAT (R58). -/
def deltaCode (c : Nat) : Int × Flags :=
  if sextNat c 8 = -128 then (-127, flagSAT) else (sextNat c 8, 0)

end Sys2Proof.Machine
end

