-- ==== Sys2Proof/Machine/Number.lean ====
section
/-!
DEFINITION. Sys2Proof/Machine/Number.lean: the number formats and their arithmetic (03_numbers R42 to R61). A finite
floating-point value is an exact sign, integer and power of two; every result is the exact one rounded once.
-/
namespace Sys2Proof.Machine

/-- A floating-point format: exponent and fraction bits (R43). -/
structure Fmt where
  ebits : Nat
  fbits : Nat
  deriving DecidableEq, Repr

def fp32 : Fmt := ⟨8, 23⟩
def fp16 : Fmt := ⟨5, 10⟩
def bf16 : Fmt := ⟨8, 7⟩

/-- The bias (R43). -/
def Fmt.bias (f : Fmt) : Nat := 2 ^ (f.ebits - 1) - 1
/-- The encoding of +Inf (R43). -/
def Fmt.infBits (f : Fmt) : Nat := (2 ^ f.ebits - 1) * 2 ^ f.fbits
/-- The canonical quiet NaN (R45). -/
def Fmt.nanBits (f : Fmt) : Nat := f.infBits + 2 ^ (f.fbits - 1)
/-- The sign bit. -/
def Fmt.signBit (f : Fmt) : Nat := 2 ^ (f.ebits + f.fbits)
/-- The power of two of the smallest subnormal (R43). -/
def Fmt.qmin (f : Fmt) : Int := 1 - (f.bias : Int) - f.fbits

/-- A floating-point value: a NaN, an infinity, or (−1)^neg × m × 2^e. -/
inductive FpVal where
  | nan (signalling : Bool)
  | inf (neg : Bool)
  | fin (neg : Bool) (m : Nat) (e : Int)
  deriving DecidableEq, Repr

/-- The value of an encoding (R43, R44: subnormals at their value). -/
def Fmt.val (f : Fmt) (bits : Nat) : FpVal :=
  let neg := bitAt bits (f.ebits + f.fbits)
  let e := bitsOf bits f.fbits f.ebits
  let m := bitsOf bits 0 f.fbits
  if e = 2 ^ f.ebits - 1 then (if m = 0 then .inf neg else .nan (!bitAt bits (f.fbits - 1)))
  else if e = 0 then .fin neg m f.qmin
  else .fin neg (2 ^ f.fbits + m) (f.qmin + e - 1)

/-- m × 2^e rounded to an integer multiple of 2^q: the multiple and whether it is inexact (R47). -/
def roundAt (mode : Round) (neg : Bool) (m : Nat) (e q : Int) : Nat × Bool :=
  if q ≤ e then (m * 2 ^ (e - q).toNat, false)
  else
    let d := 2 ^ (q - e).toNat
    let k := m / d
    let r := m % d
    if r = 0 then (k, false)
    else
      let up := match mode with
        | .rne => decide (d < 2 * r) || (2 * r == d && k % 2 == 1)
        | .rtz => false
        | .rdn => neg
        | .rup => !neg
      (if up then k + 1 else k, true)

/-- The result of an overflow (R47). -/
def Fmt.overflow (f : Fmt) (mode : Round) (neg : Bool) : Nat :=
  let toInf := match mode with
    | .rne => true
    | .rtz => false
    | .rdn => neg
    | .rup => !neg
  (if toInf then f.infBits else f.infBits - 1) + (if neg then f.signBit else 0)

/-- An exact finite value rounded into a format, with its flags (R47, R48: tininess before rounding). -/
def Fmt.round (f : Fmt) (mode : Round) (neg : Bool) (m : Nat) (e : Int) : Nat × Flags :=
  let sign := if neg then f.signBit else 0
  if m = 0 then (sign, 0)
  else
    let lead : Int := (Nat.log2 m : Int) + e
    let q := max (lead - f.fbits) f.qmin
    let (k, inexact) := roundAt mode neg m e q
    let bits := (q - f.qmin).toNat * 2 ^ f.fbits + k
    if f.infBits ≤ bits then (f.overflow mode neg, flagOr flagOF flagNX)
    else (sign + bits, if inexact then flagOr flagNX (if lead < 1 - (f.bias : Int) then flagUF else 0) else 0)

/-- A value delivered into a format (R45, R47): a NaN as the canonical one. -/
def Fmt.deliver (f : Fmt) (mode : Round) (v : FpVal) : Nat × Flags :=
  match v with
  | .nan s => (f.nanBits, if s then flagNV else 0)
  | .inf neg => (f.infBits + (if neg then f.signBit else 0), 0)
  | .fin neg m e => f.round mode neg m e

/-- A finite value as an integer multiple of 2^e0, e0 at most its exponent. -/
def scaled (neg : Bool) (m : Nat) (e e0 : Int) : Int :=
  let x : Int := (m * 2 ^ (e - e0).toNat : Nat)
  if neg then -x else x

/-- An integer multiple of a power of two as a value; a zero is +0. -/
def ofScaled (x : Int) (e0 : Int) : FpVal := .fin (decide (x < 0)) x.natAbs e0

def FpVal.isNan (v : FpVal) : Bool := match v with
  | .nan _ => true
  | _ => false
def FpVal.isSNan (v : FpVal) : Bool := match v with
  | .nan s => s
  | _ => false
def FpVal.isZero (v : FpVal) : Bool := match v with
  | .fin _ 0 _ => true
  | _ => false
def FpVal.isInf (v : FpVal) (neg : Bool) : Bool := v == .inf neg
def FpVal.negBit (v : FpVal) : Bool := match v with
  | .nan _ => false
  | .inf n | .fin n _ _ => n

/-- The exact product (R44, R46): 0 × Inf is invalid. -/
def fpMul (a b : FpVal) : FpVal × Flags :=
  let fl := if a.isSNan || b.isSNan then flagNV else 0
  match a, b with
  | .nan _, _ | _, .nan _ => (.nan false, fl)
  | .inf n, y => if y.isZero then (.nan false, flagNV) else (.inf (n != y.negBit), fl)
  | x, .inf n => if x.isZero then (.nan false, flagNV) else (.inf (n != x.negBit), fl)
  | .fin n m e, .fin n' m' e' => (.fin (n != n') (m * m') (e + e'), fl)

/-- The least exponent of the finite addends. -/
def minExp (vs : List FpVal) : Int :=
  vs.foldl (fun e v => match v with
    | .fin _ _ e' => min e e'
    | _ => e) 0

/-- The exact sum of addends (R44, R46): opposite infinities are invalid; an exact zero is −0 where every addend is −0, or
under RDN where not all are +0. -/
def fpSum (mode : Round) (vs : List FpVal) : FpVal × Flags :=
  let fl := if vs.any FpVal.isSNan then flagNV else 0
  let pos := vs.any fun v => v.isInf false
  let neg := vs.any fun v => v.isInf true
  if pos && neg then (.nan false, flagNV)
  else if vs.any FpVal.isNan then (.nan false, fl)
  else if pos then (.inf false, fl)
  else if neg then (.inf true, fl)
  else
    let e0 := minExp vs
    let x := vs.foldl (fun x v => match v with
      | .fin n m e => x + scaled n m e e0
      | _ => x) 0
    if x = 0 then
      let allNeg := vs.all fun v => v.isZero && v.negBit
      let allPos := vs.all fun v => v.isZero && !v.negBit
      (.fin (allNeg || (mode == .rdn && !allPos)) 0 0, fl)
    else (ofScaled x e0, fl)

/-- The order of two values that are no NaNs; −0 and +0 are equal. -/
def fpCmp (a b : FpVal) : Ordering :=
  match a, b with
  | .inf n, .inf n' => if n = n' then .eq else if n then .lt else .gt
  | .inf n, _ => if n then .lt else .gt
  | _, .inf n => if n then .gt else .lt
  | .fin n m e, .fin n' m' e' =>
    let e0 := min e e'
    compare (scaled n m e e0) (scaled n' m' e' e0)
  | _, _ => .eq

/-- VMIN and VMAX's order: −0 below +0 (R46). -/
def fpLess (a b : FpVal) : Bool :=
  match fpCmp a b with
  | .lt => true
  | .gt => false
  | .eq => a.isZero && b.isZero && a.negBit && !b.negBit

/-- The lesser or greater of two lanes (R46): one NaN gives the other operand, two the canonical NaN; NV only for a
signalling NaN. -/
def Fmt.minMax (f : Fmt) (max : Bool) (a b : Nat) : Nat × Flags :=
  let x := f.val a
  let y := f.val b
  let fl := if x.isSNan || y.isSNan then flagNV else 0
  if x.isNan && y.isNan then (f.nanBits, fl)
  else if x.isNan then (b, fl)
  else if y.isNan then (a, fl)
  else if max then (if fpLess x y then b else a, fl) else (if fpLess y x then b else a, fl)

/-- Addition, subtraction, multiplication and fused multiply-add of lanes (R161), rounded once by RNE. -/
def Fmt.add (f : Fmt) (a b : Nat) : Nat × Flags :=
  let (v, fl) := fpSum .rne [f.val a, f.val b]
  let (r, fl') := f.deliver .rne v
  (r, flagOr fl fl')
def Fmt.neg (f : Fmt) (a : Nat) : Nat := if bitAt a (f.ebits + f.fbits) then a - f.signBit else a + f.signBit
def Fmt.sub (f : Fmt) (a b : Nat) : Nat × Flags := f.add a (f.neg b)
def Fmt.mul (f : Fmt) (a b : Nat) : Nat × Flags :=
  let (v, fl) := fpMul (f.val a) (f.val b)
  let (r, fl') := f.deliver .rne v
  (r, flagOr fl fl')
def Fmt.madd (f : Fmt) (c a b : Nat) : Nat × Flags :=
  let (p, fl) := fpMul (f.val a) (f.val b)
  let (v, fl') := fpSum .rne [f.val c, p]
  let (r, fl2) := f.deliver .rne v
  (r, flagOr (flagOr fl fl') (flagOr fl2 (if (f.val c).isSNan then flagNV else 0)))
/-- |a| (R161): a NaN gives the canonical NaN, and NV where it signals. -/
def Fmt.abs (f : Fmt) (a : Nat) : Nat × Flags :=
  match f.val a with
  | .nan s => (f.nanBits, if s then flagNV else 0)
  | _ => (bitsOf a 0 (f.ebits + f.fbits), 0)

/-- The compares (R46, R162): 0 equal, 1 less, 2 less or equal. -/
def Fmt.compare (f : Fmt) (op a b : Nat) : Bool × Flags :=
  let x := f.val a
  let y := f.val b
  if x.isNan || y.isNan then
    (false, if op = 0 then (if x.isSNan || y.isSNan then flagNV else 0) else flagNV)
  else match op, fpCmp x y with
    | 0, .eq | 1, .lt | 2, .lt | 2, .eq => (true, 0)
    | _, _ => (false, 0)

/-- A finite value rounded to an integer (R47, R52). -/
def roundInt (mode : Round) (neg : Bool) (m : Nat) (e : Int) : Int × Bool :=
  let (k, inexact) := roundAt mode neg m e 0
  (if neg then -(k : Int) else k, inexact)

/-- Conversion of a floating-point value to an integer range (R52). -/
def fpToInt (mode : Round) (lo hi : Int) (v : FpVal) : Int × Flags :=
  match v with
  | .nan _ => (0, flagNV)
  | .inf neg => (if neg then lo else hi, flagSAT)
  | .fin neg m e =>
    let (k, inexact) := roundInt mode neg m e
    let (r, fl) := satTo lo hi k
    (r, if fl ≠ 0 then fl else if inexact then flagNX else 0)

/-- Conversion of an integer to a format (R52). -/
def Fmt.ofInt (f : Fmt) (mode : Round) (x : Int) : Nat × Flags := f.round mode (decide (x < 0)) x.natAbs 0

/-! ## S2P8 (R53 to R55) -/

/-- One term of an S2P8 byte times 64: sign and shift code in four bits (R53). -/
def s2pTerm (n : Nat) : Int :=
  if n % 8 = 7 then 0 else if 8 ≤ n % 16 then -((2 ^ (6 - n % 8) : Nat) : Int) else ((2 ^ (6 - n % 8) : Nat) : Int)

/-- The value of an S2P8 byte times 64 (R53). -/
def s2pVal (b : Nat) : Int := s2pTerm (b / 16) + s2pTerm (b % 16)

/-- The product of an integer activation and an S2P8 weight, with 16 fraction bits (R54). -/
def s2pMul (a : Int) (w : Nat) : Int := a * s2pVal w * 1024

/-- The bytes in the order R55 prefers them: larger a code, a sign 0, larger b code, b sign 0. -/
def s2pOrder : List Nat :=
  (List.range 256).map fun i =>
    let ca := 7 - i / 32
    let sa := i / 16 % 2
    let cb := 7 - i / 2 % 8
    let sb := i % 2
    sa * 128 + ca * 16 + sb * 8 + cb

/-- |x − value of a byte| times 64 × 2^(−e0), for x = n × 2^e0 with e0 at most −6. -/
def s2pDist (n : Int) (e0 : Int) (b : Nat) : Nat := (n - s2pVal b * ((2 ^ (-6 - e0).toNat : Nat) : Int)).natAbs

/-- Conversion to S2P8 (R55). A finite value beyond the range saturates and is inexact; an infinity has no value to differ from:
DEDUCED (log 37). -/
def toS2p (v : FpVal) : Nat × Flags :=
  match v with
  | .nan _ => (0x77, flagNV)
  | .inf neg => (if neg then 0x88 else 0x00, flagSAT)
  | .fin neg m e =>
    let e0 := min e (-6)
    let n := scaled neg m e e0
    let two : Int := ((2 ^ (1 - e0).toNat : Nat) : Int)
    if two < n then (0x00, flagSAT ||| flagNX)
    else if n < -two then (0x88, flagSAT ||| flagNX)
    else
      let best := s2pOrder.foldl (fun (acc : Nat × Nat) b =>
        let d := s2pDist n e0 b
        if d < acc.2 then (b, d) else acc) (0x77, s2pDist n e0 0x77)
      (best.1, if best.2 = 0 then 0 else flagNX)

/-! ## Lanes (R158) -/

/-- Lane `i` of a register of `w`-bit lanes. -/
def laneOf (v : Vec) (w i : Nat) : Nat := bitsOf v.toNat (w * i) w

/-- A register with each lane from a function. -/
def lanesVec (w n : Nat) (f : Nat → Nat) : Vec :=
  BitVec.ofNat 256 ((List.range n).foldl (fun acc i => acc + f i % 2 ^ w * 2 ^ (w * i)) 0)

/-- The bits of the lanes a mask enables (R159). -/
def laneBits (w n : Nat) (m : Mask) : Vec := lanesVec w n fun i => if bitAt m.toNat i then 2 ^ w - 1 else 0

/-- The format of a floating-point type; FP32 for the others, which do not use it. -/
def fmtOf (t : VType) : Fmt :=
  match t with
  | .hf => fp16
  | .bf => bf16
  | _ => fp32

/-- The lane width of a type in bits (R158). -/
def widthOf (t : VType) : Nat := 8 * t.size

/-- A lane's value as an integer of its type: zero-extended for .hu and .x, sign-extended otherwise (R161). -/
def laneInt (t : VType) (x : Nat) : Int :=
  match t with
  | .hu | .x => (x : Int)
  | _ => sextNat x (widthOf t)

/-- The range of an integer type (R51). -/
def typeRange (t : VType) : Int × Int :=
  match t with
  | .b => (-128, 127)
  | .h => (-32768, 32767)
  | .hu => (0, 65535)
  | _ => (-2147483648, 2147483647)

/-- VRSUM's pairwise tree (R60), on a list of 2^k lanes. -/
def Fmt.treeSum (f : Fmt) (fuel : Nat) (l : List Nat) : Nat × Flags :=
  match fuel with
  | 0 => (l.headD 0, 0)
  | fuel + 1 =>
    let rec pair : List Nat → List Nat × Flags
      | a :: b :: r =>
        let (x, fl) := f.add a b
        let (xs, fl') := pair r
        (x :: xs, flagOr fl fl')
      | l => (l, 0)
    let (l', fl) := pair l
    let (r, fl') := f.treeSum fuel l'
    (r, flagOr fl fl')

/-- What VCVT makes of one source element (R52, R55, R164). -/
def convert (s d : VType) (mode : Round) (x : Nat) : Nat × Flags :=
  let fpSrc := (fmtOf s).val x
  if s.isFp then
    (if d.isFp then (fmtOf d).deliver mode fpSrc
    else if d = .x then toS2p fpSrc
    else
      let (lo, hi) := typeRange d
      let (k, fl) := fpToInt mode lo hi fpSrc
      (truncInt k (widthOf d), fl))
  else if s = .x then (fmtOf d).round mode (decide (s2pVal x < 0)) (s2pVal x).natAbs (-6)
  else (fmtOf d).ofInt mode (laneInt s x)

end Sys2Proof.Machine
end

