-- ==== Sys2Proof/Machine/Ring.lean ====
section
/-!
DEFINITION. Sys2Proof/Machine/Ring.lean: the package ring (19_links R320, R321) as event packets and their answers, threads' stores
and the requests of their loads and atomics ride it from die to die (log 36).
-/
namespace Sys2Proof.Machine

/-- The stop of a compute die (R8). -/
def stopOf (die : Nat) : Nat := die / 4 * 5 + 1 + die % 4

/-- A flit of a stop's goes clockwise (R321): fewer hops that way, or ten both ways. -/
def clockwise (src dst : Nat) : Bool := (dst + 20 - src) % 20 ≤ 10

/-- The next stop of a direction. -/
def nextStop (stop : Nat) (cw : Bool) : Nat := if cw then (stop + 1) % 20 else (stop + 19) % 20

/-- A stop of the ring, and the state with it replaced. -/
def State.stop (s : State) (n : Nat) : RingStop := mapGet s.ring n .reset
def State.setStop (s : State) (n : Nat) (r : RingStop) : State := { s with ring := mapSet s.ring n r }

/-- The flit slots of a direction that are taken, and a stop with them replaced (R320). -/
def RingStop.slots (r : RingStop) (cw : Bool) : List RingFlit := if cw then r.cw else r.acw
def RingStop.setSlots (r : RingStop) (cw : Bool) (l : List RingFlit) : RingStop :=
  if cw then { r with cw := l } else { r with acw := l }

/-- The free slots of a stop in a direction, of eight (R320). -/
def RingStop.room (r : RingStop) (cw : Bool) : Nat := 8 - (r.slots cw).length

/-- The stop a translated location's home is reached at (R8, R116): its compute die, the IO die that drives its LPDDR-6, IO die 0 for
the host; none for another package, and none where a store is performed at once (R120) or for device registers (log 36). -/
def homeStop (loc : Nat) : Option Nat :=
  if isSram loc then (homeDie loc).map stopOf
  else if isLpddr loc then some (5 * ioOf loc) else if isHost loc then some 0 else none

/-- A store that a thread of a vcore makes reaches its home by the ring. -/
def rides (v loc : Nat) : Bool :=
  match homeStop loc with
  | some n => n != stopOf (dieOf v)
  | none => false

/-- A message rides the ring or waits to enter it. -/
def State.riding (s : State) (m : RingMsg) : Bool :=
  s.ring.any fun e => (e.2.cw ++ e.2.acw ++ e.2.wait).any fun f => f.msg == m

/-- A flit of a vcore handed to the ring at the stop of its die, for another stop. -/
def State.ringSend (s : State) (m : RingMsg) (src stop cls : Nat) (resp : Bool) : State :=
  let n := stopOf (dieOf src)
  if n = stop then s else s.setStop n { s.stop n with wait := (s.stop n).wait ++ [⟨m, stop, cls, resp, src⟩] }

/-- A packet or its answer handed to the ring, from one vcore to another; none within one die. -/
def State.ringPost (s : State) (pkt src dst cls : Nat) (resp : Bool) : State :=
  s.ringSend (.packet pkt) src (stopOf (dieOf dst)) cls resp

/-- The oldest flit of a stop and direction moves (R320): off the ring at its destination, else on where the next stop has a
slot free. -/
def State.ringAdvance (s : State) (n : Nat) (cw : Bool) : State :=
  match (s.stop n).slots cw with
  | [] => s
  | f :: rest =>
    if f.dst = n then s.setStop n ((s.stop n).setSlots cw rest)
    else
      let m := nextStop n cw
      if 1 ≤ (s.stop m).room cw then
        let s := s.setStop n ((s.stop n).setSlots cw rest)
        s.setStop m ((s.stop m).setSlots cw ((s.stop m).slots cw ++ [f]))
      else s

/-- The free slots the next stop must have before a flit enters (R320). -/
def RingFlit.needs (f : RingFlit) : Nat := if f.resp then 2 else 3

/-- The flit a stop admits next in a direction (R320), of those that have room: class 0 first, but not twice running while another
class waits; among the sources in turn, each in its own order. -/
def RingStop.admits (r : RingStop) (n room : Nat) (cw : Bool) : Option RingFlit :=
  let mine := r.wait.filter fun f => clockwise n f.dst == cw && decide (f.needs ≤ room)
  let others := mine.filter fun f => f.cls != 0
  let zeros := mine.filter fun f => f.cls == 0
  let turn := if zeros.isEmpty || (r.zero && !others.isEmpty) then others else zeros
  let least := fun (l : List RingFlit) => l.foldl (fun o f => match o with
    | some (b : RingFlit) => if f.src < b.src then some f else some b
    | none => some f) none
  (least (turn.filter fun f => decide (r.last < f.src))).orElse fun _ => least turn

/-- A flit enters the ring at a stop (R320), into the next stop of its direction. -/
def State.ringEnter (s : State) (n : Nat) (cw : Bool) : State :=
  let m := nextStop n cw
  match (s.stop n).admits n ((s.stop m).room cw) cw with
  | none => s
  | some f =>
    let r := s.stop n
    let s := s.setStop n { r with wait := r.wait.erase f, last := f.src, zero := f.cls == 0 }
    s.setStop m ((s.stop m).setSlots cw ((s.stop m).slots cw ++ [f]))

/-- One hop at a stop of the ring (R320): in each direction the oldest flit moves, then one enters. -/
def State.ringHop (s : State) (n : Nat) : State :=
  if 20 ≤ n then s else (((s.ringAdvance n true).ringAdvance n false).ringEnter n true).ringEnter n false

end Sys2Proof.Machine
end

