-- ==== Sys2Proof/Machine/Operands.lean ====
section
/-!
DEFINITION. Sys2Proof/Machine/Operands.lean: how an instruction reads its operands at issue (R66, R71, R178), the accesses of
loads and stores with forwarding (R92 to R95, R120, R174), and performing an accepted store (R120, R132).
-/
namespace Sys2Proof.Machine

/-- What an instruction names, for the rules every instruction shares: the x registers it reads and writes (R35), the v
registers it reads and writes (R178), whether a light thread may issue it (R35), whether it is deferred (R67), whether it
closes its block (R65), and its switch marker. -/
structure Form where
  reads : List Reg
  writes : List Reg
  vreads : List Reg
  vwrites : List Reg
  light : Bool
  deferred : Bool
  closes : Bool
  mark : Bool
  deriving DecidableEq, Repr

/-- The form of a scalar instruction. -/
def scalarForm (reads writes : List Reg) (mark : Bool) : Form := ⟨reads, writes, [], [], true, false, false, mark⟩
/-- The form of a deferred instruction of the SYNC space (R67). -/
def deferredForm (reads writes : List Reg) (mark : Bool) : Form := ⟨reads, writes, [], [], true, true, false, mark⟩
/-- The form of an instruction with a deadline operand (R65, R104). -/
def waitForm (reads writes : List Reg) (mark : Bool) : Form := ⟨reads, writes, [], [], true, true, true, mark⟩
/-- The form of a vector instruction (R35). -/
def vectorForm (reads writes vreads vwrites : List Reg) (mark : Bool) : Form :=
  ⟨reads, writes, vreads, vwrites, false, false, false, mark⟩

/-- The register after a pair's first (R34, R158). -/
def nextReg (r : Reg) : Reg := r + 1

/-- The latest earlier short write of a block to a register (R66). -/
def shortWrite (block : List Entry) (r : Reg) : Option Word :=
  block.foldl (fun o e => match e.xw.find? fun w => w.reg == r && w.short with
    | some w => some w.val
    | none => o) none

/-- X[r] as an instruction of the block reads it (R66). -/
def Thread.readX (t : Thread) (r : Reg) : Word :=
  if r = 0 then 0 else (shortWrite t.block r).getD (t.xr r)

/-- A register among these that is empty and that no short write of the block covers (R71). -/
def Thread.emptyRead (t : Thread) (rs : List Reg) : Option Reg :=
  rs.find? fun r => r != 0 && (t.empty.getD r.toNat none).isSome && (shortWrite t.block r).isNone

/-- The word of an instruction, zero-extended, as tval gives it (R33). -/
def wordOf (i : Instr) : Word := ((encode i).getD 0).setWidth 64

/-- An instruction's entry before it has done anything. -/
def Entry.blank (i : Instr) (pc : Word) (pt : Nat) : Entry :=
  { pc := pc, ins := i, ops := [], vops := [], st := .done, xw := [], vw := [], mw := [], flags := 0, csr := none,
    pops := [], app := [], loads := [], post := .none, stores := [], deferred := false, phase := .fresh, sentAt := pt, begun := none }

/-- The entry with its fault (R68). -/
def Entry.fail (e : Entry) (t : Trap) : Entry := { e with st := .faulted t, deferred := false, stores := [], loads := [] }
/-- The entry with a short result (R66). -/
def Entry.short (e : Entry) (rd : Reg) (v : Word) : Entry := { e with xw := [⟨rd, v, true⟩] }
/-- The entry with a long result (R66). -/
def Entry.long (e : Entry) (rd : Reg) (v : Word) : Entry := { e with xw := [⟨rd, v, false⟩] }
/-- Operand `n`. -/
def Entry.op (e : Entry) (n : Nat) : Word := e.ops.getD n 0
/-- Vector operand `n`. -/
def Entry.vop (e : Entry) (n : Nat) : Vec := e.vops.getD n 0
/-- A deferred instruction performed by the walk: its results are ready to commit. -/
def Entry.performed (e : Entry) (xw : List XWrite) : Entry := { e with deferred := false, stores := [], xw := xw, st := .done }
/-- Instructions the walk applies that R67 does not call deferred: a load behind them is still sent at issue (R67, R100,
R176). -/
def walkApplied (i : Instr) : Bool :=
  match i with
  | .sbind _ _ _ _ | .sunb _ _ | .sstat _ _ _ | .xret _ => true
  | _ => false

/-! ## Streams at issue (R178, R179) -/

/-- The stream number of a register, if it is one of v24 to v31. -/
def streamNo (r : Reg) : Option Nat := if 24 ≤ r.toNat then some (r.toNat - 24) else none
/-- A block binds a stream register, which stays an ordinary register within it (R176); SUNB unbinds in the walk only. -/
def rebinds (block : List Entry) (j : Nat) : Bool :=
  block.any fun e => match e.ins with
    | .sbind _ n _ _ => n.toNat == j
    | _ => false
/-- The stream bound to a register. -/
def Thread.bound (t : Thread) (r : Reg) : Option (Nat × Stream) :=
  match streamNo r with
  | some j => if rebinds t.block j then none else (t.streams.getD j none).map fun x => (j, x)
  | none => none
/-- The number of elements of a stream (R177). -/
def Stream.total (x : Stream) : Nat := x.n1 * x.n2
/-- A POISON vector (R179). -/
def poisonVec (t : VType) : Vec :=
  let lane := match t with
    | .hf | .bf | .f => (fmtOf t).nanBits
    | .hu => 0xFFFF
    | _ => 2 ^ (widthOf t - 1)
  lanesVec (widthOf t) t.lanes fun _ => lane
/-- What a pop of a read stream finds (R178): past the end, the next vector, or nothing ready. -/
inductive PopRes where
  | past
  | vec (x : StreamVec)
  | notReady
  deriving DecidableEq, Repr
/-- The pop of a read stream. -/
def Stream.pop (x : Stream) : PopRes :=
  if x.total ≤ x.cur then .past
  else match x.ready with
    | y :: _ => if y.pos = x.cur then .vec y else .notReady
    | [] => .notReady
/-- The stream after a pop: the vector is kept until its instruction commits (R178). -/
def Stream.popped (x : Stream) : Stream :=
  match x.ready with
  | y :: r => { x with ready := r, kept := x.kept ++ [y], cur := x.cur + x.ty.lanes }
  | [] => x

/-- The streams an instruction pops, each once (R178). -/
def Thread.popList (t : Thread) (vreads : List Reg) : List Nat :=
  (vreads.filterMap fun r => (t.bound r).map fun b => b.1).eraseDups

/-- Writing a read stream, or reading a write stream, is illegal (R178). -/
def Thread.streamIllegal (t : Thread) (f : Form) : Bool :=
  (f.vreads.any fun r => match t.bound r with | some (_, x) => x.append | none => false) ||
  (f.vwrites.any fun r => match t.bound r with | some (_, x) => !x.append | none => false)

/-- The value a vector source has at issue: a popped vector, or the register (R178). -/
def Thread.readV (t : Thread) (r : Reg) : Vec :=
  match t.bound r with
  | some (_, x) => match x.pop with
    | .vec y => y.vec
    | _ => poisonVec x.ty
  | none => t.vr r

/-! ## Loads and stores (R91 to R95, R120, R173, R174) -/

/-- The place of a fault in R94's order. -/
def Trap.rank (t : Trap) : Nat :=
  match t.cause, t.detail with
  | 16, _ => 1
  | 17, _ => 2
  | 18, 4 => 5
  | 18, _ => 3
  | 1, _ => 4
  | 21, _ => 5
  | _, _ => 6

/-- The one fault an instruction takes (R94, R174): first in R94's order, and within it the lowest element. -/
def pickFault (ts : List Trap) : Option Trap :=
  ts.foldl (fun o t => match o with
    | some b => if t.rank < b.rank then some t else some b
    | none => some t) none

/-- The misalignment of an access (R92). -/
def misaligned (va size : Nat) : Option Trap := if va % size = 0 then none else some ⟨17, 0, w64 va⟩

/-- Stores of one thread that memory does not yet show, oldest first, by location (R120): accepted ones, then those held by
entries of its block. -/
def State.heldStores (s : State) (tid : Nat) (t : Thread) (before : List Entry) : List (Nat × Nat × Nat) :=
  (s.storeBuf.filterMap fun p => if p.tid = tid && p.op == .write then some (p.loc, p.size, p.val) else none) ++
  (before.flatMap fun e => e.stores.filterMap fun x =>
    if x.op == .write then
      match s.locate t.accessor (stationOf t.vcore) x.va x.size .write 1 with
      | .ok loc => some (loc, x.size, x.val)
      | .error _ => none
    else none)

/-- A byte as the thread's own held stores and memory give it (R120). -/
def forwardByte (held : List (Nat × Nat × Nat)) (mem : Nat → Nat) (loc : Nat) : Nat :=
  held.foldl (fun b h => if h.1 ≤ loc && loc < h.1 + h.2.1 then bitsOf h.2.2 (8 * (loc - h.1)) 8 else b) (mem loc)

/-- `n` bytes with forwarding. -/
def forwardRead (held : List (Nat × Nat × Nat)) (mem : Nat → Nat) (loc n : Nat) : Nat :=
  match n with
  | 0 => 0
  | n + 1 => forwardByte held mem loc + 256 * forwardRead held mem (loc + 1) n

/-- The L1 copy of a line a core may still return (R117). -/
def State.l1Line (s : State) (v ctx line : Nat) : Option L1Line :=
  s.l1.find? fun l => l.v == v && l.ctx == ctx && l.line == line

/-- A byte as a load of a core returns it: the L1 copy where the load may use it, or memory. -/
def State.loadByte (s : State) (t : Thread) (stale : Bool) (loc : Nat) : Nat :=
  match stale, s.l1Line t.vcore t.ctx (lineOf loc) with
  | true, some l => (l.data.getD (loc % 64) 0).toNat
  | _, _ => (s.byteAt loc).toNat

/-- Every byte of an access is the thread's own held store, so no line is consumed. -/
def coveredBy (held : List (Nat × Nat × Nat)) (loc n : Nat) : Bool :=
  (List.range n).all fun i => held.any fun h => decide (h.1 ≤ loc + i) && decide (loc + i < h.1 + h.2.1)

/-- One access of a load at its location (R93, R95, R331): its value, or the bus error of a failing check value. -/
def State.loadAt (s : State) (t : Thread) (held : List (Nat × Nat × Nat)) (stale : Bool) (va loc n : Nat) :
    Except Trap Nat :=
  if isReg loc then .ok (s.homeRead loc n)
  else if s.bad loc n && !coveredBy held loc n then .error ⟨19, 1, w64 va⟩
  else .ok (forwardRead held (s.loadByte t stale) loc n)

/-- The lanes a vector load has fetched, and the bits they fill (R173). -/
def Entry.loadedLanes (e : Entry) (width : Nat) : Vec :=
  lanesVec width (256 / width) fun i => ((e.loads.find? fun l => bitAt l.lanes i).bind fun l => l.got).getD 0
def Entry.loadedBits (e : Entry) (width : Nat) : Vec :=
  lanesVec width (256 / width) fun i => if e.loads.any fun l => bitAt l.lanes i then 2 ^ width - 1 else 0

/-- The results of a load whose accesses have all returned (R91, R173, R175). -/
def Entry.finishLoad (e : Entry) : Entry :=
  let e := { e with st := .done, deferred := false }
  match e.post with
  | .none => e
  | .x rd size signed =>
    let v := w64 ((e.loads.head?.bind fun l => l.got).getD 0)
    { e with xw := [⟨rd, if signed then sextLow (8 * size) v else v, false⟩] }
  | .v vd width => { e with vw := [⟨vd, e.loadedBits width, e.loadedLanes width⟩] }
  | .app j width => { e with app := [(j, e.loadedLanes width ||| (e.vop 0 &&& ~~~ e.loadedBits width))] }
  | .m md => { e with mw := [⟨md, BitVec.allOnes 32, BitVec.ofNat 32 ((e.loads.head?.bind fun l => l.got).getD 0)⟩] }

/-- A load's accesses evaluated together: its results, or its one fault (R94, R174). `place` says where an access goes. -/
def State.evalLoads (s : State) (t : Thread) (held : List (Nat × Nat × Nat)) (stale : Bool)
    (place : LoadElem → Except Trap Nat) (e : Entry) : Entry :=
  let rs : List (LoadElem × Except Trap Nat) := e.loads.map fun l => match place l with
    | .ok loc => (l, s.loadAt t held stale l.va loc l.size)
    | .error x => (l, .error x)
  match pickFault (rs.filterMap fun (r : LoadElem × Except Trap Nat) => match r.2 with | .error x => some x | .ok _ => none) with
  | some x => e.fail x
  | none =>
    let got := fun (r : LoadElem × Except Trap Nat) => match r.2 with
      | .ok v => { r.1 with got := some v }
      | .error _ => r.1
    Entry.finishLoad { e with loads := rs.map got }

/-- Where an access of a load that was sent goes: by the translation it was presented with (R316), else by what its target
answers now. -/
def State.placeSent (s : State) (t : Thread) (l : LoadElem) : Except Trap Nat :=
  match l.pin with
  | some loc => .ok loc
  | none => inboxCheck (s.locate t.accessor (stationOf t.vcore) l.va l.size .read 0) l.va

/-- The locations of a load's accesses: address, location, size. -/
def State.sentLocs (s : State) (t : Thread) (e : Entry) : List (Nat × Nat × Nat) :=
  e.loads.filterMap fun l => match s.placeSent t l with
    | .ok loc => some (l.va, loc, l.size)
    | .error _ => none

/-- LTB, 200 µs (R70). -/
def ltb : Nat := 200000

/-- Bytes of two runs overlap. -/
def overlaps (a n b m : Nat) : Bool := decide (a < b + m) && decide (b < a + n)

/-- An access to a line homed on the thread's own die (R117). -/
def Thread.isLocal (t : Thread) (loc : Nat) : Bool := homeDie loc == some (dieOf t.vcore)

/-- Two loads of a thread keep their program order: both touch lines of its own die, or the same bytes (R119, R121). -/
def State.inOrder (s : State) (t : Thread) (a b : Entry) : Bool :=
  (s.sentLocs t a).any fun x => (s.sentLocs t b).any fun y =>
    (t.isLocal x.2.1 && t.isLocal y.2.1) || overlaps x.2.1 x.2.2 y.2.1 y.2.2

/-- An earlier load of the block that this one may not pass is still out. -/
def State.loadAhead (s : State) (t : Thread) (before : List Entry) (e : Entry) : Bool :=
  before.any fun b => b.st == .sent && s.inOrder t b e

/-- A load on its way, its translations taken at the station (R316). -/
def State.sendLoad (s : State) (t : Thread) (e : Entry) : Entry :=
  { e with
    st := .sent
    loads := e.loads.map fun l =>
      if (s.ownWindow t.accessor l.va l.size).isSome || inFabric l.va then l
      else match s.placeSent t l with
        | .ok loc => { l with pin := some loc }
        | .error _ => l }

/-- A load or vector load at issue (R67, R91 to R94): misalignment first; deferred behind a deferred instruction; answered at
once where every access is in the core's own windows and no earlier load it may not pass is out; sent otherwise, and in
deterministic mode always (R364). -/
def State.issueLoads (s : State) (tid : Nat) (t : Thread) (e : Entry) : Entry :=
  match pickFault (e.loads.filterMap fun l => misaligned l.va l.size) with
  | some x => e.fail x
  | none =>
    if t.block.any fun b => b.deferred && !walkApplied b.ins then { e with deferred := true }
    else if (e.loads.all fun l => (s.ownWindow t.accessor l.va l.size).isSome) && !s.loadAhead t t.block e && !s.det t.ctx then
      s.evalLoads t (s.heldStores tid t t.block) false
        (fun l => (s.ownWindow t.accessor l.va l.size).getD (.error ⟨18, 1, w64 l.va⟩)) e
    else s.sendLoad t e

/-- A store to an engine-owned tile (R221). -/
def State.tileTrap (s : State) (va loc : Nat) : Option Trap :=
  if isSpad loc && s.owned.contains (tileOf loc) then some ⟨18, 6, w64 va⟩ else none

/-- An L1 line of a core rewritten by a write of a thread that runs there (R117, R119). -/
def L1Line.write (l : L1Line) (vs : List Nat) (loc : Nat) (bs : List Byte) : L1Line :=
  if vs.contains l.v then
    { l with data := (List.range 64).map fun i =>
        let a := l.line * 64 + i
        if loc ≤ a && a < loc + bs.length then bs.getD (a - loc) 0 else l.data.getD i 0 }
  else l

/-- A posted fault on its way to its kernel (R144). -/
def State.postFault (s : State) (p : PStore) (t : Trap) : State :=
  match p.kernel with
  | some k => { s with posted := s.posted ++ [(k, p.tid, t, p.pc)] }
  | none => s

/-! ## Messages to other packages (R324 to R327) -/

/-- The port a message from a compute die to another package leaves by (R327): chosen from the mask by a fixed function of
package and line. -/
def State.portFor (s : State) (die loc : Nat) : Option Nat :=
  let mask := s.upMask die (packageOf loc)
  let r := Config.routePick (packageOf loc) (lineOf loc) mask
  if bitAt mask r then some r else (List.range 12).find? fun p => bitAt mask p

/-- The first 16 bytes of a flit: TYPE, SLOT, VER, ACKSEQ and SEQ (R324). -/
def flitHeader (f : FlitText) : BitVec 128 := f.seq ++ (f.ackSeq ++ (f.ver ++ ((0 : BitVec 7) ++ (f.slot ++ f.type))))

/-- The 256 bytes of a flit (R324). -/
def flitBytes (f : Flit) : List Byte :=
  bytesOf (flitHeader f.toFlitText).toNat 16 ++ bytesOf f.payload.toNat 224 ++ bytesOf f.tag.toNat 16

/-- The nonce of a flit (R324): the sender's package number, its port number, a zero byte, SEQ. -/
def nonceOf (pkg : BitVec 16) (port : BitVec 8) (seq : BitVec 64) : BitVec 96 := seq ++ ((0 : BitVec 8) ++ (port ++ pkg))

/-- A flit of a type with its payload encrypted and its tag, under a key (R324). -/
def sealFlit (key : Nat) (pkg : BitVec 16) (port : Nat) (f : FlitText) : Flit :=
  let n := nonceOf pkg (BitVec.ofNat 8 port) f.seq
  let c := Config.gcmSeal key n f.payload
  { f with payload := c, tag := Config.gcmTag key n (flitHeader f) c }

/-- A message as the numbers its payload holds (R331): what a store carries is read when the flit is made. -/
def JMsg.nums (m : JMsg) (bufs : List PStore) : List Nat :=
  match m with
  | .store id => match bufs.find? fun p => p.id == id with
    | some p => [0, p.loc, p.size, p.val]
    | none => [0]
  | .read _ loc size => [1, loc, size]
  | .answer bad val => [2, if bad then 1 else 0, val]
  | .refusal => [3]

/-- The key a port sends under. -/
def Port.txKey (p : Port) : Nat := (p.txKeys.getD p.txSlot none).getD 0

/-- A port with one more data flit sent for the first time, in its replay buffer (R324 to R326). -/
def Port.send (p : Port) (pkg : BitVec 16) (no pt : Nat) (bufs : List PStore) (m : JMsg) : Port :=
  let f := sealFlit p.txKey pkg no
    ⟨1, BitVec.ofNat 1 p.txSlot, BitVec.ofNat 8 p.ver, 0, BitVec.ofNat 64 p.txSeq, Config.jorraxPayload (m.nums bufs)⟩
  { p with replay := p.replay ++ [⟨f, pt, m⟩], txSeq := p.txSeq + 1 }

/-- Waiting messages sent in order while the replay buffer has room (R325). -/
def Port.pump (p : Port) (pkg : BitVec 16) (no pt : Nat) (bufs : List PStore) (q : List JMsg) : Port :=
  match q with
  | [] => { p with outq := [] }
  | m :: r => if 1024 ≤ p.replay.length then { p with outq := m :: r } else (p.send pkg no pt bufs m).pump pkg no pt bufs r

/-- A port's waiting messages sent as far as its replay buffer has room. -/
def State.pumpPort (s : State) (no : Nat) : State :=
  { s with ports := modifyAt s.ports no fun p =>
      p.pump (BitVec.ofNat 16 s.boot.package) no s.pt s.storeBuf p.outq }

/-- A message from a compute die to another package, by the port of its line; none without a route. -/
def State.postMsg (s : State) (die loc : Nat) (m : JMsg) : State :=
  match s.portFor die loc with
  | some n => State.pumpPort { s with ports := modifyAt s.ports n fun p => { p with outq := p.outq ++ [m] } } n
  | none => s

/-- The request of an access has not reached its target yet: it rides the ring (R320), or its flit has not left its port, whose
replay buffer is full (R325). -/
def State.unsent (s : State) (who loc : Nat) : Bool :=
  s.riding (.read who loc) || s.ports.any fun p => p.outq.any fun m => match m with
    | .read w l _ => w == who && l == loc
    | _ => false

/-- The class by which the ring takes an agent's flits (R320): its thread's, else its command's. -/
def State.agentClass (s : State) (who : Nat) : Nat :=
  match s.thr who with
  | some t => t.cls
  | none => ((s.cmds.find? fun c => c.id == who).map fun c => c.cls).getD 3

/-- The request of a thread's access: in a flit of a port to another package (R325), or of the ring to another stop (R320). -/
def State.ask (s : State) (tid : Nat) (t : Thread) (loc n : Nat) : State :=
  if isRemote loc then s.postMsg (dieOf t.vcore) loc (.read tid loc n)
  else match homeStop loc with
    | some m => s.ringSend (.read tid loc) t.vcore m t.cls false
    | none => s

/-- A port has room for the message of an access to another package (R325). -/
def State.portRoom (s : State) (die loc : Nat) : Bool :=
  !isRemote loc || match s.portFor die loc with
    | some n => (s.ports.getD n .reset).outq.isEmpty && decide ((s.ports.getD n .reset).replay.length < 1024)
    | none => true

/-- The requests of a load that has just been sent, to other dies and packages (R320, R325). -/
def State.postReads (s : State) (tid : Nat) (t : Thread) (e : Entry) : State :=
  if e.st = .sent then (s.sentLocs t e).foldl (fun s x => s.ask tid t x.2.1 x.2.2) s else s

/-! ## Whom an ordering instruction covers (R118, R123, R127) -/

/-- The members of the groups a thread belongs to (R118, R258). -/
def State.fellows (s : State) (tid : Nat) : List Nat :=
  s.groups.flatMap fun e =>
    if e.2.active && e.2.members.any fun m => m.tid == tid then e.2.members.map fun m => m.tid else []

/-- The agents a release of a thread covers as it is performed (R118, R258). -/
def State.coverOf (s : State) (tid : Nat) (t : Thread) (scope : Scope) : Cover := ⟨scope, tid, dieOf t.vcore, s.fellows tid⟩

/-- A release covers some agent beside its own thread. -/
def Cover.reaches (c : Cover) : Bool :=
  match c.scope with
  | .g => c.members.any fun n => n != c.tid
  | _ => true

/-- A release covers a thread (R118). -/
def Cover.covers (c : Cover) (tid : Nat) (t : Thread) : Bool :=
  c.tid == tid || match c.scope with
    | .g => c.members.contains tid
    | .d => c.die == dieOf t.vcore
    | .v | .s => true

/-- An acquire of a thread covers the one that made a release (R118). -/
def State.coversBack (s : State) (tid : Nat) (t : Thread) (scope : Scope) (c : Cover) : Bool :=
  c.tid == tid || match scope with
    | .g => (s.fellows tid).contains c.tid
    | .d => ((s.thr c.tid).map fun x => dieOf x.vcore).getD c.die == dieOf t.vcore
    | .v | .s => true

/-- An acquire that reads a doubleword synchronises with a release (R123, R127); where anything but threads' stores has
written it, it is taken to. -/
def State.syncs (s : State) (tid : Nat) (t : Thread) (scope : Scope) (loc : Nat) : Bool :=
  match mapGet? s.relHeads (loc / 8) with
  | some hs => hs.any fun c => c.covers tid t && s.coversBack tid t scope c
  | none => true

/-! ## Performing stores (R119, R120, R132) -/

/-- The cores whose L1 a store of a thread may not leave behind (R119): the one it was made on, and the one its thread is on; none
of another agent's. -/
def State.viewers (s : State) (p : PStore) : List Nat :=
  match s.thr p.tid with
  | some t => [p.v, t.vcore]
  | none => []

/-- The L1 lines without a line of some cores. -/
def State.dropLine (s : State) (vs : List Nat) (loc : Nat) : State :=
  { s with l1 := s.l1.filter fun l => !(vs.contains l.v && l.line == lineOf loc) }

/-- The release sequences a doubleword's value belongs to, after a thread's store to it (R123, R127): a store of all of it ends
what was there. `old` is the state before. -/
def State.noteHeads (s old : State) (p : PStore) : State :=
  let heads := if p.op == .write && p.size == 8 then some p.rel else (mapGet? old.relHeads (p.loc / 8)).map fun l => l ++ p.rel
  match heads, old.thr p.tid with
  | some l, some _ => { s with relHeads := mapSet s.relHeads (p.loc / 8) l }
  | _, _ => s

/-- A store or posted atomic performed at its home (R119, R143, R149). The posted requests that R150 lets routers merge are
performed one by one: DESIGN CHOICE (log 38). -/
def State.performStore (s : State) (p : PStore) : State :=
  match p.op with
  | .write =>
    let bs := bytesOf p.val p.size
    (({ s with l1 := s.l1.map fun l => l.write (s.viewers p) p.loc bs } : State).writeBytes p.loc bs).noteHeads s p
  | .cadd =>
    if s.bad p.loc 8 then s.postFault p ⟨19, 1, w64 p.va⟩
    else
      let (new, past) := counterAdd (s.read p.loc 8) p.val
      let s' := ((s.dropLine (s.viewers p) p.loc).write p.loc 8 new).noteHeads s p
      if past then s'.postFault p ⟨20, 0, w64 p.va⟩ else s'
  | .atomic op =>
    if s.bad p.loc 8 then s.postFault p ⟨19, 1, w64 p.va⟩
    else
      ((s.dropLine (s.viewers p) p.loc).write p.loc 8 (atomicNew op (w64 (s.read p.loc 8)) (w64 p.val)).toNat).noteHeads s p

/-- The home of a location lies outside the compute dies of a kernel's die set (R139). -/
def Kernel.outside (k : Kernel) (loc : Nat) : Bool :=
  match homeDie loc with
  | some d => !bitAt (fieldOf (k.packet.getD 0 0) 48 16) d
  | none => true

/-- What the head of a thread's block was presented with, where it was. -/
def Thread.pinMark (t : Thread) : Option Nat :=
  match t.block with
  | e :: _ => match e.phase with
    | .presented p => some p.mark
    | _ => none
  | [] => none

/-- A thread's store as the buffer keeps it; it releases what the thread's fences and its own instruction make it release. -/
def State.pstore (s : State) (tid : Nat) (t : Thread) (pc : Word) (x : StoreElem) (loc : Nat) : PStore :=
  { id := s.nextId, tid := tid, kernel := t.kernel, ctx := t.ctx, v := t.vcore, loc := loc, va := x.va, size := x.size, val := x.val
    op := x.op, pc := pc, accepted := s.pt, logical := t.logical, st := .buffered, pinned := t.pinMark.getD s.nextId, rel := t.fences }

/-- An accepted store counted for its kernel where its home lies outside the die set (R139). -/
def State.countOut (s : State) (k : Option Nat) (loc : Nat) : State :=
  match k with
  | some k => s.updKern k fun kn => if kn.outside loc then { kn with out := kn.out + 1 } else kn
  | none => s

/-- A store accepted and pinned (R68, R132): in the store buffer. -/
def State.accept (s : State) (tid : Nat) (t : Thread) (pc : Word) (x : StoreElem) (loc : Nat) : State :=
  (s.buffer (s.pstore tid t pc x loc)).countOut t.kernel loc

/-- The location belongs to a vcore that is being moved (R307). -/
def State.isMoving (s : State) (loc : Nat) : Bool :=
  match s.moving, vcoreOfLoc loc with
  | some m, some v => v == m.va || some v == m.vb
  | _, _ => false

/-- A vcore is one of those being moved (R306). -/
def State.vcoreMoving (s : State) (v : Nat) : Bool :=
  match s.moving with
  | some m => m.va == v || m.vb == some v
  | none => false

/-- Locks released (R136): a store presented to a line that loses one keeps the E of the command that held it (R68). -/
def State.unlock (s : State) (gone : Nat × Nat × Nat → Bool) : State :=
  let out := s.locks.filter gone
  let until_ := fun (loc : Nat) => (out.filter fun l => l.1 == lineOf loc).foldl
    (fun m l => max m (((s.cmds.find? fun c => c.id == l.2.1).map fun c => c.deadline).getD 0)) 0
  let keep := fun (e : Entry) => match e.phase with
    | .presented p => { e with phase := .presented { p with bound := p.pins.foldl (fun m o => max m ((o.map until_).getD 0)) p.bound } }
    | _ => e
  let s' := { s with locks := s.locks.filter fun l => !gone l }
  if out.isEmpty then s' else s'.mapThr fun _ t => { t with block := modifyAt t.block 0 keep }

/-- A buffered store is at its home (R320, R325): off the ring that brings it there; another package has acknowledged it. -/
def State.arrived (s : State) (p : PStore) : Bool :=
  if isRemote p.loc then p.st == .delivered
  else !rides p.v p.loc || (p.st == .out && !s.riding (.store p.id))

/-- A buffered store can be performed now (R136, R307): it is at its home, its line is not locked, its vcore is not moving. -/
def State.canPerform (s : State) (p : PStore) : Bool := !s.locked p.loc p.size && !s.isMoving p.loc && s.arrived p

/-- The stores a thread has buffered can all be performed now. -/
def State.canFlush (s : State) (tid : Nat) : Bool := s.storeBuf.all fun p => p.tid != tid || s.canPerform p

/-! ## The order of a thread's stores (R119 to R122) -/

/-- A buffered store has left its thread: for its home, or for a moving vcore that holds it (R307). -/
def State.left (s : State) (p : PStore) : Bool := p.st != .buffered || s.held.contains (.store p.id)

/-- Of two stores of one thread or command the later may not be performed before the earlier (R119, R121, R122): they touch the
same bytes, both are local, the later one is a release that covers someone, or they are no thread's. -/
def State.ordered (s : State) (a b : PStore) : Bool :=
  overlaps a.loc a.size b.loc b.size || (b.rel.any fun c => c.reaches) || (s.thr b.tid).isNone ||
  (homeDie a.loc == some (dieOf a.v) && homeDie b.loc == some (dieOf b.v))

/-- The stores of the same thread or command that went into the buffer before one. -/
def State.earlier (s : State) (p : PStore) : List PStore :=
  (s.storeBuf.takeWhile fun x => x.id != p.id).filter fun x => x.tid == p.tid

/-- The stores that one may not pass: those still in the buffer, which is first in, first out (R120), and those R122 orders
before it. -/
def State.storesAhead (s : State) (p : PStore) : List PStore :=
  (s.earlier p).filter fun x => !s.left x || s.ordered x p

/-- A store of the thread has been lost on its way to another package, or its kernel is ending, so that none of its releases
takes effect any more (R132). -/
def State.lostStore (s : State) (tid : Nat) : Bool :=
  (s.posted.any fun f => f.2.1 == tid && (f.2.2.1.cause == 18 || (f.2.2.1.cause == 19 && f.2.2.1.detail == 3))) ||
  match ((s.thr tid).bind fun t => t.kernel).bind s.kern with
  | some k => k.st == .faulting
  | none => false

/-- Appends a thread's streams have not had accepted: stream and position (R180). -/
def Thread.appends (t : Thread) : List (Nat × Nat) :=
  (List.range 8).flatMap fun j => match t.streams.getD j none with
    | some x => x.buf.map fun b => (j, b.1)
    | none => []

/-! ## Fences that see stores and commands go (R130, R138) -/

/-- The copy engine's commands. -/
def Eng.isCopy (e : Eng) : Bool :=
  match e with
  | .copy _ => true
  | _ => false

/-- The classes of a fence that are not drained yet (R130, R180): the stores, appends, and commands with their writes, that
it waits for and that are still there. -/
def State.undrained (s : State) (t : Thread) (mask : Nat) (stores cmds : List Nat) (apps : List (Nat × Nat)) : Nat :=
  let left := s.storeBuf.filter fun p => stores.contains p.id
  let live := s.cmds.filter fun c => cmds.contains c.id
  let bit := fun (n : Nat) (b : Bool) => if bitAt mask n && b then 2 ^ n else 0
  bit 0 ((left.any fun p => p.op == .write) || t.appends.any fun a => apps.contains a) + bit 2 (left.any fun p => p.op != .write) +
  bit 3 (live.any fun c => c.eng.isCopy) + bit 4 (live.any fun c => !c.eng.isCopy)

/-- Whether a fence's wait is over now: its success, where all its classes are drained (R130, R138). -/
def State.fenceVerdict (s : State) (tid : Nat) (t : Thread) (w : PWait) : Option Verdict :=
  if s.pt > w.deadline || s.lostStore tid then none else
  match w.kind with
  | .fence _ mask stores cmds apps => if s.undrained t mask stores cmds apps = 0 then some (s.success t 0 0) else none
  | .ifence stores => if s.storeBuf.any fun p => stores.contains p.id then none else some (s.success t 0 0)
  | _ => none

/-- A FENCEW that ends at E undrained: PARTIAL (R130). -/
def State.partialFence (s : State) (t : Thread) (mask : Nat) (stores cmds : List Nat) (apps : List (Nat × Nat)) : Verdict :=
  ⟨s.pt, 6, s.undrained t mask stores cmds apps, 0, 0⟩

/-- A pending fence that still waited in `old`, after stores were performed or commands ended: drained by E it succeeds, and
where E has passed it is PARTIAL with the classes undrained in `old` (R105, R130). -/
def State.seeFence (s old : State) (tid : Nat) (t : Thread) (w : PWait) : PWait :=
  match s.fenceVerdict tid t w with
  | some v => { w with verdict := some v }
  | none => match w.kind with
    | .fence _ mask stores cmds apps =>
      if w.deadline < s.pt then { w with verdict := some (old.partialFence ((old.thr tid).getD t) mask stores cmds apps) } else w
    | _ => w

/-- Every pending fence looked at after stores were performed or commands ended. -/
def State.seeFences (s old : State) : State := s.mapThr fun tid t => t.mapWaits (s.seeFence old tid t)

/-- The thread's buffered stores performed in order, as a release waits for (R126); the fences that waited for them see it.
Its callers ask `State.canFlush` first. -/
def State.release (s : State) (tid : Nat) : State :=
  let mine := s.storeBuf.filter fun p => p.tid == tid
  if mine.isEmpty then s
  else State.seeFences (mine.foldl State.performStore { s with storeBuf := s.storeBuf.filter fun p => p.tid != tid }) s

/-- A thread's release may take effect (R126, R132, R180): its buffered stores can all be performed, none was lost, and its
streams hold no append that is not accepted. -/
def State.canRelease (s : State) (tid : Nat) (t : Thread) : Bool := s.canFlush tid && t.appends.isEmpty && !s.lostStore tid

/-- What follows a thread's release; until it can be made the walk waits (R126). -/
def State.releasing (s : State) (tid : Nat) (t : Thread) (k : State → State) : State :=
  if s.canRelease tid t then k (s.release tid) else s

/-- What follows the thread's own buffered stores to some bytes, which an access does not pass (R119); until they can be performed
the walk waits. -/
def State.settling (s : State) (tid loc n : Nat) (k : State → State) : State :=
  if s.storeBuf.any fun p => p.tid == tid && overlaps p.loc p.size loc n then
    (if s.canFlush tid then k (s.release tid) else s)
  else k s

/-- An acquire (R126): the core's L1 loses every line not homed on its own die. The L1 of the model holds no others. -/
def State.acquire (s : State) (t : Thread) : State := { s with l1 := s.l1.filter fun l => l.v != t.vcore }

/-- An acquire that reads a doubleword (R117, R119, R123, R126). One whose scope does not reach the line's writer, or that the
writer's own scope does not cover, orders nothing: where `pick` says so, its core keeps what it holds but the line itself. -/
def State.acquireAt (s : State) (tid : Nat) (t : Thread) (scope : Scope) (loc : Nat) : State :=
  if s.pick == 3 && !s.syncs tid t scope loc then s.dropLine [t.vcore] loc else s.acquire t

/-- A line read from a home that is not local is held by the L1 (R117); in deterministic mode none is (R364). Of 256 lines
(R12) the one filled longest ago leaves: DESIGN CHOICE (log 36). -/
def State.fillL1 (s : State) (t : Thread) (va loc : Nat) : State :=
  if homeDie loc = some (dieOf t.vcore) || s.det t.ctx || isTcm loc || isIst loc || isSpad loc || s.bad loc 1 then s
  else
    let new : L1Line := ⟨t.vcore, t.ctx, va / 64, lineOf loc, (List.range 64).map fun i => s.byteAt (lineOf loc * 64 + i)⟩
    let rest := s.l1.filter fun l => !(l.v == t.vcore && l.ctx == t.ctx && l.line == lineOf loc)
    let mine := rest.filter fun l => l.v == t.vcore
    let old := if 256 ≤ mine.length then mine.head? else none
    { s with l1 := (rest.filter fun l => some l != old) ++ [new] }

end Sys2Proof.Machine
end

