-- ==== Sys2Proof/Machine/Retire.lean ====
section
/-!
DEFINITION. Sys2Proof/Machine/Retire.lean: the commit walk (04_threads R67 to R69) and the block boundary (R65, R110, R362):
committing the instruction at the walk's position, and what a thread does once its block has retired.
-/
namespace Sys2Proof.Machine

/-- A register write that commits: the register is full again, and a reply that filled it in the same ac is discarded and
counted (R71). -/
def Thread.commitX (ac : Nat) (t : Thread) (w : XWrite) : Thread :=
  if w.reg = 0 then t
  else
    let t' := { t.setX w.reg w.val with empty := t.empty.set w.reg.toNat none }
    if (t.hwNow ac).contains (.filled w.reg) then
      let t'' := Thread.noteBase { t' with hw := t.hw.filter fun h => h != .filled w.reg } ac 0x009 t.rdrop
      (t''.countCsr 0x009).noteHw ac (.counted 0x009)
    else t'

/-- A bit of a stream's byte of sbstat set (R182). -/
def Thread.setSb (t : Thread) (j bit : Nat) : Thread :=
  { t with sbstat := t.sbstat ||| BitVec.ofNat 64 (2 ^ (8 * j + bit)) }

/-- A pop that commits (R178): the kept vector goes, the committed position advances; `8 + j` is a pop past the end of stream
j, which sets OVER. -/
def Thread.commitPop (t : Thread) (p : Nat) : Thread :=
  if 8 ≤ p then t.setSb (p - 8) 5
  else
    { t with streams := modifyAt t.streams p fun o => o.map fun x => match x.kept with
        | [] => x
        | _ :: r => { x with kept := r, pos := min (x.pos + x.ty.lanes) x.total } }

/-- An append that commits (R178): it enters the engine's buffer, or is discarded past the end and sets OVER. Behind the SUNB of
its own block the register is ordinary again and takes the vector: DESIGN CHOICE (log 36). -/
def Thread.commitApp (pc : Word) (t : Thread) (a : Nat × Vec) : Thread :=
  match t.streams.getD a.1 none with
  | some x =>
    if x.total ≤ x.pos then t.setSb a.1 5
    else
      let p := min (x.pos + x.ty.lanes) x.total
      { t with streams := t.streams.set a.1 (some { x with buf := x.buf ++ [(x.pos, a.2, pc, t.logical)], pos := p, cur := p }) }
  | none => { t with v := t.v.set (24 + a.1) a.2 }

/-- The logical time after one more instruction (R364): those of handlers are not counted, so that a trap of the machine's own
leaves a context's order as it is (R365): DEDUCED (log 32). -/
def Thread.retired (t : Thread) : Nat := if t.level = 0 then t.logical + 1 else t.logical

/-- A thread after the entry at the walk's position commits its held writes (R68), CSR writes apart. -/
def Thread.commit (ac : Nat) (t : Thread) (e : Entry) : Thread :=
  let t := e.xw.foldl (Thread.commitX ac) { t with block := t.block.tail, logical := t.retired }
  let t := e.mw.foldl Thread.setM (e.vw.foldl Thread.setV t)
  let t := if t.light then t else { t with vflags := vflagsAfter t.vflags e.flags }
  e.app.foldl (Thread.commitApp e.pc) (e.pops.foldl Thread.commitPop t)

/-- The slot's stream context moved to the most recently used place (R181). -/
def State.touchStreams (s : State) (t : Thread) : State :=
  s.updVc t.vcore fun c => { c with resident := (c.resident.filter fun x => x != t.slot) ++ [t.slot] }

/-- The slot's stream context is resident (R181). -/
def State.streamsIn (s : State) (t : Thread) : Bool := (s.vc t.vcore).resident.contains t.slot

/-- A power-gated stream engine wakes to work (R351): unit 7. -/
def State.wakeStream (s : State) (v : Nat) : State :=
  if (s.vc v).powerGated.contains 7 then s.updVc v fun c => { c with powerGated := setErase c.powerGated 7 } else s

/-- Prefetched read data is discarded; the positions stay (R181), and so does a POISON vector that a deadline has already put
in place of data (R179). -/
def Thread.dropPrefetch (t : Thread) : Thread :=
  { t with streams := t.streams.map fun o => o.map fun x => { x with ready := x.ready.filter fun y => y.late } }

/-- A slot's stream context leaves the engine (R181); its buffered appends have been accepted. -/
def State.drainStreams (s : State) (tid : Nat) : State :=
  match s.thr tid with
  | some t =>
    (s.setThr tid t.dropPrefetch).updVc t.vcore fun c => { c with resident := c.resident.filter fun x => x != t.slot }
  | none => s

/-- The entry at the walk's position commits (R68): its held register and CSR writes are applied, in program order; an append
uses the slot's stream context (R181). -/
def State.commitHead (s : State) (tid : Nat) : State :=
  match s.thr tid with
  | none => s
  | some t =>
    match t.block with
    | [] => s
    | e :: _ =>
      let t' := t.commit s.ac e
      let s := if !e.app.isEmpty && s.streamsIn t then s.touchStreams t else s
      match e.csr with
      | some (n, op) => (s.setThr tid t').csrWrite tid t' n.toNat op
      | none => s.setThr tid t'

/-- The entry at the walk's position replaced. -/
def State.setHead (s : State) (tid : Nat) (e : Entry) : State :=
  s.updThr tid fun t => match t.block with
    | [] => t
    | _ :: r => { t with block := e :: r }

/-- A deferred instruction that has been performed: its results commit at once (R68). -/
def State.finish (s : State) (tid : Nat) (e : Entry) (xw : List XWrite) : State :=
  (s.setHead tid (e.performed xw)).commitHead tid

/-- A deferred instruction that writes one register. -/
def State.finishX (s : State) (tid : Nat) (e : Entry) (rd : Reg) (v : Word) : State := s.finish tid e [⟨rd, v, false⟩]

/-- The wait ceiling of a thread (R78, R79, R104). -/
def State.ceil (s : State) (t : Thread) : Nat := if t.light then s.ctxCeil t.ctx else t.wceil.toNat

/-- A thread parked on a stream register (R179): E by R104 from the descriptor's D, from now. -/
def State.parkStream (s : State) (tid : Nat) (t : Thread) (j : Nat) (dl : Word) : State :=
  let d := s.deadline dl (s.ceil t)
  let t := if t.run = .ready then { t with parkedAt := s.pt, reportedA := false, reportedB := false } else t
  s.setThr tid { t with run := .wait, wait := some ⟨.stream j, 0, d.1, d.2.1, d.2.2, none, 0⟩ }

/-- An append at the walk's position that finds its engine context elsewhere or its buffer of four vectors full (R179,
R181). -/
def State.appendBlocked (s : State) (t : Thread) (e : Entry) : Option (Nat × Word) :=
  (e.app.findSome? fun a => match t.streams.getD a.1 none with
    | some x => if x.pos < x.total && (!s.streamsIn t || 4 ≤ x.buf.length) then some (a.1, x.dl) else none
    | none => none)


/-- The wait-escalation trap of a thread at a block boundary (R110): `n` is its window count. -/
def State.escalate (s : State) (tid : Nat) (t : Thread) (n : Nat) : State :=
  (s.setThr tid { t with winCount := 0, escDue := none }).takeTrap tid ⟨2, 0, w64 n⟩ t.pc false

/-- A retired block (R65, R110, R362): the wait-escalation trap, then the step trap, else the thread is Ready. -/
def State.boundary (s : State) (tid : Nat) (t : Thread) : State :=
  let t' := { t with walking := false, run := .ready, issued := 0, snap := [] }
  match t.escDue with
  | some n => s.escalate tid t' n
  | none =>
  if t.level = 0 && ((s.vc t.vcore).steps.getD t.slot 0).getLsbD 0 then
    (s.setThr tid t').takeTrap tid ⟨5, 2, 0⟩ t.pc false
  else s.setThr tid t'

/-- The head holds a write of evcfg, which is a step of its own (R194). -/
def Entry.writesEvcfg (e : Entry) : Bool :=
  match e.csr with
  | some (n, _) => n == 0x007
  | none => false

/-- One step of a block's retirement (R68): the walk starts once no long result is outstanding; the entry at its position
faults or commits; after the last one the block has retired. Deferred instructions and stores are performed by their own
meanings. -/
def State.retireStep (s : State) (v sl : Nat) : State :=
  match s.inSlot v sl with
  | none => s
  | some (tid, t) =>
    if t.run ≠ .block then s
    else if !t.walking then
      if t.block.any fun e => e.st == .sent then s else s.setThr tid { t with walking := true }
    else match t.block with
      | [] => s.boundary tid t
      | e :: _ =>
        match e.st with
        | .faulted tr => s.takeTrap tid tr e.pc false
        | .sent => s
        | .done =>
          if e.deferred || !e.stores.isEmpty || e.writesEvcfg then s
          else match s.appendBlocked t e with
            | some (j, dl) => s.parkStream tid t j dl
            | none => s.commitHead tid

/-! ## Waits performed by the walk (R104 to R110) -/

/-- The TIMEOUT counts of a thread after a counted status (R110): tmocnt saturates; the window count belongs to the aligned
1 ms interval of package time, and past the limit it makes the wait-escalation trap due. -/
def Thread.countTimeout (t : Thread) (pt : Nat) : Thread :=
  let w := pt / 1000000
  let n := (if t.winIdx = w then t.winCount else 0) + 1
  { t.countCsr 0x115 with winCount := n, winIdx := w, escDue := if t.tmolim.toNat < n then some n else t.escDue }

/-- The registers a wait writes (R145, R152, R202: value and status; the others: status). A pair at x0 writes neither
(R34). -/
def WaitKind.writes (k : WaitKind) (rd : Reg) (v : Verdict) : List XWrite :=
  let st := status v.code v.detail v.aux
  match k with
  | .counter _ _ _ | .word _ _ _ | .recv _ _ => if rd = 0 then [] else [⟨rd, v.val, false⟩, ⟨nextReg rd, st, false⟩]
  | _ => [⟨rd, st, false⟩]

/-- The register that receives a wait's status. -/
def WaitKind.statusReg (k : WaitKind) (rd : Reg) : Reg :=
  match k with
  | .counter _ _ _ | .word _ _ _ | .recv _ _ => if rd = 0 then 0 else nextReg rd
  | _ => rd

/-- A wait's status counts under R110: a TIMEOUT that is no poll, or FENCEW's PARTIAL (R130) or BARW's WITHDRAWN (R270)
or SPAWN's FULL (R285) after a deadline that is not 0; only a status written to a register counts. -/
def PWait.counts (w : PWait) (v : Verdict) : Bool :=
  let full := match w.kind with
    | .spawn _ _ => v.code == 4
    | _ => false
  (w.kind.statusReg w.rd != 0) && !w.poll && (v.code == 1 || v.code == 6 || v.code == 5 || full)

/-- A wait that acquires with a verdict: on success (R125); a FENCEW that has drained its loads, copies or engine commands,
PARTIAL or not (R131, R134). -/
def WaitKind.acquires (k : WaitKind) (v : Verdict) : Bool :=
  let ok := v.code == 0 || v.code == 2
  match k with
  | .counter _ _ _ | .word _ _ _ | .barrier _ _ _ | .ttake _ => ok
  | .fence _ mask _ _ _ => (ok || v.code == 6) && [1, 3, 4].any fun n => bitAt mask n && !(v.code == 6 && bitAt v.detail n)
  | _ => false

/-- The line of a counter or word wait leaves the core's L1 as the wait ends, so that no later load returns a value older
than the one its home gave (R119). -/
def State.dropWaited (s : State) (t : Thread) (k : WaitKind) : State :=
  match k with
  | .counter loc _ _ | .word loc _ _ => { s with l1 := s.l1.filter fun l => !(l.v == t.vcore && l.line == lineOf loc) }
  | _ => s

/-- The acquire of a wait that succeeds (R125, R126): one on a doubleword that ends at its first test reads it then. -/
def State.acquireFor (s : State) (tid : Nat) (t : Thread) (parked : Bool) (k : WaitKind) : State :=
  match k with
  | .counter loc _ _ | .word loc _ _ => if parked then s.acquire t else s.acquireAt tid t .s loc
  | _ => s.acquire t

/-- The release fence a FENCEW has become: its stores class drained (R131). -/
def State.fenced (s : State) (tid : Nat) (t : Thread) (k : WaitKind) (v : Verdict) : Thread :=
  match k with
  | .fence scope mask _ _ _ =>
    if bitAt mask 0 && (v.code == 0 || v.code == 2 || (v.code == 6 && !bitAt v.detail 0)) then
      { t with fences := t.fences ++ [s.coverOf tid t scope] }
    else t
  | _ => t

/-- A wait that has ended (R105): its status is written, counted, and its instruction commits; a success acquires. -/
def State.endWait (s : State) (tid : Nat) (e : Entry) (w : PWait) (v : Verdict) : State :=
  let parked := (s.thr tid).any fun t => t.run == .wait
  let s := s.updThr tid fun t =>
    let t := s.fenced tid { t with run := .block, wait := none } w.kind v
    if w.counts v then t.countTimeout s.pt else t
  let s := match s.thr tid with
    | some t => if w.kind.acquires v then s.acquireFor tid t parked w.kind else s.dropWaited t w.kind
    | none => s
  s.finish tid e (w.kind.writes w.rd v)

/-- The thread parks in the walk on its head instruction (R64, R105). -/
def State.parkWait (s : State) (tid : Nat) (w : PWait) : State :=
  ({ s with nextId := s.nextId + 1 } : State).updThr tid fun t => { t with run := .wait, wait := some { w with order := s.nextId } }

/-- The wait of an instruction at its issue time Ti (R104): its E, whether it is a poll, whether the ceiling set E. -/
def State.newWait (s : State) (t : Thread) (k : WaitKind) (rd : Reg) (d : Word) : PWait :=
  let x := s.deadline d (s.ceil t)
  ⟨k, rd, x.1, x.2.1, x.2.2, none, 0⟩

/-- The same where the walk has begun the instruction before, its request held at a moving vcore since (R104, R307). -/
def State.begunWait (s : State) (t : Thread) (e : Entry) (k : WaitKind) (rd : Reg) (d : Word) : PWait :=
  match e.begun with
  | some x => ⟨k, rd, x.1, x.2.1, x.2.2, none, 0⟩
  | none => s.newWait t k rd d

/-- A wait whose walk begins before it can be performed: its Ti and E are those of now (R104). -/
def Entry.begin_ (e : Entry) (pt : Nat) (d : Nat × Bool × Bool) : Entry := { e with begun := some d, sentAt := pt }
/-- Ti of a wait (R104): now, or when its walk began. -/
def Entry.ti (e : Entry) (pt : Nat) : Nat := if e.begun.isSome then e.sentAt else pt

/-- A release before a wait that its walk has begun (R104, R126): until it can be made the walk waits, with E fixed. -/
def State.releasingWait (s : State) (tid : Nat) (t : Thread) (e : Entry) (d : Word) (k : State → State) : State :=
  if s.canRelease tid t then k (s.release tid)
  else if e.begun.isSome then s
  else s.setHead tid (e.begin_ s.pt (s.deadline d (s.ceil t)))

/-- What follows the thread's own stores to some bytes before a wait on them (R104, R119): until they can be performed the walk
waits, with E fixed. -/
def State.settlingWait (s : State) (tid : Nat) (t : Thread) (e : Entry) (d : Word) (loc n : Nat) (k : State → State) : State :=
  if (s.storeBuf.any fun p => p.tid == tid && overlaps p.loc p.size loc n) && !s.canFlush tid && e.begun.isNone then
    s.setHead tid (e.begin_ s.pt (s.deadline d (s.ceil t)))
  else s.settling tid loc n k

/-- A wait performed under R105: the first test, then TIMEOUT where E is not after Ti, else Parked-wait. `late` is the value
a TIMEOUT gives. -/
def State.performWait (s : State) (tid : Nat) (t : Thread) (e : Entry) (w : PWait) (first : Option Verdict) (late : Word) :
    State :=
  match first with
  | some v => s.endWait tid e w v
  | none => if w.deadline ≤ s.pt then s.endWait tid e w (s.timeout t w late) else s.parkWait tid w

/-- A wait that ends at once with a status of its own. -/
def State.refuseWait (s : State) (tid : Nat) (t : Thread) (e : Entry) (k : WaitKind) (rd : Reg) (d : Word)
    (code detail : Nat) : State :=
  s.endWait tid e (s.newWait t k rd d) ⟨s.pt, code, detail, 0, 0⟩

end Sys2Proof.Machine
end

