-- ==== Sys2Proof/Machine/Issue.lean ====
section
/-!
DEFINITION. Sys2Proof/Machine/Issue.lean: how a thread issues one instruction (04_threads R65 to R67, R71, R73, R178) and how
the walk performs a deferred one (R68): the frame every thread instruction's meaning is put into.
-/
namespace Sys2Proof.Machine

/-- The access R73 looks at: the address, size and kind of a load, store, far atomic or ACAS. -/
def followTarget (t : Thread) (i : Instr) : Option (Word × Nat × Access) :=
  let at_ := fun (rs1 : Reg) (imm : BitVec 12) => t.readX rs1 + imm.signExtend 64
  match i with
  | .lb _ rs1 imm _ | .lbu _ rs1 imm _ => some (at_ rs1 imm, 1, .read)
  | .lh _ rs1 imm _ | .lhu _ rs1 imm _ => some (at_ rs1 imm, 2, .read)
  | .lw _ rs1 imm _ | .lwu _ rs1 imm _ => some (at_ rs1 imm, 4, .read)
  | .ld _ rs1 imm _ => some (at_ rs1 imm, 8, .read)
  | .sb _ rs1 imm _ => some (at_ rs1 imm, 1, .write)
  | .sh _ rs1 imm _ => some (at_ rs1 imm, 2, .write)
  | .sw _ rs1 imm _ => some (at_ rs1 imm, 4, .write)
  | .sd _ rs1 imm _ => some (at_ rs1 imm, 8, .write)
  | .lda _ _ rs1 _ => some (t.readX rs1, 8, .read)
  | .stl _ rs1 _ _ => some (t.readX rs1, 8, .write)
  | .aadd _ rd rs1 _ _ | .aand _ rd rs1 _ _ | .aor _ rd rs1 _ _ | .axor _ rd rs1 _ _ | .amin _ rd rs1 _ _
  | .amax _ rd rs1 _ _ | .aminu _ rd rs1 _ _ | .amaxu _ rd rs1 _ _ | .aswap _ rd rs1 _ _ =>
    some (t.readX rs1, 8, if rd = 0 then .write else .rw)
  | .acasV _ rs1 _ _ _ | .acasS _ rs1 _ _ _ => some (t.readX rs1, 8, .rw)
  | _ => none

/-- The lowest-numbered free light slot of a cluster's cores that run a thread's kernel (R73). -/
def State.followSlot (s : State) (t : Thread) (cluster : Nat) : Option (Nat × Nat) :=
  match t.kernel.bind s.kern with
  | none => none
  | some k =>
    let cores := (k.cores.map fun x => x.v).filter fun v => clusterOf v == cluster
    let spots : List (Nat × Nat) := cores.flatMap fun v => [4, 5, 6, 7].filterMap fun sl =>
      if (s.inSlot v sl).isNone then some (v, sl) else none
    spots.foldl (fun o x => match o with
      | some y => if x.1 * 8 + x.2 < y.1 * 8 + y.2 then some x else some y
      | none => some x) none

/-- The cluster, with a free light slot there, that a follow thread moves to before an instruction (R73). -/
def State.followDest (s : State) (t : Thread) (i : Instr) : Option (Nat × Nat × Nat) :=
  if !(t.light && t.follow) then none else
  match followTarget t i with
  | some (va, n, acc) =>
    if va.toNat % n ≠ 0 then none else
    match s.locate t.accessor (stationOf t.vcore) va.toNat n acc 0 with
    | .error _ => none
    | .ok loc =>
      match homeCluster loc with
      | none => none
      | some c => if c = clusterOf t.vcore then none else (s.followSlot t c).map fun x => (c, x)
  | none => none

/-- The L1 of a core holds nothing once a thread arrives on it, so that no value older than one the thread has seen can
come from it (R119, R126). -/
def State.dropL1 (s : State) (v : Nat) : State := { s with l1 := s.l1.filter fun l => l.v != v }

/-- A thread moved to another core's slot (R73, R157): vcore and tslot change, and a move SPUR is pending. -/
def State.moveThread (s : State) (tid v sl : Nat) : State :=
  (s.updThr tid fun t => { t with place := .slot v sl, moveSpur := true, followTo := none }).dropL1 v

/-- The thread has an instruction of its block closed: it waits for retirement from now (R64, R111). -/
def Thread.close (t : Thread) (pt : Nat) : Thread :=
  { t with run := .block, walking := false, parkedAt := pt, reportedA := false, reportedB := false }

/-- An instruction joins its thread's block (R65): the block closes after a marker, a closing instruction, a fault found at
issue, or the sixteenth instruction. At trap level 0 it ends the match a breakpoint ignores (R362). -/
def State.append (s : State) (tid : Nat) (t : Thread) (f : Form) (e : Entry) (next : Word) : State :=
  let faulted := match e.st with
    | .faulted _ => true
    | _ => false
  let t' := { t with
    block := t.block ++ [e], issued := t.issued + 1, pc := if faulted then t.pc else next, issuedAt := s.ac + 1, followTo := none
    bpIgnore := if t.level = 0 then none else t.bpIgnore }
  s.setThr tid (if f.mark || f.closes || faulted || t.issued == 15 then t'.close s.pt else t')

/-- The faults of the word itself at issue (R33, R35, R27, R77, R178): a form or register closed to light threads, a stream
used the wrong way, a CSR rule, or a supervisor-only word. -/
def Thread.issueTrap (t : Thread) (i : Instr) (f : Form) : Option Trap :=
  if t.light && (!f.light || (f.reads ++ f.writes).any fun r => 16 ≤ r.toNat) then some ⟨16, 0, wordOf i⟩
  else if t.streamIllegal f then some ⟨16, 0, wordOf i⟩
  else match i with
    | .csrrw _ c _ _ | .csrrwi _ c _ _ => csrTrap t.light t.sup c.toNat true (wordOf i)
    | .csrrs _ c r _ | .csrrc _ c r _ | .csrrsi _ c r _ | .csrrci _ c r _ => csrTrap t.light t.sup c.toNat (r != 0) (wordOf i)
    | .cswap _ => if t.sup then none else some ⟨18, 5, wordOf i⟩
    | .xret _ =>
      if !t.sup then some ⟨18, 5, wordOf i⟩ else if t.level = 0 then some ⟨16, 0, wordOf i⟩ else none
    | _ => none

/-- A pop the instruction needs that the engine cannot give yet: its context is not resident or no vector is ready (R178,
R179, R181). -/
def State.popBlocked (s : State) (t : Thread) (pops : List Nat) : Option (Nat × Word) :=
  pops.findSome? fun j => match t.streams.getD j none with
    | some x => match x.pop with
      | .past => none
      | .vec y => if s.streamsIn t || y.late then none else some (j, x.dl)
      | .notReady => some (j, x.dl)
    | none => none

/-- The pops of an instruction as its entry keeps them: `8 + j` past the end (R178). -/
def Thread.popMarks (t : Thread) (pops : List Nat) : List Nat :=
  pops.map fun j => match t.streams.getD j none with
    | some x => match x.pop with
      | .past => 8 + j
      | _ => j
    | none => j

/-- The fault a popped vector carries, taken at the instruction that pops it (R180). -/
def Thread.popFault (t : Thread) (pops : List Nat) : Option Trap :=
  pickFault (pops.filterMap fun j => match t.streams.getD j none with
    | some x => match x.pop with
      | .vec y => y.fault
      | _ => none
    | none => none)

/-- The streams after the pops of one instruction (R178). -/
def Thread.takePops (t : Thread) (pops : List Nat) : Thread :=
  { t with streams := pops.foldl (fun l j => modifyAt l j fun o => o.map fun x => match x.pop with
      | .vec _ => x.popped
      | _ => x) t.streams }

/-- A thread as it is when it issues: at a block's first instruction the CSRs the machine may change are sampled (R97). -/
def State.blockStart (s : State) (t : Thread) : Thread :=
  if t.block.isEmpty && t.issued = 0 then { t with snap := s.snapshot t } else t

/-- The slot a follow thread goes to first, its block having ended before an access of another cluster (R73). -/
def State.followNow (s : State) (t : Thread) : Option (Nat × Nat) :=
  if t.block.isEmpty then t.followTo.bind fun c => s.followSlot t c else none

/-- The move an instruction asks for as it issues (R73); one whose block has ended for it is made or not by then. -/
def State.followAsk (s : State) (t : Thread) (i : Instr) : Option (Nat × Nat × Nat) :=
  if t.followTo.isSome then none else s.followDest t i

/-! ## The light-thread pool (R286) -/

/-- The class is shed (R340, R341). -/
def State.classShed (s : State) (c : Nat) : Bool := bitAt s.power.shed c

/-- The lowest free light slot of a core; none of one that moves (R306, log 22). -/
def State.lightSlot (s : State) (v : Nat) : Option Nat :=
  if s.vcoreMoving v then none else [4, 5, 6, 7].find? fun sl => (s.inSlot v sl).isNone

/-- Where a Waiting entry would go now (R286): its issuer's core, or else the lowest core of its kernel on the die, with a
free light slot. -/
def State.poolTarget (s : State) (die : Nat) (e : PoolEntry) : Option (Nat × Nat) :=
  match e.kernel.bind s.kern with
  | none => none
  | some k =>
    let able := (k.cores.filterMap fun c => if dieOf c.v = die && c.started then (s.lightSlot c.v).map fun sl => (c.v, sl) else none)
    let least : Option (Nat × Nat) := able.foldl (fun o x => match o with
      | some b => if x.1 < b.1 then some x else some b
      | none => some x) none
    (able.find? fun x => x.1 == e.core).orElse fun _ => least

/-- The entry a pool dispatches next (R286): class 0 first, shed classes skipped, first in first out within a class. -/
def State.poolNext (s : State) (die : Nat) : Option (Nat × PoolEntry × Nat × Nat) :=
  let able : List (Nat × PoolEntry × Nat × Nat) :=
    (s.pool die).zipIdx.filterMap fun (e, i) => if s.classShed e.cls then none else (s.poolTarget die e).map fun x => (i, e, x.1, x.2)
  able.foldl (fun o x => match o with
    | some b => if x.2.1.cls < b.2.1.cls then some x else some b
    | none => some x) none

/-! ## Deterministic mode (R364) -/

/-- The order of a context's requests (R364): logical time, vcore, slot, engine number, 0 for a thread's own. -/
abbrev DetKey := Nat × Nat × Nat × Nat

/-- A request before another one. -/
def keyLt (a b : DetKey) : Bool :=
  decide (a.1 < b.1) || (a.1 == b.1 && (decide (a.2.1 < b.2.1) || (a.2.1 == b.2.1 &&
    (decide (a.2.2.1 < b.2.2.1) || (a.2.2.1 == b.2.2.1 && decide (a.2.2.2 < b.2.2.2))))))

/-- The key of a thread's requests. -/
def Thread.detKey (t : Thread) : DetKey := (t.logical, t.vcore, t.slot, 0)

/-- The slot of a thread by its number. -/
def State.slotOf (s : State) (tid : Nat) : Nat := ((s.thr tid).map Thread.slot).getD 0

/-- The key of a buffered store. -/
def State.storeKey (s : State) (p : PStore) : DetKey := (p.logical, p.v, s.slotOf p.tid, 0)

/-- The engine number (R32, R211); 5 for the stations. -/
def Eng.no (e : Eng) : Nat :=
  match e with
  | .matrix _ => 0
  | .copy _ => 1
  | .ladle _ => 2
  | .collective _ => 3
  | .sdu _ => 4
  | .stations => 5

/-- The key of a command's accesses: the L of its XCMD or QPUSH (R364), its engine's number after a thread's own requests. -/
def State.cmdKey (s : State) (c : Cmd) : DetKey := (c.logical, c.v, s.slotOf c.tid, c.eng.no + 1)

/-- The key of an event packet: its L and its source. -/
def Packet.detKey (p : Packet) : DetKey := (p.logical, p.src, 0, 0)

/-- A command runs to its end of itself: not a COPY2 into a ring, a collective, nor a command of the SDU or the stations, which
wait for other agents. -/
def Cmd.selfEnding (c : Cmd) : Bool :=
  match c.eng with
  | .matrix _ | .ladle _ => true
  | .copy _ => !(c.op == 1 && fieldOf (c.body.getD 0 0) 34 1 == 1)
  | _ => false

/-- A command whose accesses later requests wait for (R364). A paused one, and one behind a queued class-0 command of its engine,
hold nobody back (log 32). -/
def State.holdsOrder (s : State) (c : Cmd) : Bool :=
  c.selfEnding && match c.st with
    | .running | .completing => true
    | .queued => c.cls == 0 || !(s.cmds.any fun x => x.eng == c.eng && x.st == .queued && x.cls == 0)
    | .paused _ => false

/-- A thread is parked in a wait that has not ended: it sends nothing until another request ends it. A park on a stream ends of
itself. -/
def Thread.waits (t : Thread) : Bool := t.run == .wait && t.wait.any fun w => w.verdict.isNone && match w.kind with
  | .stream _ => false
  | _ => true

/-- Every append a thread's streams still hold is behind a key. -/
def Thread.appendsBehind (t : Thread) (key : DetKey) : Bool :=
  t.streams.all fun o => o.all fun x => x.buf.all fun b => !keyLt (b.2.2.2, t.vcore, t.slot, 0) key

/-- A thread that is placed but has not started is at L 0 (R284, R364), one that a pool can dispatch now at 0 as well (R286). -/
def State.startsBehind (s : State) (ctx : Nat) (key : DetKey) : Bool :=
  (s.kernels.all fun e => e.2.ctx != ctx || e.2.st != .loading ||
    e.2.cores.all fun c => c.started || c.slots.all fun x => !keyLt (0, c.v, x.1, 0) key) &&
  s.pools.all fun e => match s.poolNext e.1 with
    | some (_, p, v, sl) => p.ctx != ctx || !keyLt (0, v, sl, 0) key
    | none => true

/-- A request of a deterministic context may be applied (R364): every other thread of the context that does not wait is behind
it in the order, and so is every thread that is to start, and every store, command and packet the context has on its way. -/
def State.detGate (s : State) (ctx : Nat) (key : DetKey) : Bool :=
  !s.det ctx ||
  (s.startsBehind ctx key &&
   (s.threads.all fun e => e.2.ctx != ctx || ((e.2.waits || !keyLt e.2.detKey key) && e.2.appendsBehind key)) &&
   (s.cmds.all fun c => c.ctx != ctx || !s.holdsOrder c || !keyLt (s.cmdKey c) key) &&
   (s.storeBuf.all fun p => p.ctx != ctx || !keyLt (s.storeKey p) key) &&
   (s.packets.all fun p => p.ctx != ctx || p.answer.isSome || p.resend || !keyLt p.detKey key))

/-- An instruction that reads the core's own TCM as it issues (R170, R172). -/
def readsTcm (i : Instr) : Bool :=
  match i with
  | .vlut _ _ _ _ _ | .scmac _ _ _ _ _ _ => true
  | _ => false

/-! ## Issue (R65, R66) -/

/-- What an instruction makes at issue: its entry and the next PC, from the state, its thread and a blank entry. -/
abbrev Body := State → Nat → Thread → Entry → Entry × Word
/-- What the walk makes of a deferred instruction. -/
abbrev Perform := State → Nat → Thread → Entry → State

/-- An instruction issues (R65, R66, R71, R73, R178); one that reads TCM as it issues waits for its place in R364's order. -/
def State.issue (s : State) (i : Instr) (f : Form) (body : Body) : State :=
  match s.current with
  | none => s
  | some (tid, t) =>
    if t.run ≠ .ready || t.shed || (readsTcm i && !s.detGate t.ctx t.detKey) then s else
    match s.followNow t with
    | some (v, sl) => s.moveThread tid v sl
    | none =>
    let t := s.blockStart t
    let s := { s with dbg := { s.dbg with issuedNow := mapSet s.dbg.issuedNow t.vcore (s.ac * 8 + t.slot) } }
    let e := Entry.blank i t.pc s.pt
    match t.issueTrap i f with
    | some x => s.append tid t f (e.fail x) t.pc
    | none =>
      match t.emptyRead f.reads with
      | some r =>
        s.setThr tid { t with run := .wait, wait := some ⟨.reply r, r, 0, false, false, none, 0⟩, parkedAt := s.pt,
                              reportedA := false, reportedB := false }
      | none =>
        let pops := t.popList f.vreads
        match s.popBlocked t pops with
        | some (j, dl) => s.parkStream tid t j dl
        | none =>
          match s.followAsk t i with
          | some (c, v, sl) =>
            if t.block.isEmpty then s.moveThread tid v sl else s.setThr tid { t.close s.pt with followTo := some c }
          | none =>
            let s := if pops.isEmpty || !s.streamsIn t then s else s.touchStreams t
            let r := body s tid t e
            let e := match t.popFault pops with
              | some x => r.1.fail x
              | none => r.1
            (s.append tid (t.takePops pops) f
              { e with pops := t.popMarks pops, deferred := e.deferred || (f.deferred && e.st == .done) } r.2).postReads tid t e

/-- The walk is at this instruction and has to perform it (R68). -/
def Thread.walksAt (t : Thread) (i : Instr) : Option Entry :=
  if t.run = .block && t.walking then
    match t.block with
    | e :: _ => if e.ins = i && e.st == .done && (e.deferred || !e.stores.isEmpty) then some e else none
    | [] => none
  else none

/-- The walk may perform an instruction now: R364's order lets it. TMARK never waits (R359). -/
def State.mayPerform (s : State) (t : Thread) (i : Instr) : Bool :=
  match i with
  | .tmark _ _ => true
  | _ => s.detGate t.ctx t.detKey

/-- One instruction of the thread in the current slot: performed where the walk stands at it, issued otherwise. -/
def State.threadOp (s : State) (i : Instr) (f : Form) (body : Body) (perf : Perform) : Host.Outcome State Fault Refusal :=
  match s.current with
  | none => .next s
  | some (tid, t) =>
    match t.walksAt i with
    | some e => if s.mayPerform t i then .next (perf s tid t e) else .next s
    | none => .next (s.issue i f body)

/-- The walk has nothing of its own to do for an instruction. -/
def noPerform : Perform := fun s _ _ _ => s

/-- An entry whose effect is all in the walk (R67): the operands it read at issue. -/
def deferBody (regs : List Reg) : Body := fun _ _ t e => ({ e with ops := regs.map t.readX }, t.pc + 4)

/-- An instruction with a short result (R66). -/
def State.shortOp (s : State) (i : Instr) (reads : List Reg) (rd : Reg) (mark : Bool) (f : Thread → Word) :
    Host.Outcome State Fault Refusal :=
  s.threadOp i (scalarForm reads [rd] mark) (fun _ _ t e => (e.short rd (f t), t.pc + 4)) noPerform

/-- An instruction with a long x result and flags (R66, R88, R89). -/
def State.longOp (s : State) (i : Instr) (reads : List Reg) (rd : Reg) (mark : Bool) (f : Thread → Word × Nat) :
    Host.Outcome State Fault Refusal :=
  s.threadOp i (scalarForm reads [rd] mark) (fun _ _ t e => ({ e.long rd (f t).1 with flags := (f t).2 }, t.pc + 4)) noPerform

end Sys2Proof.Machine
end

