-- ==== Sys2Proof/Machine/Scalar.lean ====
section
/-!
DEFINITION. Sys2Proof/Machine/Scalar.lean: the scalar integer, control, load, store, CSR and system instructions
(05_scalar_instructions R80 to R100).
-/
namespace Sys2Proof.Machine

/-- An I-format immediate (R23). -/
def immI (imm : BitVec 12) : Word := imm.signExtend 64
/-- The value of a U-format immediate (R81). -/
def immU (imm : BitVec 20) : Word := (imm ++ (0 : BitVec 12)).signExtend 64
/-- A branch offset in bytes (R83). -/
def offB (off : BitVec 12) : Word := (off ++ (0 : BitVec 1)).signExtend 64
/-- A jump offset in bytes (R82). -/
def offJ (off : BitVec 20) : Word := (off ++ (0 : BitVec 1)).signExtend 64

/-! ## Results (R85 to R90) -/

/-- A 32-bit result, sign-extended (R87). -/
def sext32 (x : BitVec 32) : Word := x.signExtend 64
/-- The low word of a register. -/
def low32 (x : Word) : BitVec 32 := x.setWidth 32
/-- Leading zero bits; 64 of 0 (R90). -/
def clz64 (x : Word) : Nat := if x = 0 then 64 else 63 - Nat.log2 x.toNat
/-- Trailing zero bits; 64 of 0 (R90). -/
def ctz64 (x : Word) : Nat := ((List.range 64).find? fun i => x.getLsbD i).getD 64
/-- The upper half of the exact product of two integers (R88). -/
def mulHigh (a b : Int) : Word := BitVec.ofInt 64 (a * b / (2 ^ 64 : Nat))
/-- Signed quotient and remainder towards zero, with the results and the flag of a zero divisor (R89). -/
def divS (n : Nat) (a b : BitVec n) : BitVec n × Flags := if b = 0 then (BitVec.allOnes n, flagDZ) else (a.sdiv b, 0)
def remS (n : Nat) (a b : BitVec n) : BitVec n × Flags := if b = 0 then (a, flagDZ) else (a.srem b, 0)
/-- Unsigned quotient and remainder (R89). -/
def divU (n : Nat) (a b : BitVec n) : BitVec n × Flags := if b = 0 then (BitVec.allOnes n, flagDZ) else (a.udiv b, 0)
def remU (n : Nat) (a b : BitVec n) : BitVec n × Flags := if b = 0 then (a, flagDZ) else (a.umod b, 0)
/-- A 32-bit result and its flags, sign-extended. -/
def wide (r : BitVec 32 × Flags) : Word × Flags := (sext32 r.1, r.2)

/-! ## Upper immediates, jumps and branches -/

/-- LUI (R81). -/
def execLui (rd : Reg) (imm : BitVec 20) (mark : Bool) (s : State) : Host.Outcome State Fault Refusal :=
  s.shortOp (.lui rd imm mark) [] rd mark fun _ => immU imm

/-- AUIPC (R81). -/
def execAuipc (rd : Reg) (imm : BitVec 20) (mark : Bool) (s : State) : Host.Outcome State Fault Refusal :=
  s.shortOp (.auipc rd imm mark) [] rd mark fun t => t.pc + immU imm

/-- A jump to a target with its link value (R82, R84): a misaligned target faults and leaves rd unwritten. -/
def jumpTo (e : Entry) (pc : Word) (rd : Reg) (target : Word) : Entry × Word :=
  if target.getLsbD 1 then (e.fail ⟨17, 1, target⟩, pc) else (e.short rd (pc + 4), target)

/-- JAL (R82). -/
def execJal (rd : Reg) (off : BitVec 20) (mark : Bool) (s : State) : Host.Outcome State Fault Refusal :=
  s.threadOp (.jal rd off mark) (scalarForm [] [rd] mark) (fun _ _ t e => jumpTo e t.pc rd (t.pc + offJ off)) noPerform

/-- JALR (R82). -/
def execJalr (rd rs1 : Reg) (imm : BitVec 12) (mark : Bool) (s : State) : Host.Outcome State Fault Refusal :=
  s.threadOp (.jalr rd rs1 imm mark) (scalarForm [rs1] [rd] mark)
    (fun _ _ t e => jumpTo e t.pc rd ((t.readX rs1 + immI imm) &&& ~~~ 1)) noPerform

/-- A branch (R83, R84): a taken one checks its target and continues there in the same block. -/
def State.branchOp (s : State) (i : Instr) (rs1 rs2 : Reg) (off : BitVec 12) (mark : Bool) (taken : Word → Word → Bool) :
    Host.Outcome State Fault Refusal :=
  s.threadOp i (scalarForm [rs1, rs2] [] mark)
    (fun _ _ t e =>
      let target := t.pc + offB off
      if taken (t.readX rs1) (t.readX rs2) then
        (if target.getLsbD 1 then (e.fail ⟨17, 1, target⟩, t.pc) else (e, target))
      else (e, t.pc + 4)) noPerform

/-- BEQ (R83). -/
def execBeq (rs1 rs2 : Reg) (off : BitVec 12) (mark : Bool) (s : State) : Host.Outcome State Fault Refusal :=
  s.branchOp (.beq rs1 rs2 off mark) rs1 rs2 off mark fun a b => a == b

/-- BNE (R83). -/
def execBne (rs1 rs2 : Reg) (off : BitVec 12) (mark : Bool) (s : State) : Host.Outcome State Fault Refusal :=
  s.branchOp (.bne rs1 rs2 off mark) rs1 rs2 off mark fun a b => a != b

/-- BLT (R83). -/
def execBlt (rs1 rs2 : Reg) (off : BitVec 12) (mark : Bool) (s : State) : Host.Outcome State Fault Refusal :=
  s.branchOp (.blt rs1 rs2 off mark) rs1 rs2 off mark fun a b => a.slt b

/-- BGE (R83). -/
def execBge (rs1 rs2 : Reg) (off : BitVec 12) (mark : Bool) (s : State) : Host.Outcome State Fault Refusal :=
  s.branchOp (.bge rs1 rs2 off mark) rs1 rs2 off mark fun a b => !a.slt b

/-- BLTU (R83). -/
def execBltu (rs1 rs2 : Reg) (off : BitVec 12) (mark : Bool) (s : State) : Host.Outcome State Fault Refusal :=
  s.branchOp (.bltu rs1 rs2 off mark) rs1 rs2 off mark fun a b => a.ult b

/-- BGEU (R83). -/
def execBgeu (rs1 rs2 : Reg) (off : BitVec 12) (mark : Bool) (s : State) : Host.Outcome State Fault Refusal :=
  s.branchOp (.bgeu rs1 rs2 off mark) rs1 rs2 off mark fun a b => !a.ult b

/-! ## Loads and stores (R91 to R95) -/

/-- A load the walk performs because a deferred instruction stood before it (R67): answered at once, or sent. -/
def State.walkLoads (s : State) (tid : Nat) (t : Thread) (e : Entry) : State :=
  let e' := s.issueLoads tid { t with block := [] } { e with deferred := false }
  match e'.st with
  | .faulted x => s.takeTrap tid x e.pc false
  | .sent => (s.setHead tid { e' with sentAt := s.pt }).postReads tid t e'
  | .done => if e'.app.isEmpty then (s.setHead tid e').commitHead tid else s.setHead tid e'

/-- A load (R91): one access, sent when it issues unless R67 defers it. -/
def State.loadOp (s : State) (i : Instr) (rd rs1 : Reg) (imm : BitVec 12) (mark : Bool) (size : Nat) (signed : Bool) :
    Host.Outcome State Fault Refusal :=
  s.threadOp i (scalarForm [rs1] [rd] mark)
    (fun s tid t e =>
      let va := (t.readX rs1 + immI imm).toNat
      (s.issueLoads tid t { e with loads := [⟨1, va, size, none, none⟩], post := .x rd size signed }, t.pc + 4))
    State.walkLoads

/-- An access lies in the scratchpad, whose tiles an engine may own when the walk comes to it (R221). -/
def State.mayBeOwned (s : State) (t : Thread) (x : StoreElem) : Bool :=
  match s.ownWindow t.accessor x.va x.size with
  | some (.ok loc) => isSpad loc
  | _ => false

/-- A store's accesses checked at issue (R92, R93): misalignment, and the core's own windows where all lie there; a fault of
accesses elsewhere, or of a tile that an engine owns, may come before one in a window (R174), so the walk finds both. -/
def State.issueStores (s : State) (t : Thread) (e : Entry) : Entry :=
  match pickFault (e.stores.filterMap fun x => misaligned x.va x.size) with
  | some x => e.fail x
  | none =>
    if !(e.stores.all fun x => (s.ownWindow t.accessor x.va x.size).isSome) || e.stores.any (s.mayBeOwned t) then e else
    match pickFault (e.stores.filterMap fun x => match s.ownWindow t.accessor x.va x.size with
      | some (.error f) => some f
      | _ => none) with
    | some x => e.fail x
    | none => e

/-- Where a store or posted atomic of the core's own windows goes; a store to an engine-owned tile faults (R93, R221). The spec
names no fault of an atomic there: DESIGN CHOICE, none (log 36). -/
def State.placeOwn (s : State) (t : Thread) (x : StoreElem) : Option (Except Trap Nat) :=
  (s.ownWindow t.accessor x.va x.size).map fun r => match r with
    | .ok loc => match (if x.op == .write then s.tileTrap x.va loc else none) with
      | some f => .error f
      | none => .ok loc
    | .error f => .error f

/-- The scope at which an instruction releases, if it does (R125, R151). -/
def relScope (i : Instr) : Option Scope :=
  match i with
  | .stl sc _ _ _ | .cadd sc _ _ _ _ | .aadd sc _ _ _ _ | .aand sc _ _ _ _ | .aor sc _ _ _ _ | .axor sc _ _ _ _ | .amin sc _ _ _ _
  | .amax sc _ _ _ _ | .aminu sc _ _ _ _ | .amaxu sc _ _ _ _ | .aswap sc _ _ _ _ => some sc
  | .acasV _ _ _ _ _ => some .v
  | .acasS _ _ _ _ _ => some .s
  | _ => none

/-- STL and the posted adds and atomics release before they are presented (R129, R143, R149). -/
def releasesFirst (i : Instr) : Bool := (relScope i).isSome

/-- A release that covers nobody beside its own thread orders nothing (R118, R258): where `pick` says so it waits for nothing. -/
def State.skipsRelease (s : State) (tid : Nat) (t : Thread) (i : Instr) : Bool :=
  s.pick == 3 && (relScope i).any fun sc => !(s.coverOf tid t sc).reaches

/-- A thread with the releases its next store completes: its fences, and the instruction's own. -/
def State.releaser (s : State) (tid : Nat) (t : Thread) (i : Instr) : Thread :=
  { t with fences := t.fences ++ ((relScope i).map fun sc => s.coverOf tid t sc).toList }

/-- Where one access of a presented store goes, checked by the core, the target core or the station (R93, R143, R149, R174,
R221). -/
def State.placeStore (s : State) (t : Thread) (x : StoreElem) : Except Trap Nat :=
  match s.placeOwn t x with
  | some r => r
  | none =>
    let detail := if x.op = .write then 1 else 2
    match inboxCheck (s.offCore t.accessor (stationOf t.vcore) x.va x.size .write detail) x.va with
    | .error f => .error f
    | .ok loc => match (if x.op == .write then s.tileTrap x.va loc else none) with
      | some f => .error f
      | none => .ok loc

/-- The accesses of a store as its targets are asked (R68, R316): the stations pin what they can translate. -/
def State.presentation (s : State) (t : Thread) (e : Entry) : Presented :=
  { since := s.pt, bound := 0, mark := s.nextId, checked := false
    pins := e.stores.map fun x =>
      if (s.ownWindow t.accessor x.va x.size).isSome || inFabric x.va then none
      else match s.placeStore t x with
        | .ok loc => some loc
        | .error _ => none }

/-- One store performed at once (R120): in TCM or scratchpad, or on a line homed on the thread's own die, where retirement
finds it performed (R130); the thread's earlier stores leave the buffer first. -/
def State.performOwn (s : State) (tid : Nat) (t : Thread) (pc : Word) (x : StoreElem) (loc : Nat) : State :=
  let s := s.release tid
  s.performStore (s.pstore tid t pc x loc)

/-- The locations of accesses that all passed. -/
def okLocs (l : List (StoreElem × Except Trap Nat)) : List (StoreElem × Nat) :=
  l.filterMap fun r => match r.2 with
    | .ok loc => some (r.1, loc)
    | .error _ => none

/-- The fault among accesses, if any (R94, R174). -/
def pickError (l : List (StoreElem × Except Trap Nat)) : Option Trap :=
  pickFault (l.filterMap fun r => match r.2 with
    | .error x => some x
    | .ok _ => none)

/-- The fences of a thread whose next store, of one access or more, has been accepted (R131). -/
def State.endFences (s : State) (tid n : Nat) : State := if n = 0 then s else s.updThr tid fun t => { t with fences := [] }

/-- A store at the walk's position (R68, R174): performed at once where all its accesses are in the core's own windows, else
presented to its targets, whose answer STORE_ACCEPTANCE gives. -/
def State.walkStores (s : State) (tid : Nat) (t : Thread) (e : Entry) : State :=
  match e.phase with
  | .fresh =>
    let own := e.stores.map fun x => (x, s.placeOwn t x)
    if own.all fun r => r.2.isSome then
      let rs : List (StoreElem × Except Trap Nat) := own.map fun r => (r.1, r.2.getD (.ok 0))
      match pickError rs with
      | some x => s.takeTrap tid x e.pc false
      | none =>
        if !s.canFlush tid || (releasesFirst e.ins && !t.appends.isEmpty) then s else
        let t' := s.releaser tid t e.ins
        let s := (okLocs rs).foldl (fun s r => s.performOwn tid t' e.pc r.1 r.2) s
        (s.finish tid e e.xw).endFences tid rs.length
    else s.setHead tid { e with phase := .presented (s.presentation t e) }
  | _ => s

/-- A scalar store (R91): held until the walk presents it. -/
def State.storeOp (s : State) (i : Instr) (rs2 rs1 : Reg) (imm : BitVec 12) (mark : Bool) (size : Nat) :
    Host.Outcome State Fault Refusal :=
  s.threadOp i (scalarForm [rs1, rs2] [] mark)
    (fun s _ t e =>
      let va := (t.readX rs1 + immI imm).toNat
      (s.issueStores t { e with stores := [⟨va, size, (t.readX rs2).toNat % 2 ^ (8 * size), .write⟩] }, t.pc + 4))
    State.walkStores

/-- LB (R91). -/
def execLb (rd rs1 : Reg) (imm : BitVec 12) (mark : Bool) (s : State) : Host.Outcome State Fault Refusal :=
  s.loadOp (.lb rd rs1 imm mark) rd rs1 imm mark 1 true

/-- LH (R91). -/
def execLh (rd rs1 : Reg) (imm : BitVec 12) (mark : Bool) (s : State) : Host.Outcome State Fault Refusal :=
  s.loadOp (.lh rd rs1 imm mark) rd rs1 imm mark 2 true

/-- LW (R91). -/
def execLw (rd rs1 : Reg) (imm : BitVec 12) (mark : Bool) (s : State) : Host.Outcome State Fault Refusal :=
  s.loadOp (.lw rd rs1 imm mark) rd rs1 imm mark 4 true

/-- LD (R91). -/
def execLd (rd rs1 : Reg) (imm : BitVec 12) (mark : Bool) (s : State) : Host.Outcome State Fault Refusal :=
  s.loadOp (.ld rd rs1 imm mark) rd rs1 imm mark 8 false

/-- LBU (R91). -/
def execLbu (rd rs1 : Reg) (imm : BitVec 12) (mark : Bool) (s : State) : Host.Outcome State Fault Refusal :=
  s.loadOp (.lbu rd rs1 imm mark) rd rs1 imm mark 1 false

/-- LHU (R91). -/
def execLhu (rd rs1 : Reg) (imm : BitVec 12) (mark : Bool) (s : State) : Host.Outcome State Fault Refusal :=
  s.loadOp (.lhu rd rs1 imm mark) rd rs1 imm mark 2 false

/-- LWU (R91). -/
def execLwu (rd rs1 : Reg) (imm : BitVec 12) (mark : Bool) (s : State) : Host.Outcome State Fault Refusal :=
  s.loadOp (.lwu rd rs1 imm mark) rd rs1 imm mark 4 false

/-- SB (R91). -/
def execSb (rs2 rs1 : Reg) (imm : BitVec 12) (mark : Bool) (s : State) : Host.Outcome State Fault Refusal :=
  s.storeOp (.sb rs2 rs1 imm mark) rs2 rs1 imm mark 1

/-- SH (R91). -/
def execSh (rs2 rs1 : Reg) (imm : BitVec 12) (mark : Bool) (s : State) : Host.Outcome State Fault Refusal :=
  s.storeOp (.sh rs2 rs1 imm mark) rs2 rs1 imm mark 2

/-- SW (R91). -/
def execSw (rs2 rs1 : Reg) (imm : BitVec 12) (mark : Bool) (s : State) : Host.Outcome State Fault Refusal :=
  s.storeOp (.sw rs2 rs1 imm mark) rs2 rs1 imm mark 4

/-- SD (R91). -/
def execSd (rs2 rs1 : Reg) (imm : BitVec 12) (mark : Bool) (s : State) : Host.Outcome State Fault Refusal :=
  s.storeOp (.sd rs2 rs1 imm mark) rs2 rs1 imm mark 8

/-! ## Integer ALU (R85 to R87, R90) -/

/-- ADDI (R85). -/
def execAddi (rd rs1 : Reg) (imm : BitVec 12) (mark : Bool) (s : State) : Host.Outcome State Fault Refusal :=
  s.shortOp (.addi rd rs1 imm mark) [rs1] rd mark fun t => let a := t.readX rs1; a + immI imm

/-- SLTI (R85). -/
def execSlti (rd rs1 : Reg) (imm : BitVec 12) (mark : Bool) (s : State) : Host.Outcome State Fault Refusal :=
  s.shortOp (.slti rd rs1 imm mark) [rs1] rd mark fun t => let a := t.readX rs1; boolWord (a.slt (immI imm))

/-- SLTIU (R85). -/
def execSltiu (rd rs1 : Reg) (imm : BitVec 12) (mark : Bool) (s : State) : Host.Outcome State Fault Refusal :=
  s.shortOp (.sltiu rd rs1 imm mark) [rs1] rd mark fun t => let a := t.readX rs1; boolWord (a.ult (immI imm))

/-- XORI (R85). -/
def execXori (rd rs1 : Reg) (imm : BitVec 12) (mark : Bool) (s : State) : Host.Outcome State Fault Refusal :=
  s.shortOp (.xori rd rs1 imm mark) [rs1] rd mark fun t => let a := t.readX rs1; a ^^^ immI imm

/-- ORI (R85). -/
def execOri (rd rs1 : Reg) (imm : BitVec 12) (mark : Bool) (s : State) : Host.Outcome State Fault Refusal :=
  s.shortOp (.ori rd rs1 imm mark) [rs1] rd mark fun t => let a := t.readX rs1; a ||| immI imm

/-- ANDI (R85). -/
def execAndi (rd rs1 : Reg) (imm : BitVec 12) (mark : Bool) (s : State) : Host.Outcome State Fault Refusal :=
  s.shortOp (.andi rd rs1 imm mark) [rs1] rd mark fun t => let a := t.readX rs1; a &&& immI imm

/-- ADDIW (R87). -/
def execAddiw (rd rs1 : Reg) (imm : BitVec 12) (mark : Bool) (s : State) : Host.Outcome State Fault Refusal :=
  s.shortOp (.addiw rd rs1 imm mark) [rs1] rd mark fun t => let a := t.readX rs1; sext32 (low32 a + low32 (immI imm))

/-- SLLI (R85). -/
def execSlli (rd rs1 : Reg) (sh : BitVec 6) (mark : Bool) (s : State) : Host.Outcome State Fault Refusal :=
  s.shortOp (.slli rd rs1 sh mark) [rs1] rd mark fun t => let a := t.readX rs1; a <<< sh.toNat

/-- SRLI (R85). -/
def execSrli (rd rs1 : Reg) (sh : BitVec 6) (mark : Bool) (s : State) : Host.Outcome State Fault Refusal :=
  s.shortOp (.srli rd rs1 sh mark) [rs1] rd mark fun t => let a := t.readX rs1; a >>> sh.toNat

/-- SRAI (R85). -/
def execSrai (rd rs1 : Reg) (sh : BitVec 6) (mark : Bool) (s : State) : Host.Outcome State Fault Refusal :=
  s.shortOp (.srai rd rs1 sh mark) [rs1] rd mark fun t => let a := t.readX rs1; a.sshiftRight sh.toNat

/-- SLLIW (R87). -/
def execSlliw (rd rs1 : Reg) (sh : BitVec 5) (mark : Bool) (s : State) : Host.Outcome State Fault Refusal :=
  s.shortOp (.slliw rd rs1 sh mark) [rs1] rd mark fun t => let a := t.readX rs1; sext32 (low32 a <<< sh.toNat)

/-- SRLIW (R87). -/
def execSrliw (rd rs1 : Reg) (sh : BitVec 5) (mark : Bool) (s : State) : Host.Outcome State Fault Refusal :=
  s.shortOp (.srliw rd rs1 sh mark) [rs1] rd mark fun t => let a := t.readX rs1; sext32 (low32 a >>> sh.toNat)

/-- SRAIW (R87). -/
def execSraiw (rd rs1 : Reg) (sh : BitVec 5) (mark : Bool) (s : State) : Host.Outcome State Fault Refusal :=
  s.shortOp (.sraiw rd rs1 sh mark) [rs1] rd mark fun t => let a := t.readX rs1; sext32 ((low32 a).sshiftRight sh.toNat)

/-- CLZ (R90). -/
def execClz (rd rs1 : Reg) (mark : Bool) (s : State) : Host.Outcome State Fault Refusal :=
  s.shortOp (.clz rd rs1 mark) [rs1] rd mark fun t => let a := t.readX rs1; w64 (clz64 a)

/-- CTZ (R90). -/
def execCtz (rd rs1 : Reg) (mark : Bool) (s : State) : Host.Outcome State Fault Refusal :=
  s.shortOp (.ctz rd rs1 mark) [rs1] rd mark fun t => let a := t.readX rs1; w64 (ctz64 a)

/-- CPOP (R90). -/
def execCpop (rd rs1 : Reg) (mark : Bool) (s : State) : Host.Outcome State Fault Refusal :=
  s.shortOp (.cpop rd rs1 mark) [rs1] rd mark fun t => let a := t.readX rs1; w64 (popcount a.toNat 64)

/-- ADD (R86). -/
def execAdd (rd rs1 rs2 : Reg) (mark : Bool) (s : State) : Host.Outcome State Fault Refusal :=
  s.shortOp (.add rd rs1 rs2 mark) [rs1, rs2] rd mark fun t => let a := t.readX rs1; let b := t.readX rs2; a + b

/-- SUB (R86). -/
def execSub (rd rs1 rs2 : Reg) (mark : Bool) (s : State) : Host.Outcome State Fault Refusal :=
  s.shortOp (.sub rd rs1 rs2 mark) [rs1, rs2] rd mark fun t => let a := t.readX rs1; let b := t.readX rs2; a - b

/-- SLL (R86). -/
def execSll (rd rs1 rs2 : Reg) (mark : Bool) (s : State) : Host.Outcome State Fault Refusal :=
  s.shortOp (.sll rd rs1 rs2 mark) [rs1, rs2] rd mark fun t => let a := t.readX rs1; let b := t.readX rs2; a <<< (b.toNat % 64)

/-- SLT (R86). -/
def execSlt (rd rs1 rs2 : Reg) (mark : Bool) (s : State) : Host.Outcome State Fault Refusal :=
  s.shortOp (.slt rd rs1 rs2 mark) [rs1, rs2] rd mark fun t => let a := t.readX rs1; let b := t.readX rs2; boolWord (a.slt b)

/-- SLTU (R86). -/
def execSltu (rd rs1 rs2 : Reg) (mark : Bool) (s : State) : Host.Outcome State Fault Refusal :=
  s.shortOp (.sltu rd rs1 rs2 mark) [rs1, rs2] rd mark fun t => let a := t.readX rs1; let b := t.readX rs2; boolWord (a.ult b)

/-- XOR (R86). -/
def execXor (rd rs1 rs2 : Reg) (mark : Bool) (s : State) : Host.Outcome State Fault Refusal :=
  s.shortOp (.xor rd rs1 rs2 mark) [rs1, rs2] rd mark fun t => let a := t.readX rs1; let b := t.readX rs2; a ^^^ b

/-- SRL (R86). -/
def execSrl (rd rs1 rs2 : Reg) (mark : Bool) (s : State) : Host.Outcome State Fault Refusal :=
  s.shortOp (.srl rd rs1 rs2 mark) [rs1, rs2] rd mark fun t => let a := t.readX rs1; let b := t.readX rs2; a >>> (b.toNat % 64)

/-- SRA (R86). -/
def execSra (rd rs1 rs2 : Reg) (mark : Bool) (s : State) : Host.Outcome State Fault Refusal :=
  s.shortOp (.sra rd rs1 rs2 mark) [rs1, rs2] rd mark fun t => let a := t.readX rs1; let b := t.readX rs2; a.sshiftRight (b.toNat % 64)

/-- OR (R86). -/
def execOr (rd rs1 rs2 : Reg) (mark : Bool) (s : State) : Host.Outcome State Fault Refusal :=
  s.shortOp (.or rd rs1 rs2 mark) [rs1, rs2] rd mark fun t => let a := t.readX rs1; let b := t.readX rs2; a ||| b

/-- AND (R86). -/
def execAnd (rd rs1 rs2 : Reg) (mark : Bool) (s : State) : Host.Outcome State Fault Refusal :=
  s.shortOp (.and rd rs1 rs2 mark) [rs1, rs2] rd mark fun t => let a := t.readX rs1; let b := t.readX rs2; a &&& b

/-- ORN (R90). -/
def execOrn (rd rs1 rs2 : Reg) (mark : Bool) (s : State) : Host.Outcome State Fault Refusal :=
  s.shortOp (.orn rd rs1 rs2 mark) [rs1, rs2] rd mark fun t => let a := t.readX rs1; let b := t.readX rs2; a ||| ~~~ b

/-- ANDN (R90). -/
def execAndn (rd rs1 rs2 : Reg) (mark : Bool) (s : State) : Host.Outcome State Fault Refusal :=
  s.shortOp (.andn rd rs1 rs2 mark) [rs1, rs2] rd mark fun t => let a := t.readX rs1; let b := t.readX rs2; a &&& ~~~ b

/-- MIN (R90). -/
def execMin (rd rs1 rs2 : Reg) (mark : Bool) (s : State) : Host.Outcome State Fault Refusal :=
  s.shortOp (.min rd rs1 rs2 mark) [rs1, rs2] rd mark fun t => let a := t.readX rs1; let b := t.readX rs2; if a.slt b then a else b

/-- MINU (R90). -/
def execMinu (rd rs1 rs2 : Reg) (mark : Bool) (s : State) : Host.Outcome State Fault Refusal :=
  s.shortOp (.minu rd rs1 rs2 mark) [rs1, rs2] rd mark fun t => let a := t.readX rs1; let b := t.readX rs2; if a.ult b then a else b

/-- MAX (R90). -/
def execMax (rd rs1 rs2 : Reg) (mark : Bool) (s : State) : Host.Outcome State Fault Refusal :=
  s.shortOp (.max rd rs1 rs2 mark) [rs1, rs2] rd mark fun t => let a := t.readX rs1; let b := t.readX rs2; if a.slt b then b else a

/-- MAXU (R90). -/
def execMaxu (rd rs1 rs2 : Reg) (mark : Bool) (s : State) : Host.Outcome State Fault Refusal :=
  s.shortOp (.maxu rd rs1 rs2 mark) [rs1, rs2] rd mark fun t => let a := t.readX rs1; let b := t.readX rs2; if a.ult b then b else a

/-- SH1ADD (R90). -/
def execSh1add (rd rs1 rs2 : Reg) (mark : Bool) (s : State) : Host.Outcome State Fault Refusal :=
  s.shortOp (.sh1add rd rs1 rs2 mark) [rs1, rs2] rd mark fun t => let a := t.readX rs1; let b := t.readX rs2; b + (a <<< 1)

/-- SH2ADD (R90). -/
def execSh2add (rd rs1 rs2 : Reg) (mark : Bool) (s : State) : Host.Outcome State Fault Refusal :=
  s.shortOp (.sh2add rd rs1 rs2 mark) [rs1, rs2] rd mark fun t => let a := t.readX rs1; let b := t.readX rs2; b + (a <<< 2)

/-- SH3ADD (R90). -/
def execSh3add (rd rs1 rs2 : Reg) (mark : Bool) (s : State) : Host.Outcome State Fault Refusal :=
  s.shortOp (.sh3add rd rs1 rs2 mark) [rs1, rs2] rd mark fun t => let a := t.readX rs1; let b := t.readX rs2; b + (a <<< 3)

/-- ADDW (R87). -/
def execAddw (rd rs1 rs2 : Reg) (mark : Bool) (s : State) : Host.Outcome State Fault Refusal :=
  s.shortOp (.addw rd rs1 rs2 mark) [rs1, rs2] rd mark fun t => let a := t.readX rs1; let b := t.readX rs2; sext32 (low32 a + low32 b)

/-- SUBW (R87). -/
def execSubw (rd rs1 rs2 : Reg) (mark : Bool) (s : State) : Host.Outcome State Fault Refusal :=
  s.shortOp (.subw rd rs1 rs2 mark) [rs1, rs2] rd mark fun t => let a := t.readX rs1; let b := t.readX rs2; sext32 (low32 a - low32 b)

/-- SLLW (R87). -/
def execSllw (rd rs1 rs2 : Reg) (mark : Bool) (s : State) : Host.Outcome State Fault Refusal :=
  s.shortOp (.sllw rd rs1 rs2 mark) [rs1, rs2] rd mark fun t => let a := t.readX rs1; let b := t.readX rs2; sext32 (low32 a <<< (b.toNat % 32))

/-- SRLW (R87). -/
def execSrlw (rd rs1 rs2 : Reg) (mark : Bool) (s : State) : Host.Outcome State Fault Refusal :=
  s.shortOp (.srlw rd rs1 rs2 mark) [rs1, rs2] rd mark fun t => let a := t.readX rs1; let b := t.readX rs2; sext32 (low32 a >>> (b.toNat % 32))

/-- SRAW (R87). -/
def execSraw (rd rs1 rs2 : Reg) (mark : Bool) (s : State) : Host.Outcome State Fault Refusal :=
  s.shortOp (.sraw rd rs1 rs2 mark) [rs1, rs2] rd mark fun t => let a := t.readX rs1; let b := t.readX rs2; sext32 ((low32 a).sshiftRight (b.toNat % 32))

/-! ## Multiply and divide (R88, R89) -/

/-- MUL (R88). -/
def execMul (rd rs1 rs2 : Reg) (mark : Bool) (s : State) : Host.Outcome State Fault Refusal :=
  s.longOp (.mul rd rs1 rs2 mark) [rs1, rs2] rd mark fun t => let a := t.readX rs1; let b := t.readX rs2; (a * b, 0)

/-- MULH (R88). -/
def execMulh (rd rs1 rs2 : Reg) (mark : Bool) (s : State) : Host.Outcome State Fault Refusal :=
  s.longOp (.mulh rd rs1 rs2 mark) [rs1, rs2] rd mark fun t => let a := t.readX rs1; let b := t.readX rs2; (mulHigh a.toInt b.toInt, 0)

/-- MULHSU (R88). -/
def execMulhsu (rd rs1 rs2 : Reg) (mark : Bool) (s : State) : Host.Outcome State Fault Refusal :=
  s.longOp (.mulhsu rd rs1 rs2 mark) [rs1, rs2] rd mark fun t => let a := t.readX rs1; let b := t.readX rs2; (mulHigh a.toInt b.toNat, 0)

/-- MULHU (R88). -/
def execMulhu (rd rs1 rs2 : Reg) (mark : Bool) (s : State) : Host.Outcome State Fault Refusal :=
  s.longOp (.mulhu rd rs1 rs2 mark) [rs1, rs2] rd mark fun t => let a := t.readX rs1; let b := t.readX rs2; (mulHigh a.toNat b.toNat, 0)

/-- DIV (R89). -/
def execDiv (rd rs1 rs2 : Reg) (mark : Bool) (s : State) : Host.Outcome State Fault Refusal :=
  s.longOp (.div rd rs1 rs2 mark) [rs1, rs2] rd mark fun t => let a := t.readX rs1; let b := t.readX rs2; divS 64 a b

/-- DIVU (R89). -/
def execDivu (rd rs1 rs2 : Reg) (mark : Bool) (s : State) : Host.Outcome State Fault Refusal :=
  s.longOp (.divu rd rs1 rs2 mark) [rs1, rs2] rd mark fun t => let a := t.readX rs1; let b := t.readX rs2; divU 64 a b

/-- REM (R89). -/
def execRem (rd rs1 rs2 : Reg) (mark : Bool) (s : State) : Host.Outcome State Fault Refusal :=
  s.longOp (.rem rd rs1 rs2 mark) [rs1, rs2] rd mark fun t => let a := t.readX rs1; let b := t.readX rs2; remS 64 a b

/-- REMU (R89). -/
def execRemu (rd rs1 rs2 : Reg) (mark : Bool) (s : State) : Host.Outcome State Fault Refusal :=
  s.longOp (.remu rd rs1 rs2 mark) [rs1, rs2] rd mark fun t => let a := t.readX rs1; let b := t.readX rs2; remU 64 a b

/-- MULW (R88). -/
def execMulw (rd rs1 rs2 : Reg) (mark : Bool) (s : State) : Host.Outcome State Fault Refusal :=
  s.longOp (.mulw rd rs1 rs2 mark) [rs1, rs2] rd mark fun t => let a := t.readX rs1; let b := t.readX rs2; (sext32 (low32 a * low32 b), 0)

/-- DIVW (R89). -/
def execDivw (rd rs1 rs2 : Reg) (mark : Bool) (s : State) : Host.Outcome State Fault Refusal :=
  s.longOp (.divw rd rs1 rs2 mark) [rs1, rs2] rd mark fun t => let a := t.readX rs1; let b := t.readX rs2; wide (divS 32 (low32 a) (low32 b))

/-- DIVUW (R89). -/
def execDivuw (rd rs1 rs2 : Reg) (mark : Bool) (s : State) : Host.Outcome State Fault Refusal :=
  s.longOp (.divuw rd rs1 rs2 mark) [rs1, rs2] rd mark fun t => let a := t.readX rs1; let b := t.readX rs2; wide (divU 32 (low32 a) (low32 b))

/-- REMW (R89). -/
def execRemw (rd rs1 rs2 : Reg) (mark : Bool) (s : State) : Host.Outcome State Fault Refusal :=
  s.longOp (.remw rd rs1 rs2 mark) [rs1, rs2] rd mark fun t => let a := t.readX rs1; let b := t.readX rs2; wide (remS 32 (low32 a) (low32 b))

/-- REMUW (R89). -/
def execRemuw (rd rs1 rs2 : Reg) (mark : Bool) (s : State) : Host.Outcome State Fault Refusal :=
  s.longOp (.remuw rd rs1 rs2 mark) [rs1, rs2] rd mark fun t => let a := t.readX rs1; let b := t.readX rs2; wide (remU 32 (low32 a) (low32 b))

/-! ## System instructions (R96 to R100) -/

/-- ECALL (R99): the environment-call trap, in the walk. -/
def execEcall (mark : Bool) (s : State) : Host.Outcome State Fault Refusal :=
  s.threadOp (.ecall mark) (deferredForm [] [] mark) (deferBody []) fun s tid _ e => s.takeTrap tid ⟨6, 0, 0⟩ e.pc false

/-- EBREAK (R99, R362): the debug trap with detail 3, in the walk. -/
def execEbreak (mark : Bool) (s : State) : Host.Outcome State Fault Refusal :=
  s.threadOp (.ebreak mark) (deferredForm [] [] mark) (deferBody []) fun s tid _ e => s.takeTrap tid ⟨5, 3, 0⟩ e.pc false

/-- A return from a trap (R100, R295): bank, mode, level and PC restored, a pending wait resumed; a wait-escalation trap that
is due is taken at this boundary (R110). -/
def State.returnFromTrap (s : State) (tid : Nat) (t : Thread) : State :=
  let t' := t.xret
  match t'.run, t'.escDue with
  | .ready, some n => (s.setThr tid { t' with winCount := 0, escDue := none }).takeTrap tid ⟨2, 0, w64 n⟩ t'.pc false
  | _, _ => s.setThr tid t'

/-- XRET (R100): it closes its block, and the walk applies it after every earlier instruction. -/
def execXret (mark : Bool) (s : State) : Host.Outcome State Fault Refusal :=
  s.threadOp (.xret mark) { deferredForm [] [] mark with closes := true } (deferBody []) fun s tid t _ => s.returnFromTrap tid t

/-- A CSR instruction (R96, R97): the value the CSR held at the start of the block, cycle and pt as they are now; the write is
held for the walk. A read of pt is a long result. -/
def csrBody (rd : Reg) (csr : BitVec 12) (reads : Bool) (op : Option CsrOp) : Body := fun s _ t e =>
  let xw := if reads then [⟨rd, s.csrSample t csr.toNat, csr != 0xC01⟩] else []
  ({ e with xw := xw, csr := op.map fun o => (csr, o) }, t.pc + 4)

/-- CSRRW (R96). -/
def execCsrrw (rd : Reg) (csr : BitVec 12) (rs1 : Reg) (mark : Bool) (s : State) : Host.Outcome State Fault Refusal :=
  s.threadOp (.csrrw rd csr rs1 mark) (scalarForm [rs1] [rd] mark)
    (fun s tid t e => csrBody rd csr (rd != 0) (some (.write (t.readX rs1))) s tid t e) noPerform

/-- CSRRS (R96). -/
def execCsrrs (rd : Reg) (csr : BitVec 12) (rs1 : Reg) (mark : Bool) (s : State) : Host.Outcome State Fault Refusal :=
  s.threadOp (.csrrs rd csr rs1 mark) (scalarForm [rs1] [rd] mark)
    (fun s tid t e => csrBody rd csr (true) (if rs1 = 0 then none else some (.set (t.readX rs1))) s tid t e) noPerform

/-- CSRRC (R96). -/
def execCsrrc (rd : Reg) (csr : BitVec 12) (rs1 : Reg) (mark : Bool) (s : State) : Host.Outcome State Fault Refusal :=
  s.threadOp (.csrrc rd csr rs1 mark) (scalarForm [rs1] [rd] mark)
    (fun s tid t e => csrBody rd csr (true) (if rs1 = 0 then none else some (.clear (t.readX rs1))) s tid t e) noPerform

/-- CSRRWI (R96). -/
def execCsrrwi (rd : Reg) (csr : BitVec 12) (z : BitVec 5) (mark : Bool) (s : State) : Host.Outcome State Fault Refusal :=
  s.threadOp (.csrrwi rd csr z mark) (scalarForm [] [rd] mark) (csrBody rd csr (rd != 0) (some (.write (z.setWidth 64)))) noPerform

/-- CSRRSI (R96). -/
def execCsrrsi (rd : Reg) (csr : BitVec 12) (z : BitVec 5) (mark : Bool) (s : State) : Host.Outcome State Fault Refusal :=
  s.threadOp (.csrrsi rd csr z mark) (scalarForm [] [rd] mark) (csrBody rd csr (true) (if z = 0 then none else some (.set (z.setWidth 64)))) noPerform

/-- CSRRCI (R96). -/
def execCsrrci (rd : Reg) (csr : BitVec 12) (z : BitVec 5) (mark : Bool) (s : State) : Host.Outcome State Fault Refusal :=
  s.threadOp (.csrrci rd csr z mark) (scalarForm [] [rd] mark) (csrBody rd csr (true) (if z = 0 then none else some (.clear (z.setWidth 64)))) noPerform

end Sys2Proof.Machine
end

