-- ==== Sys2Proof/Machine/Memops.lean ====
section
/-!
DEFINITION. Sys2Proof/Machine/Memops.lean: acquires and releases, far atomics, counters, memory waits, monitors and fences
(07_memory_model R125 to R138, 08_counters_and_monitors R141 to R157).
-/
namespace Sys2Proof.Machine

/-- Where an access of a thread goes, with what R94 finds on the way. -/
def State.place (s : State) (t : Thread) (va n : Nat) (acc : Access) (detail : Nat) : Except Trap Nat :=
  match misaligned va n with
  | some x => .error x
  | none => inboxCheck (s.locate t.accessor (stationOf t.vcore) va n acc detail) va

/-- The station of a thread's cluster holds the translation of an access it let through (R312). -/
def State.touchTlb (s : State) (t : Thread) (va : Nat) (acc : Access) : State :=
  if (s.ownWindow t.accessor va 1).isSome || inFabric va then s else s.fillTlb (stationOf t.vcore) t.ctx va acc

/-- A deferred access held at a moving vcore (R307); a wait keeps the E of the time its walk began (R104). -/
def State.holdDeferred (s : State) (tid : Nat) (t : Thread) (e : Entry) : State :=
  ({ s with held := s.held ++ [.deferred tid] } : State).setHead tid
    { e with phase := .held, sentAt := s.pt, begun := some (s.deadline (e.op 2) (s.ceil t)) }

/-- A request of the walk that is out: on its way to another package (R325), or at a line that a lock delays (R136). -/
def Entry.ask (e : Entry) (pt : Nat) : Entry :=
  match e.phase with
  | .asked _ => e
  | _ => { e with phase := .asked pt }

/-- A wait on a doubleword, which has a deadline of its own (R70). -/
def Entry.timed (e : Entry) : Bool :=
  match e.ins with
  | .cwait _ _ _ _ _ | .lwait _ _ _ _ _ => true
  | _ => false

/-- A deferred access other than a wait that has been out, or held at a moving vcore, for LTB (R70). -/
def Entry.outTooLong (e : Entry) (pt : Nat) : Bool :=
  !e.timed && match e.phase with
    | .asked since => decide (since + ltb ≤ pt)
    | .held => decide (e.sentAt + ltb ≤ pt)
    | _ => false

/-- A deferred access to a device address that no rule gives contents. -/
def State.deviceStop (s : State) (i : Instr) (va : Entry → Nat) (n : Nat) (acc : Access) : Option Fault :=
  match s.current with
  | some (_, t) =>
    match t.walksAt i with
    | some e => match s.place t (va e) n acc 0 with
      | .ok loc => if s.noDevice loc then some (.deviceWindow loc) else none
      | .error _ => none
    | none => none
  | none => none

/-- The answer of this step to an access beyond the die says that the target package refuses it (R328); `pick` says so. -/
def State.refusedThere (s : State) (loc : Nat) : Bool := s.pick == 1 && isRemote loc

/-- The line an access reads fails its check value on the way (R331, R332): a poison response, or an error on a link; `pick`
says so. -/
def State.failsOnWay (s : State) (t : Thread) (loc : Nat) : Bool := s.pick == 2 && !t.isLocal loc

/-- The registration of a wait that another package answers, in a flit of its port (R325). -/
def State.askWait (s : State) (tid : Nat) (t : Thread) (loc n : Nat) : State :=
  if isRemote loc then s.postMsg (dieOf t.vcore) loc (.read tid loc n) else s

/-- The request of an access to another stop or package leaves (R320, R325); an atomic releases first (R126). -/
def State.request (s : State) (tid : Nat) (t : Thread) (e : Entry) (loc n : Nat) (acc : Access) : State :=
  let send := fun (s : State) => (s.ask tid t loc n).setHead tid (e.ask s.pt)
  if acc = .rw then s.releasing tid t send else send s

/-- The request has been sent. -/
def Entry.asked (e : Entry) : Bool :=
  match e.phase with
  | .asked _ => true
  | _ => false

/-- A deferred access at one location (R67): a bus error once it has been out for LTB (R70), its address checked, held where its
vcore moves, waiting where an atomic finds its line locked (R136), presented where it is an atomic on a device register, on its
way to another stop (R320) or package (R325), refused there (R328), else performed at its home. -/
def State.deferredAt (s : State) (tid : Nat) (t : Thread) (e : Entry) (va n : Nat) (acc : Access) (detail : Nat)
    (act : State → Nat → State) : State :=
  if e.phase == .held && s.moving.isSome then s
  else if e.outTooLong s.pt then s.takeTrap tid ⟨19, 2, w64 va⟩ e.pc false
  else match s.place t va n acc detail with
  | .error x => s.takeTrap tid x e.pc false
  | .ok loc =>
    if s.isMoving loc then s.holdDeferred tid t e
    else if acc = .rw && s.locked loc n then s.setHead tid (e.ask s.pt)
    else if acc = .rw && isReg loc then (match e.phase with
      | .presented _ => s
      | _ => s.setHead tid { e with phase := .presented ⟨s.pt, 0, s.nextId, [], false⟩ })
    else if (isRemote loc || rides t.vcore loc) && !e.asked && !e.timed then s.request tid t e loc n acc
    else if s.unsent tid loc && !e.timed then s
    else
      let s := s.touchTlb t va acc
      if s.refusedThere loc then s.takeTrap tid ⟨18, 4, w64 va⟩ e.pc false else act s loc

/-! ## LDA and STL (R129) -/

/-- A posted add or atomic of the thread on these bytes has not been performed (R119). -/
def State.postedAhead (s : State) (tid loc n : Nat) : Bool :=
  s.storeBuf.any fun p => p.tid == tid && p.op != .write && overlaps p.loc p.size loc n

/-- LDA: the doubleword at its home, the thread's own stores forwarded, then the acquire; it does not pass the thread's own posted
atomics (R119). -/
def execLda (scope : Scope) (rd rs1 : Reg) (mark : Bool) (s : State) : Host.Outcome State Fault Refusal :=
  let i := Instr.lda scope rd rs1 mark
  match s.deviceStop i (fun e => (e.op 0).toNat) 8 .read with
  | some f => .fault f
  | none =>
    s.threadOp i (deferredForm [rs1] [rd] mark) (deferBody [rs1]) fun s tid t e =>
      s.deferredAt tid t e (e.op 0).toNat 8 .read 0 fun s loc =>
        let read := fun (s : State) =>
          let held := s.heldStores tid t []
          if (s.bad loc 8 && !coveredBy held loc 8) || s.failsOnWay t loc then s.takeTrap tid ⟨19, 1, e.op 0⟩ e.pc false
          else
            let v := forwardRead held (fun a => s.homeRead a 1) loc 8
            (s.acquireAt tid t scope loc).finishX tid e rd (w64 v)
        if s.postedAhead tid loc 8 then s.settling tid loc 8 read else read s

/-- STL: a store whose presentation waits for the thread's earlier stores to be performed (R126). -/
def execStl (scope : Scope) (rs1 rs2 : Reg) (mark : Bool) (s : State) : Host.Outcome State Fault Refusal :=
  s.threadOp (.stl scope rs1 rs2 mark) (deferredForm [rs1, rs2] [] mark)
    (fun s _ t e =>
      let x : StoreElem := ⟨(t.readX rs1).toNat, 8, (t.readX rs2).toNat, .write⟩
      (s.issueStores t { e with ops := [t.readX rs1, t.readX rs2], stores := [x] }, t.pc + 4))
    State.walkStores

/-! ## Counters and far atomics (R143, R148 to R151) -/

/-- A posted add or atomic (R143, R149): presented like a store. -/
def State.postedOp (s : State) (i : Instr) (rs1 rs2 : Reg) (mark : Bool) (op : StoreOp) : Host.Outcome State Fault Refusal :=
  s.threadOp i (deferredForm [rs1, rs2] [] mark)
    (fun s _ t e =>
      let x : StoreElem := ⟨(t.readX rs1).toNat, 8, (t.readX rs2).toNat, op⟩
      (s.issueStores t { e with ops := [t.readX rs1, t.readX rs2], stores := [x] }, t.pc + 4))
    State.walkStores

/-- What follows the release of an atomic (R126): where it covers nobody and `pick` says so, only its thread's own stores to the
doubleword come first (R118, R119). -/
def State.releasingAt (s : State) (tid : Nat) (t : Thread) (i : Instr) (loc : Nat) (k : State → State) : State :=
  if s.skipsRelease tid t i then s.settling tid loc 8 k else s.releasing tid t k

/-- A doubleword's release sequences after an atomic of a thread on it (R127): they go on, and its own release joins them. `old` is
the state before. -/
def State.joinHeads (s old : State) (loc : Nat) (cs : List Cover) : State :=
  match mapGet? old.relHeads (loc / 8) with
  | some l => { s with relHeads := mapSet s.relHeads (loc / 8) (l ++ cs) }
  | none => s

/-- What an atomic writes, and the releases that its write completes (R127): the state its release left is `old`. -/
def State.atomicWrite (s old : State) (tid : Nat) (t : Thread) (i : Instr) (loc val : Nat) : State :=
  ((s.write loc 8 val).joinHeads old loc (old.releaser tid t i).fences).endFences tid 1

/-- A non-posted atomic performed at its home (R143, R149, R151): the release first; `new` gives the value written, or none.
The old value comes back and the instruction acquires where it has a destination. -/
def State.atomicAt (s : State) (tid : Nat) (t : Thread) (e : Entry) (rd : Reg) (loc : Nat) (new : Word → Option Word) :
    State :=
  s.releasingAt tid t e.ins loc fun s =>
  if s.bad loc 8 || s.failsOnWay t loc then s.takeTrap tid ⟨19, 1, e.op 0⟩ e.pc false
  else
    let old := w64 (s.homeRead loc 8)
    let s' := if rd = 0 then s.dropLine [t.vcore] loc else s.acquireAt tid t ((relScope e.ins).getD .s) loc
    let s' := match new old with
      | some v => s'.atomicWrite s tid t e.ins loc v.toNat
      | none => s'
    if rd = 0 then s'.finish tid e [] else s'.finishX tid e rd old

/-- A far atomic (R148, R149). -/
def State.farAtomic (s : State) (i : Instr) (op : Nat) (rd rs1 rs2 : Reg) (mark : Bool) : Host.Outcome State Fault Refusal :=
  match s.deviceStop i (fun e => (e.op 0).toNat) 8 .rw with
  | some f => .fault f
  | none =>
    if rd = 0 then s.postedOp i rs1 rs2 mark (.atomic op)
    else
      s.threadOp i (deferredForm [rs1, rs2] [rd] mark) (deferBody [rs1, rs2]) fun s tid t e =>
        s.deferredAt tid t e (e.op 0).toNat 8 .rw 2 fun s loc =>
          s.atomicAt tid t e rd loc fun old => some (atomicNew op old (e.op 1))

/-- CADD (R143, R144): a saturating add; with a destination, an overflow traps precisely. -/
def execCadd (scope : Scope) (rd rs1 rs2 : Reg) (mark : Bool) (s : State) : Host.Outcome State Fault Refusal :=
  let i := Instr.cadd scope rd rs1 rs2 mark
  match s.deviceStop i (fun e => (e.op 0).toNat) 8 .rw with
  | some f => .fault f
  | none =>
    if rd = 0 then s.postedOp i rs1 rs2 mark .cadd
    else
      s.threadOp i (deferredForm [rs1, rs2] [rd] mark) (deferBody [rs1, rs2]) fun s tid t e =>
        s.deferredAt tid t e (e.op 0).toNat 8 .rw 2 fun s loc =>
          let s' := s.release tid
          if s'.bad loc 8 || s.failsOnWay t loc || !s.canRelease tid t || !(counterAdd (s'.homeRead loc 8) (e.op 1).toNat).2 then
            s.atomicAt tid t e rd loc fun old => some (w64 (counterAdd old.toNat (e.op 1).toNat).1)
          else
            ((s'.dropLine [t.vcore] loc).atomicWrite s' tid t i loc (2 ^ 64 - 1)).takeTrap tid ⟨20, 0, e.op 0⟩ e.pc false

/-- AADD (R148). -/
def execAadd (scope : Scope) (rd rs1 rs2 : Reg) (mark : Bool) (s : State) : Host.Outcome State Fault Refusal :=
  s.farAtomic (.aadd scope rd rs1 rs2 mark) 0 rd rs1 rs2 mark

/-- AAND (R148). -/
def execAand (scope : Scope) (rd rs1 rs2 : Reg) (mark : Bool) (s : State) : Host.Outcome State Fault Refusal :=
  s.farAtomic (.aand scope rd rs1 rs2 mark) 1 rd rs1 rs2 mark

/-- AOR (R148). -/
def execAor (scope : Scope) (rd rs1 rs2 : Reg) (mark : Bool) (s : State) : Host.Outcome State Fault Refusal :=
  s.farAtomic (.aor scope rd rs1 rs2 mark) 2 rd rs1 rs2 mark

/-- AXOR (R148). -/
def execAxor (scope : Scope) (rd rs1 rs2 : Reg) (mark : Bool) (s : State) : Host.Outcome State Fault Refusal :=
  s.farAtomic (.axor scope rd rs1 rs2 mark) 3 rd rs1 rs2 mark

/-- AMIN (R148). -/
def execAmin (scope : Scope) (rd rs1 rs2 : Reg) (mark : Bool) (s : State) : Host.Outcome State Fault Refusal :=
  s.farAtomic (.amin scope rd rs1 rs2 mark) 4 rd rs1 rs2 mark

/-- AMAX (R148). -/
def execAmax (scope : Scope) (rd rs1 rs2 : Reg) (mark : Bool) (s : State) : Host.Outcome State Fault Refusal :=
  s.farAtomic (.amax scope rd rs1 rs2 mark) 5 rd rs1 rs2 mark

/-- AMINU (R148). -/
def execAminu (scope : Scope) (rd rs1 rs2 : Reg) (mark : Bool) (s : State) : Host.Outcome State Fault Refusal :=
  s.farAtomic (.aminu scope rd rs1 rs2 mark) 6 rd rs1 rs2 mark

/-- AMAXU (R148). -/
def execAmaxu (scope : Scope) (rd rs1 rs2 : Reg) (mark : Bool) (s : State) : Host.Outcome State Fault Refusal :=
  s.farAtomic (.amaxu scope rd rs1 rs2 mark) 7 rd rs1 rs2 mark

/-- ASWAP (R148). -/
def execAswap (scope : Scope) (rd rs1 rs2 : Reg) (mark : Bool) (s : State) : Host.Outcome State Fault Refusal :=
  s.farAtomic (.aswap scope rd rs1 rs2 mark) 8 rd rs1 rs2 mark

/-- What an atomic that a device register answers does to it: its destination and the new value (R148, R151). -/
def Entry.rmw (e : Entry) : Option (Reg × (Word → Option Word)) :=
  let far := fun (rd : Reg) (op : Nat) => some (rd, fun old => some (atomicNew op old (e.op 1)))
  match e.ins with
  | .aadd _ rd _ _ _ => far rd 0
  | .aand _ rd _ _ _ => far rd 1
  | .aor _ rd _ _ _ => far rd 2
  | .axor _ rd _ _ _ => far rd 3
  | .amin _ rd _ _ _ => far rd 4
  | .amax _ rd _ _ _ => far rd 5
  | .aminu _ rd _ _ _ => far rd 6
  | .amaxu _ rd _ _ _ => far rd 7
  | .aswap _ rd _ _ _ => far rd 8
  | .cadd _ rd _ _ _ => some (rd, fun old => some (w64 (counterAdd old.toNat (e.op 1).toNat).1))
  | .acasV rd _ _ _ _ | .acasS rd _ _ _ _ => some (rd, fun old => if old = e.op 1 then some (e.op 2) else none)
  | _ => none

/-- ACAS (R151): never posted; a failed compare writes nothing. -/
def State.compareSwap (s : State) (i : Instr) (rd rs1 rs2 rs3 : Reg) (mark : Bool) : Host.Outcome State Fault Refusal :=
  match s.deviceStop i (fun e => (e.op 0).toNat) 8 .rw with
  | some f => .fault f
  | none =>
    s.threadOp i (deferredForm [rs1, rs2, rs3] [rd] mark) (deferBody [rs1, rs2, rs3]) fun s tid t e =>
      s.deferredAt tid t e (e.op 0).toNat 8 .rw 2 fun s loc =>
        s.atomicAt tid t e rd loc fun old => if old = e.op 1 then some (e.op 2) else none

/-- ACAS.v (R151). -/
def execAcasV (rd rs1 rs2 rs3 : Reg) (mark : Bool) (s : State) : Host.Outcome State Fault Refusal :=
  s.compareSwap (.acasV rd rs1 rs2 rs3 mark) rd rs1 rs2 rs3 mark

/-- ACAS.s (R151). -/
def execAcasS (rd rs1 rs2 rs3 : Reg) (mark : Bool) (s : State) : Host.Outcome State Fault Refusal :=
  s.compareSwap (.acasS rd rs1 rs2 rs3 mark) rd rs1 rs2 rs3 mark

/-! ## CWAIT and LWAIT (R145, R152) -/

/-- What a re-read of a location whose home registers no waiter finds (R146). -/
def State.pollWait (s : State) (t : Thread) (w : PWait) : Option Verdict :=
  match w.kind with
  | .counter loc _ target =>
    if s.bad loc 8 then some ⟨s.pt, 10, 0, 0, 0⟩
    else if target.toNat ≤ s.homeRead loc 8 then some (s.success t 0 (w64 (s.homeRead loc 8))) else none
  | .word loc _ cmp =>
    if s.bad loc 8 then some ⟨s.pt, 10, 0, 0, 0⟩
    else if s.homeRead loc 8 ≠ cmp.toNat then some (s.success t 0 (w64 (s.homeRead loc 8))) else none
  | _ => none

/-- A wait on one doubleword: the address checks, the first test at the home, then R105. -/
def State.wordWait (s : State) (i : Instr) (rd rs1 rs2 rs3 : Reg) (mark : Bool) (kind : Nat → Word → Word → WaitKind)
    (late : Word → Word → Word) : Host.Outcome State Fault Refusal :=
  match s.deviceStop i (fun e => (e.op 0).toNat) 8 .read with
  | some f => .fault f
  | none =>
    s.threadOp i (waitForm [rs1, rs2, rs3] [rd, if rd = 0 then 0 else nextReg rd] mark) (deferBody [rs1, rs2, rs3])
      fun s tid t e =>
        s.deferredAt tid t e (e.op 0).toNat 8 .read 0 fun s loc =>
          s.settlingWait tid t e (e.op 2) loc 8 fun s =>
          let s := s.askWait tid t loc 8
          let w := s.begunWait t e (kind loc (e.op 0) (e.op 1)) rd (e.op 2)
          let v := w64 (s.homeRead loc 8)
          let first := if s.unsent tid loc then none
            else if isReg loc then (if s.pt ≤ w.deadline then s.pollWait t w else none)
            else if s.failsOnWay t loc then some ⟨s.pt, 10, 0, 0, 0⟩ else s.testWait t w
          s.performWait tid t e w first (late v (e.op 1))

/-- CWAIT (R145): waits until the counter is at its target. -/
def execCwait (rd rs1 rs2 rs3 : Reg) (mark : Bool) (s : State) : Host.Outcome State Fault Refusal :=
  s.wordWait (.cwait rd rs1 rs2 rs3 mark) rd rs1 rs2 rs3 mark .counter fun v _ => v

/-- LWAIT (R152): waits until the word differs from the compare value. -/
def execLwait (rd rs1 rs2 rs3 : Reg) (mark : Bool) (s : State) : Host.Outcome State Fault Refusal :=
  s.wordWait (.lwait rd rs1 rs2 rs3 mark) rd rs1 rs2 rs3 mark .word fun _ c => c

/-! ## Monitors (R153 to R157) -/

/-- The filter that holds the registrations of a line: a compute die's, or an IO die's after them. -/
def filterOf (loc : Nat) : Nat := (homeDie loc).getD (16 + (if isLpddr loc then ioOf loc else 0))

/-- The registrations a filter holds: thread and entry number. -/
def State.registrations (s : State) (filter : Nat) : List (Nat × Nat) :=
  s.threads.flatMap fun e => (List.range 4).filterMap fun n => match e.2.mon.getD n .free with
    | .quiet l _ | .written l _ => if filterOf (l * 64) = filter then some (e.1, n) else none
    | _ => none

/-- A quiet entry evicted by a full filter is Lost, which ends a parked MWAIT; a written one keeps its write (R153, R155,
R157). -/
def State.evict (s : State) (tid n : Nat) : State :=
  s.updThr tid fun t =>
    let mon := modifyAt t.mon n fun m => match m with
      | .quiet l va => .lost l va
      | x => x
    s.monWait { t with mon := mon }

/-- Room made for a newcomer (R157): a filter at 16,384 registrations may evict one, any it holds. -/
def State.makeRoom (s : State) (loc : Nat) : State :=
  let rs := s.registrations (filterOf loc)
  if rs.length < 16384 then s
  else
    let s' := { s with free := s.free + 1 }
    match rs[Config.evictPick s.free]? with
    | some r => s'.evict r.1 r.2
    | none => s'

/-- The line an entry watches. -/
def MonSt.line (m : MonSt) : Option Nat :=
  match m with
  | .free => none
  | .quiet l _ | .written l _ | .lost l _ => some l

/-- The address checks of MONA (R154): the line, or none where it lies in host memory or another package. A line of device registers,
for which R116 lists no home, is armed and no write of a device register marks it: DESIGN CHOICE (log 38). -/
def State.monaPlace (s : State) (t : Thread) (va : Nat) : Except Trap (Option Nat) :=
  match s.ownWindow t.accessor va 1 with
  | some (.ok loc) => .ok (some loc)
  | some (.error x) => .error x
  | none =>
    if inFabric va then (s.fabric t.accessor va 1).map some
    else match s.translate (stationOf t.vcore) t.ctx va .read 3 with
      | .error x => .error x
      | .ok pa => if isInbox pa then .error ⟨18, 1, w64 va⟩ else .ok (if isHost pa || isRemote pa then none else some pa)

/-- An entry armed on a line (R154): registered at its home, the line dropped from the core's own L1. -/
def State.arm (s : State) (tid : Nat) (t : Thread) (n loc va : Nat) : State :=
  let s := s.makeRoom loc
  let s := { s with l1 := s.l1.filter fun l => !(l.v == t.vcore && l.line == lineOf loc) }
  s.updThr tid fun t => { t with mon := t.mon.set n (.quiet (lineOf loc) va) }

/-- MONA (R154). -/
def execMona (rd rs1 : Reg) (mark : Bool) (s : State) : Host.Outcome State Fault Refusal :=
  s.threadOp (.mona rd rs1 mark) (deferredForm [rs1] [rd] mark) (deferBody [rs1]) fun s tid t e =>
    let va := (e.op 0).toNat / 64 * 64
    match s.monaPlace t va with
    | .error x => s.takeTrap tid x e.pc false
    | .ok pl =>
      let s := s.touchTlb t va .read
      let here := match pl with
        | some loc => t.mon.findIdx? fun (m : MonSt) => m.line == some (lineOf loc)
        | none => none
      match here, pl with
      | some n, some loc =>
        match t.mon.getD n .free with
        | .lost _ _ => (s.arm tid t n loc va).finishX tid e rd (status 0 0 n)
        | _ => s.finishX tid e rd (status 0 0 n)
      | _, pl =>
        match t.mon.findIdx? fun (m : MonSt) => m == .free with
        | none => s.finishX tid e rd (status 11 1 0)
        | some n => match pl with
          | none => s.finishX tid e rd (status 11 2 0)
          | some loc => s.settling tid (lineOf loc * 64) 64 fun s => (s.arm tid t n loc va).finishX tid e rd (status 0 0 n)

/-- MCLR (R156): the entry watching the line is Free; it never faults. -/
def execMclr (rs1 : Reg) (mark : Bool) (s : State) : Host.Outcome State Fault Refusal :=
  s.threadOp (.mclr rs1 mark) (deferredForm [rs1] [] mark) (deferBody [rs1]) fun s tid t e =>
    let s := match s.monaPlace t ((e.op 0).toNat / 64 * 64) with
      | .ok (some loc) =>
        s.updThr tid fun t => { t with mon := t.mon.map fun (m : MonSt) => if m.line == some (lineOf loc) then .free else m }
      | _ => s
    s.finish tid e []

/-- The entries after an MWAIT that returned (R155, R157): written ones are quiet, lost ones Free, the move SPUR is gone. -/
def Thread.monReturn (t : Thread) : Thread :=
  { t with
    moveSpur := false
    mon := t.mon.map fun m => match m with
      | .written l va => .quiet l va
      | .lost _ _ => .free
      | x => x }

/-- An MWAIT that ends (R155): the mask is that of the entries as they are now, the code that of the decision. -/
def State.endMonitor (s : State) (tid : Nat) (t : Thread) (e : Entry) (w : PWait) (v : Verdict) : State :=
  if v.code = 1 then s.endWait tid e w v
  else
    let now := s.monVerdict t
    let v' := if now.code = 3 || v.code = 3 then now else { now with code := v.code, detail := v.detail }
    (s.setThr tid t.monReturn).endWait tid e w v'

/-- MWAIT (R155). -/
def execMwait (rd rs3 : Reg) (mark : Bool) (s : State) : Host.Outcome State Fault Refusal :=
  s.threadOp (.mwait rd rs3 mark) (waitForm [rs3] [rd] mark) (deferBody [rs3]) fun s tid t e =>
    let w := s.newWait t .monitor rd (e.op 0)
    if t.mon.all fun m => m == .free then s.endWait tid e w ⟨s.pt, 11, 0, 0, 0⟩
    else if t.monMet then s.endMonitor tid t e w (s.monVerdict t)
    else s.performWait tid t e w none 0

/-! ## FENCEW and IFENCEW (R130, R131, R138) -/

/-- FENCEW (R130). -/
def execFencew (scope : Scope) (rd rs1 rs3 : Reg) (mark : Bool) (s : State) : Host.Outcome State Fault Refusal :=
  s.threadOp (.fencew scope rd rs1 rs3 mark) (waitForm [rs1, rs3] [rd] mark) (deferBody [rs1, rs3]) fun s tid t e =>
    let m := (e.op 0).toNat
    let stores := (s.storeBuf.filter fun p => p.tid == tid).map fun p => p.id
    let cmds := (s.cmds.filter fun c => c.tid == tid && (c.eng.isCopy || !c.push)).map fun c => c.id
    let w := s.newWait t (.fence scope (m % 32) stores cmds t.appends) rd (e.op 1)
    if m / 32 ≠ 0 then s.refuseWait tid t e .light rd (e.op 1) 11 0
    else if m = 0 then s.refuseWait tid t e .light rd (e.op 1) 0 0
    else match s.fenceVerdict tid t w with
      | some v => s.endWait tid e w v
      | none => if w.deadline ≤ s.pt then s.endWait tid e w (s.partialFence t (m % 32) stores cmds t.appends) else s.parkWait tid w

/-- IFENCEW after its condition is met (R138): the words fetched ahead for the thread are dropped. -/
def State.endIfence (s : State) (tid : Nat) (e : Entry) (w : PWait) (v : Verdict) : State :=
  let s := if v.code = 0 || v.code = 2 then s.updThr tid fun t => { t with stale := [] } else s
  s.endWait tid e w v

/-- IFENCEW (R138): waits for the accepted stores to this core's I-store. -/
def execIfencew (rd rs3 : Reg) (mark : Bool) (s : State) : Host.Outcome State Fault Refusal :=
  s.threadOp (.ifencew rd rs3 mark) (waitForm [rs3] [rd] mark) (deferBody [rs3]) fun s tid t e =>
    let mine := s.storeBuf.filter fun p => isIst p.loc && !isSpad p.loc && vcoreOfLoc p.loc == some t.vcore
    let w := s.newWait t (.ifence (mine.map fun p => p.id)) rd (e.op 0)
    match s.fenceVerdict tid t w with
    | some v => s.endIfence tid e w v
    | none => s.performWait tid t e w none 0

end Sys2Proof.Machine
end

