-- ==== Sys2Proof/Machine/Records.lean ====
section
/-!
DEFINITION. Sys2Proof/Machine/Records.lean: the save record of a full thread, what the moult engine writes into it and takes
from it (17_contexts R300, R303).
-/
namespace Sys2Proof.Machine

/-- A part of a save record whose inner layout R303 leaves open: its offset, its bytes, and the numbers it holds. -/
structure RecordPart where
  off  : Nat
  size : Nat
  nums : List Nat
  deriving DecidableEq, Repr

/-- The four words of a trap bank. -/
def TrapBank.nums (b : TrapBank) : List Nat := [b.cause.toNat, b.epc.toNat, b.val.toNat, b.stat.toNat]

/-- A stream as its record keeps it: nothing but zeros where the register is unbound. -/
def streamNums (o : Option Stream) : List Nat :=
  match o with
  | none => List.replicate 9 0
  | some x =>
    [1 + (if x.append then 2 else 0) + (if x.indirect then 4 else 0) + 8 * x.ty.bits.toNat, x.base.toNat, x.index.toNat, x.s1.toNat,
     x.s2.toNat, x.n1, x.n2, x.dl.toNat, x.pos]

/-- The waits of a thread, pending or left under handlers. -/
def Thread.allWaits (t : Thread) : List PWait := t.wait.toList ++ t.susp.map fun u => u.wait

/-- The line a monitor entry is armed on, with its address. -/
def monNums (m : MonSt) : List Nat :=
  match m with
  | .free => [0, 0, 0]
  | .quiet l va | .written l va | .lost l va => [1, l, va]

/-- A wait's registration: its class, and what it is registered with. -/
def WaitKind.nums (k : WaitKind) : List Nat :=
  match k with
  | .counter loc va x => [1, loc, va.toNat, x.toNat]
  | .word loc va x => [2, loc, va.toNat, x.toNat]
  | .barrier key phase arrive => [3, key, (phase.map fun p => p + 1).getD 0, if arrive then 1 else 0]
  | .recv v mask => [4, v, mask, 0]
  | .monitor => [5, 0, 0, 0]
  | .fence scope mask _ _ _ => [6, scope.bits.toNat, mask, 0]
  | .ifence _ => [7, 0, 0, 0]
  | .spawn flags arg => [8, flags.toNat, arg.toNat, 0]
  | .ttake n => [9, n, 0, 0]
  | .place _ _ v _ op _ _ => [10, v, op, 0]
  | .evstep v r n => [11, v, r, n]
  | .reply r => [12, r.toNat, 0, 0]
  | .stream j => [13, j, 0, 0]
  | .light => [14, 0, 0, 0]

/-- The registration a record holds, for a wait of a class: that of another class leaves the wait as it is. -/
def WaitKind.ofNums (k : WaitKind) (f : Nat → Nat) : WaitKind :=
  if k.nums.head? ≠ some (f 0) then k
  else match k with
    | .counter _ _ _ => .counter (f 1) (w64 (f 2)) (w64 (f 3))
    | .word _ _ _ => .word (f 1) (w64 (f 2)) (w64 (f 3))
    | .barrier _ _ _ => .barrier (f 1) (if f 2 = 0 then none else some (f 2 - 1)) (f 3 == 1)
    | .recv _ _ => .recv (f 1) (f 2 % 16)
    | .fence scope _ a b c => .fence scope (f 2 % 32) a b c
    | .spawn _ _ => .spawn (w64 (f 1)) (w64 (f 2))
    | .ttake _ => .ttake (f 1)
    | .evstep _ _ _ => .evstep (f 1) (f 2) (f 3)
    | .reply _ => .reply (BitVec.ofNat 5 (f 1))
    | .place p b v e o x y => .place p b v e o x y
    | .stream j => .stream j
    | .ifence l => .ifence l
    | .monitor => .monitor
    | .light => .light

/-- The word of the instruction a wait belongs to, 0 where its block is gone. -/
def waitWord (block : List Entry) : Nat :=
  match block with
  | e :: _ => (wordOf e.ins).toNat
  | [] => 0

/-- A wait as its record keeps it: its word, E and registration (R303). -/
def PWait.nums (w : PWait) (block : List Entry) : List Nat := [waitWord block, w.deadline] ++ w.kind.nums

/-- The waits of a thread as its record keeps them, the pending one first. -/
def Thread.waitNums (t : Thread) : List Nat :=
  (match t.wait with
    | some w => w.nums t.block
    | none => []) ++ t.susp.flatMap fun u => u.wait.nums u.block

/-- The open parts of a thread's record (R303): PC, mode and level; the special registers, the window count and both trap banks;
the empty bits and the words, deadlines and registrations of its waits; its streams; its monitor entries. -/
def Thread.recordParts (t : Thread) : List RecordPart :=
  [⟨1312, 16, [t.pc.toNat, if t.sup then 1 else 0, t.level]⟩,
   ⟨1328, 128, [t.vflags.toNat, t.lutb.toNat, t.mfmt.toNat, t.mscl.toNat, t.mprog.toNat, t.sdcnt.toNat, t.sbstat.toNat,
      t.rdrop.toNat, t.tmocnt.toNat, t.winCount] ++ t.bank0.nums ++ t.bank1.nums⟩,
   ⟨1456, 32, (t.empty.map fun o => match o with | none => 0 | some id => id + 1) ++ t.waitNums⟩,
   ⟨1488, 256, t.streams.flatMap streamNums⟩,
   ⟨1744, 32, t.mon.flatMap monNums⟩]

/-- The bytes of a part, in the layout an implementation chooses. -/
def RecordPart.bytes (p : RecordPart) : List Byte := (List.range p.size).map fun i => Config.recordByte p.off p.nums i

/-- The bytes of a save record (R303): the registers in their places, the open parts, and zeros. -/
def Thread.saveRecord (t : Thread) : List Byte :=
  wordBytes t.x ++ t.v.flatMap (fun v => bytesOf v.toNat 32) ++
  ((List.range 8).flatMap fun n => bytesOf (t.mr n).toNat 4) ++
  t.recordParts.flatMap RecordPart.bytes ++ List.replicate 272 0

/-- A thread whose record has just been written. -/
def Thread.imaged (t : Thread) : Thread := { t with image := t.recordParts.map fun p => p.nums }

/-- A part as its record holds it: none where it is as it was last written, else the numbers its bytes stand for. -/
def State.changedPart (s : State) (pa : Nat) (old : List Nat) (p : RecordPart) : Option (List Nat) :=
  let bs := (List.range p.size).map fun i => s.byteAt (pa + p.off + i)
  if bs = ({ p with nums := old } : RecordPart).bytes then none
  else some ((List.range p.nums.length).map fun i => Config.recordNum p.off (bs.map fun b => b.toNat) i)

/-- A trap bank from its words; reserved bits read as zero (R3). -/
def bankOf (f : Nat → Word) (k : Nat) : TrapBank :=
  ⟨maskWord (f k) 0xFF, (f (k + 1) >>> 2) <<< 2, f (k + 2), tstatWrite (f (k + 3))⟩

/-- A stream register from its numbers. -/
def streamFrom (f : Nat → Nat) : Option Stream :=
  if f 0 % 2 = 0 then none
  else some { ty := VType.ofBits (BitVec.ofNat 3 (f 0 / 8)), append := bitAt (f 0) 1, indirect := bitAt (f 0) 2, base := w64 (f 1)
              index := w64 (f 2), s1 := w64 (f 3), s2 := w64 (f 4), n1 := f 5 % 2 ^ 32, n2 := f 6 % 2 ^ 32, dl := w64 (f 7)
              pos := f 8, cur := f 8, kept := [], ready := [], buf := [] }

/-- A monitor entry from its numbers: the same line keeps the state its home gives it. -/
def monFrom (old : MonSt) (f : Nat → Nat) : MonSt :=
  if f 0 % 2 = 0 then .free else if monNums old = [1, f 1, f 2] then old else .quiet (f 1) (f 2)

/-- A wait as its record holds it. -/
def PWait.ofNums (w : PWait) (f : Nat → Nat) : PWait := { w with deadline := f 1, kind := w.kind.ofNums fun i => f (2 + i) }

/-- A block whose wait is of the word its record holds; a word that is no instruction changes nothing. -/
def wordFrom (block : List Entry) (w : Nat) : List Entry :=
  match block, decode (BitVec.ofNat 32 w) with
  | e :: r, some i => { e with ins := i } :: r
  | _, _ => block

/-- The waits of a thread as its record holds them, the pending one first. -/
def Thread.setWaits (t : Thread) (f : Nat → Nat) : Thread :=
  let n := t.wait.toList.length
  let at_ := fun (k i : Nat) => f (6 * k + i)
  { t with
    wait := t.wait.map fun w => w.ofNums (at_ 0)
    block := if t.wait.isSome then wordFrom t.block (at_ 0 0) else t.block
    susp := t.susp.zipIdx.map fun u =>
      { u.1 with wait := u.1.wait.ofNums (at_ (n + u.2)), block := wordFrom u.1.block (at_ (n + u.2) 0) } }

/-- A thread with one open part replaced by what its record holds. -/
def Thread.setPart (t : Thread) (off : Nat) (l : List Nat) : Thread :=
  let f := fun (i : Nat) => l.getD i 0
  let w := fun (i : Nat) => w64 (f i)
  if off = 1312 then { t with pc := (w 0 >>> 2) <<< 2, sup := f 1 % 2 == 1, level := min (f 2) 2 }
  else if off = 1328 then
    let kept := fun (t : Thread) (c : Nat × Nat) => (t.csrWrite c.1 (w c.2)).getD t
    let t := [(0x001, 0), (0x002, 1), (0x003, 2), (0x004, 3), (0x005, 4), (0x009, 7), (0x115, 8)].foldl kept t
    { t with sdcnt := maskWord (w 5) 0xFFFFFFFF011F1F7F, sbstat := maskWord (w 6) 0x7070707070707070, winCount := f 9
             bank0 := bankOf w 10, bank1 := bankOf w 14 }
  else if off = 1456 then
    { t with empty := (List.range 32).map fun i => if f i = 0 then none else some (f i - 1) }.setWaits fun i => f (32 + i)
  else if off = 1488 then { t with streams := (List.range 8).map fun j => streamFrom fun i => f (9 * j + i) }
  else { t with mon := t.mon.zipIdx.map fun m => monFrom m.1 fun i => f (3 * m.2 + i) }

/-- A thread as its record holds it (R303): the registers, and every open part that was changed there since it was written;
reserved bits read as zero (R3). -/
def State.loadRecord (s : State) (t : Thread) (pa : Nat) : Thread :=
  let t' := { t with
    x := (List.range 32).map fun i => w64 (s.read (pa + 8 * i) 8)
    v := (List.range 32).map fun i => BitVec.ofNat 256 (s.read (pa + 256 + 32 * i) 32)
    m := (List.range 8).map fun i => BitVec.ofNat 32 (s.read (pa + 1280 + 4 * i) 4) }
  t.recordParts.zipIdx.foldl (fun x p => match s.changedPart pa (t.image.getD p.2 []) p.1 with
    | some l => x.setPart p.1.off l
    | none => x) t'

/-- A thread's state where it lives only in its record (R300). -/
def State.recalled (s : State) (t : Thread) : Thread :=
  match t.place with
  | .record _ _ pa => s.loadRecord t pa
  | _ => t

/-- A reply to a context held only in its save record is written into the record by the moult engine (R300): the register image,
and the empty bit with what counts beside it. -/
def State.writeRecordReply (s : State) (t : Thread) (r : Reply) : State :=
  match t.place with
  | .record _ _ pa =>
    match s.thr r.tid with
    | some t' =>
      let s := (s.write (pa + 8 * r.reg.toNat) 8 r.status.toNat).setThr r.tid t'.imaged
      t'.recordParts.foldl (fun s p => s.writeBytes (pa + p.off) p.bytes) s
    | none => s
  | _ => s

end Sys2Proof.Machine
end

