-- ==== Sys2Proof/Machine/Blocks.lean ====
section
/-!
DEFINITION. Sys2Proof/Machine/Blocks.lean: the events of blocks, results, stores, replies and parks that involve no unit
beyond the core and the homes (04_threads, 06_time_and_deadlines R110 to R113, 07_memory_model R120, 21_debug R362).
-/
namespace Sys2Proof.Machine

/-- BLOCK_RETIRE (R68): one step of a block's retirement. -/
def execBlockRetire (v sl : Nat) (s : State) : Host.Outcome State Fault Refusal := .next (s.retireStep v sl)

/-- EVCFG_WRITE (R194): the walk commits an instruction that writes evcfg. -/
def execEvcfgWrite (v sl : Nat) (s : State) : Host.Outcome State Fault Refusal :=
  match s.inSlot v sl with
  | some (tid, t) =>
    match t.block with
    | e :: _ =>
      if t.run = .block && t.walking && e.st == .done && !e.deferred && e.writesEvcfg then .next (s.commitHead tid)
      else .next s
    | [] => .next s
  | none => .next s

/-! ## Fetch (R84, R137) -/

/-- Where a thread's next word lies in its core's I-store, or the fault that reaching it raises (R84, R283, R298, R331). -/
def State.fetchLoc (s : State) (t : Thread) : Except Trap Nat :=
  let pc := t.pc.toNat
  if pc < 0x2000000 || 0x2007FFC < pc then .error ⟨18, 1, t.pc⟩
  else
    let off := pc - 0x2000000
    let loc : Except Trap Nat :=
      if t.sup then .ok (istLoc t.vcore off)
      else match s.kernelOn t.vcore t.ctx t.kernel with
        | some (_, c) => if off + 4 ≤ c.istSize then .ok (istLoc t.vcore (c.istBase + off)) else .error ⟨18, 7, t.pc⟩
        | none => .error ⟨18, 7, t.pc⟩
    match loc with
    | .ok l => if s.bad l 4 then .error ⟨19, 1, t.pc⟩ else .ok l
    | .error x => .error x

/-- The words a fetch at a location may return: the I-store's, then those the core may still hold fetched ahead (R137,
R138). -/
def State.fetchWords (s : State) (t : Thread) (loc : Nat) : List IWord :=
  BitVec.ofNat 32 (s.read loc 4) :: (t.stale.filterMap fun x => if x.1 = loc then some x.2 else none)

/-- The word a thread issues next; `pick` chooses among those the fetch may return. -/
def State.fetch (s : State) (t : Thread) : Except Trap IWord :=
  match s.fetchLoc t with
  | .error x => .error x
  | .ok loc =>
    let ws := s.fetchWords t loc
    .ok (ws.getD (s.pick % ws.length) 0)

/-- The thread in the current slot, where it may issue. -/
def State.issuer (s : State) : Option (Nat × Thread) :=
  match s.current with
  | some (tid, t) => if t.run = .ready && !t.shed then some (tid, t) else none
  | none => none

/-- A trap that stands in place of the next instruction (R33, R84, R362): the block closes on it and the walk takes it. -/
def State.issueFault (s : State) (tid : Nat) (t : Thread) (i : Instr) (x : Trap) : State :=
  let t := s.blockStart t
  let s := { s with dbg := { s.dbg with issuedNow := mapSet s.dbg.issuedNow t.vcore (s.ac * 8 + t.slot) } }
  s.append tid t (scalarForm [] [] false) ((Entry.blank i t.pc s.pt).fail x) t.pc

/-- ILLEGAL_INSTRUCTION (R33): a word that is no instruction, tval the word. -/
def execIllegalInstruction (w : IWord) (s : State) : Host.Outcome State Fault Refusal :=
  match s.issuer with
  | some (tid, t) => .next (s.issueFault tid t (.illegalInstruction w) ⟨16, 0, w.setWidth 64⟩)
  | none => .next s

/-- INSTRUCTION_FETCH_FAULT (R84, R331): tepc and tval hold the PC. -/
def execInstructionFetchFault (s : State) : Host.Outcome State Fault Refusal :=
  match s.issuer with
  | some (tid, t) =>
    match s.fetchLoc t with
    | .error x => .next (s.issueFault tid t .instructionFetchFault x)
    | .ok _ => .next s
  | none => .next s

/-- An armed breakpoint of the thread's core matches its PC (R361, R362). -/
def State.breaks (s : State) (t : Thread) : Bool :=
  t.level == 0 && t.bpIgnore != some t.pc &&
  (s.vc t.vcore).bps.any fun b =>
    b.getLsbD 15 && fieldOf b 16 6 == t.ctx && bitAt (fieldOf b 22 8) t.slot && fieldOf b 2 13 == fieldOf (t.pc - 0x2000000) 2 13

/-- BREAKPOINT_TRAP (R362): taken before the instruction at the PC; the block's earlier instructions commit. -/
def execBreakpointTrap (v sl : Nat) (s : State) : Host.Outcome State Fault Refusal :=
  match s.inSlot v sl with
  | some (tid, t) =>
    if t.run = .ready && !t.shed && s.breaks t then .next (s.issueFault tid t (.breakpointTrap v sl) ⟨5, 1, 0⟩) else .next s
  | none => .next s

/-- FOLLOW_MOVE (R73): a follow light thread whose block ended before an access of another cluster moves there once the block has
retired; where no light slot is free by then it stays. -/
def execFollowMove (v sl : Nat) (s : State) : Host.Outcome State Fault Refusal :=
  match s.inSlot v sl with
  | some (tid, t) =>
    match t.followTo with
    | some c =>
      if t.run = .ready && !t.shed && t.block.isEmpty then
        match s.followSlot t c with
        | some (v', sl') => .next (s.moveThread tid v' sl')
        | none => .next (s.setThr tid { t with followTo := none })
      else .next s
    | none => .next s
  | none => .next s

/-! ## Results and stores -/

/-- A block with one entry replaced. -/
def Thread.setEntry (t : Thread) (idx : Nat) (e : Entry) : Thread := { t with block := t.block.set idx e }

/-- A sent load answered (R66, R119, R120): its accesses take their values or its one fault; the translations it used and
the lines it read from afar are kept. -/
def State.answerLoad (s : State) (tid : Nat) (t : Thread) (idx : Nat) (e : Entry) (stale : Bool) : State :=
  let held := s.heldStores tid t (t.block.take idx)
  let e' := s.evalLoads t held stale (s.placeSent t) e
  let s := s.setThr tid (t.setEntry idx e')
  let s := e.loads.foldl (fun s l => match s.placeSent t l with
    | .ok _ => s.touchTlb t l.va .read
    | .error _ => s) s
  (s.sentLocs t e).foldl (fun s x =>
    if stale && (s.l1Line t.vcore t.ctx (lineOf x.2.1)).isSome then s else s.fillL1 t x.1 x.2.1) s

/-- A load that has been out for LTB (R70). -/
def Entry.overdue (e : Entry) (pt : Nat) : Bool := e.st == .sent && decide (e.sentAt + ltb ≤ pt)

/-- The bus error of a load by its first access. -/
def Entry.loadTrap (e : Entry) (cause detail : Nat) (va : Option Nat) : Trap :=
  ⟨cause, detail, w64 (va.getD ((e.loads.head?.map fun l => l.va).getD 0))⟩

/-- What went wrong with the answer to a load on its way (R328, R331, R332), as `pick` says. -/
def State.answerTrap (s : State) (t : Thread) (e : Entry) (locs : List (Nat × Nat × Nat)) : Option Trap :=
  match locs.find? fun x => s.refusedThere x.2.1 with
  | some x => some (e.loadTrap 18 4 (some x.1))
  | none => (locs.find? fun x => s.failsOnWay t x.2.1).map fun x => e.loadTrap 19 1 (some x.1)

/-- LONG_RESULT_RETURN (R66, R93): the answer to a load comes back, in order with earlier loads it may not pass (R119, R121);
after LTB it is a bus error (R70). `stale` answers it from the core's L1 where that holds the line (R117); a load of a moving
vcore is held (R307). -/
def execLongResultReturn (v sl idx : Nat) (stale : Bool) (s : State) : Host.Outcome State Fault Refusal :=
  match s.inSlot v sl with
  | none => .next s
  | some (tid, t) =>
    match t.block[idx]? with
    | none => .next s
    | some e =>
      if e.st ≠ .sent || !s.detGate t.ctx t.detKey || s.loadAhead t (t.block.take idx) e then .next s
      else if e.overdue s.pt then .next (s.setThr tid (t.setEntry idx (e.fail (e.loadTrap 19 2 none))))
      else
        let locs := s.sentLocs t e
        match locs.find? fun x => s.noDevice x.2.1 with
        | some x => .fault (.deviceWindow x.2.1)
        | none =>
          if locs.any fun x => s.postedAhead tid x.2.1 x.2.2 ||
              (s.unsent tid x.2.1 && !(stale && (s.l1Line t.vcore t.ctx (lineOf x.2.1)).isSome)) then .next s
          else if locs.any fun x => s.isMoving x.2.1 then
            (if e.phase == .held then .next s
             else .next (({ s with held := s.held ++ [.load tid idx] } : State).setThr tid (t.setEntry idx { e with phase := .held })))
          else match s.answerTrap t e locs with
            | some x => .next (s.setThr tid (t.setEntry idx (e.fail x)))
            | none => .next (s.answerLoad tid t idx e stale)

/-- The latest E of the matrix commands whose Sprue locks a presented store meets (R68, R136). -/
def State.lockBound (s : State) (t : Thread) (e : Entry) : Nat :=
  e.stores.foldl (fun m x => match s.locate t.accessor (stationOf t.vcore) x.va x.size .write 1 with
    | .ok loc => s.locks.foldl (fun m l =>
        if l.1 = lineOf loc then max m (((s.cmds.find? fun c => c.id == l.2.1).map fun c => c.deadline).getD 0) else m) m
    | .error _ => m) 0

/-- The bound of a presented store has passed (R68, R70): LTB, or the E of an MMA whose lock delays it or has delayed it. It
bounds the first step of a vector store (R174). -/
def State.storeOverdue (s : State) (t : Thread) (e : Entry) : Bool :=
  match e.phase with
  | .presented p => !p.checked && decide (p.since + ltb ≤ s.pt) && decide (max p.bound (s.lockBound t e) ≤ s.pt)
  | _ => false

/-- The bus error of a presented store that is not accepted within its bound, or of an atomic that is not answered (R70). -/
def Entry.storeTrap (e : Entry) : Trap := ⟨19, if e.stores.isEmpty then 2 else 3, ((e.stores.head?.map fun x => w64 x.va).getD (e.op 0))⟩

/-- LTB_EXPIRY (R70, R68): a load, held access or store acceptance that is outstanding for LTB faults as a bus error; a load
that waits for its place in R364's order is not out yet (log 32). -/
def execLtbExpiry (v sl : Nat) (s : State) : Host.Outcome State Fault Refusal :=
  match s.inSlot v sl with
  | none => .next s
  | some (tid, t) =>
    match t.block.findIdx? fun e => e.overdue s.pt && s.detGate t.ctx t.detKey with
    | some k =>
      match t.block[k]? with
      | some e => .next (s.setThr tid (t.setEntry k (e.fail (e.loadTrap 19 2 none))))
      | none => .next s
    | none =>
      if t.run = .block && t.walking then
        match t.block with
        | e :: _ =>
          match e.phase with
          | .presented _ => if s.storeOverdue t e then .next (s.takeTrap tid e.storeTrap e.pc false) else .next s
          | _ => if e.outTooLong s.pt then .next (s.takeTrap tid ⟨19, 2, e.op 0⟩ e.pc false) else .next s
        | [] => .next s
      else .next s

/-! ## Replies (R71) -/

/-- A reply that fills its register: full again, and a TIMEOUT counts (R71, R110); what it changed in this ac is noted (R97). -/
def Thread.fillReply (t : Thread) (r : Reply) (pt ac : Nat) : Thread :=
  let t := Thread.noteHw { t.setX r.reg r.status with empty := t.empty.set r.reg.toNat none } ac (.filled r.reg)
  let t := if fieldOf r.status 0 8 = 1 then ((t.noteBase ac 0x115 t.tmocnt).countTimeout pt).noteHw ac (.counted 0x115) else t
  match t.run, t.wait with
  | .wait, some ⟨.reply x, _, _, _, _, _, _⟩ => if x = r.reg && !t.walking then { t with run := .ready, wait := none } else t
  | _, _ => t

/-- A discarded reply is counted (R71, R78, R79, R97). -/
def Thread.dropReply (t : Thread) (ac : Nat) : Thread :=
  ((t.noteBase ac 0x009 t.rdrop).countCsr 0x009).noteHw ac (.counted 0x009)

/-- The wait-escalation trap a thread at a block boundary takes (R110). -/
def Thread.escNow (t : Thread) : Option Nat :=
  if t.run = .ready && t.placed && !t.shed && t.block.isEmpty && t.issued = 0 then t.escDue else none

/-- A wait-escalation trap that a reply has made due is taken at the boundary its thread stands at (R110). -/
def State.escalateNow (s : State) (tid : Nat) : State :=
  match s.thr tid with
  | some t => match t.escNow with
    | some n => s.escalate tid t n
    | none => s
  | none => s

/-- A bank whose context changed is Unsaved (R300). -/
def State.touchBank (s : State) (t : Thread) : State :=
  match t.place with
  | .bank v sl => s.updVc v fun c => { c with banks := modifyAt c.banks sl fun b => if b = .saved then .unsaved else b }
  | _ => s

/-- The command was accepted by a wait of the thread that has not returned yet: its register does not await it so far. -/
def Thread.placing (t : Thread) (id : Nat) : Bool :=
  t.allWaits.any fun w => match w.kind, w.verdict with
    | .place _ _ _ _ _ _ _, some v => v.code != 4 && v.val == w64 id
    | _, _ => false

/-- REPLY_ARRIVAL (R71): the reply fills the register that awaits it, else it is discarded, and counted while its thread
lives. -/
def execReplyArrival (id : Nat) (s : State) : Host.Outcome State Fault Refusal :=
  match s.replies.find? fun r => r.id == id with
  | none => .next s
  | some r =>
    let s' := { s with replies := s.replies.filter fun x => x.id != id }
    match s.thr r.tid with
    | none => .next s'
    | some t =>
      if t.placing id then .next s
      else if t.empty.getD r.reg.toNat none = some r.id then
        .next (((s'.setThr r.tid ((s.recalled t).fillReply r s.pt s.ac)).touchBank t |>.writeRecordReply t r).escalateNow r.tid)
      else .next ((s'.setThr r.tid (t.dropReply s.ac)).touchBank t)

/-! ## Parks, windows and gating (R110 to R113, R144) -/

/-- TIMEOUT_WINDOW_BOUNDARY (R110): for a thread in a slot; one that is out is counted anew when its next TIMEOUT comes. -/
def execTimeoutWindowBoundary (tid : Nat) (s : State) : Host.Outcome State Fault Refusal :=
  .next (s.updThr tid fun t => if t.winIdx = s.pt / 1000000 || !t.placed then t else { t with winCount := 0, winIdx := s.pt / 1000000 })

/-- The park class of a report: 0 parked-block, else the wait class of R357. -/
def WaitKind.cls (k : WaitKind) : Nat :=
  match k with
  | .counter _ _ _ => 1
  | .word _ _ _ => 2
  | .barrier _ _ _ => 3
  | .recv _ _ => 4
  | .monitor => 5
  | .fence _ _ _ _ _ | .ifence _ => 6
  | .spawn _ _ => 7
  | .ttake _ => 8
  | .place _ _ _ _ _ _ _ => 9
  | .evstep _ _ _ => 10
  | .reply _ => 11
  | .stream _ => 12
  | .light => 13

/-- The wait class of a thread, 0 where it is in no wait. -/
def Thread.waitClass (t : Thread) : Nat :=
  match t.run, t.wait with
  | .wait, some w => w.kind.cls
  | _, _ => 0

/-- A thread's residency timer has passed a limit in µs (R111). -/
def Thread.hangs (t : Thread) (pt : Nat) (limit : Word) : Bool :=
  t.run != .ready && t.absent == 0 && decide (t.parkedAt + fieldOf limit 0 32 * 1000 < pt)

/-- The PC a report or an imago entry shows: the instruction the walk is at, else the next one. -/
def Thread.showPc (t : Thread) : Word :=
  match t.run, t.block with
  | .ready, _ => t.pc
  | _, e :: _ => e.pc
  | _, [] => t.pc

/-- HANG_REPORT_A (R111): once per park, a report to the supervisor. -/
def execHangReportA (v sl : Nat) (s : State) : Host.Outcome State Fault Refusal :=
  match s.inSlot v sl with
  | some (tid, t) =>
    if !t.reportedA && t.hangs s.pt (s.vc v).hangA then
      .next ((s.setThr tid { t with reportedA := true }).report ⟨1, t.waitClass, v, sl, t.ctx, t.showPc, w64 (s.pt - t.parkedAt), s.pt⟩)
    else .next s
  | none => .next s

/-- HANG_REPORT_B (R111): once per park, a report to the management controller. -/
def execHangReportB (v sl : Nat) (s : State) : Host.Outcome State Fault Refusal :=
  match s.inSlot v sl with
  | some (tid, t) =>
    if !t.reportedB && t.hangs s.pt (s.vc v).hangB then
      let s := s.setThr tid { t with reportedB := true }
      .next { s with log := s.log ++ [.hangB v sl t.showPc t.waitClass (s.pt - t.parkedAt)] }
    else .next s
  | none => .next s

/-- Every slot of a core is Empty, Shed, Swapped or Parked-wait (R113). -/
def State.coreIdle (s : State) (v : Nat) : Bool :=
  (List.range 8).all fun sl => match s.inSlot v sl with
    | none => true
    | some (_, t) => t.shed || t.run == .wait

/-- CLOCK_GATE (R113): a core whose slots have all been idle for 64 ac is gated; the count starts where the core is first
found idle, and any slot that is not ends it, here or as time passes. -/
def execClockGate (v : Nat) (s : State) : Host.Outcome State Fault Refusal :=
  if !s.coreIdle v then
    .next (if (s.vc v).idleSince.isSome then s.updVc v fun c => { c with idleSince := none } else s)
  else match (s.vc v).idleSince with
    | none => .next (s.updVc v fun c => { c with idleSince := some s.ac })
    | some a =>
      if a + 64 ≤ s.ac && !(s.vc v).clockGated then .next (s.updVc v fun c => { c with clockGated := true }) else .next s

/-- What a gated core wakes for (R113): a wait of its slots that is met or whose E is near, a slot that is not idle, or a
register the reply of which has come. -/
def State.wakeDue (s : State) (v : Nat) : Bool :=
  (List.range 8).any fun sl => match s.inSlot v sl with
    | none => false
    | some (_, t) => !t.shed && (t.run != .wait || t.wait.any fun w => w.verdict.isSome || decide (w.deadline ≤ s.pt + 2000))

/-- CORE_WAKE (R113, R351): a gated core with a reason to runs again; no architectural state changes. -/
def execCoreWake (v : Nat) (s : State) : Host.Outcome State Fault Refusal :=
  if s.wakeDue v then
    .next (s.updVc v fun c => { c with clockGated := false, powerGated := setErase c.powerGated 0, idleSince := none })
  else .next s

/-- POSTED_FAULT_REPORT (R132, R144, R149, R180): the fault of a posted operation reaches its kernel; its record names the
instruction's PC. `id` is its place among those on their way. -/
def execPostedFaultReport (id : Nat) (s : State) : Host.Outcome State Fault Refusal :=
  match s.posted[id]? with
  | none => .next s
  | some (k, tid, x, pc) =>
    let t := s.thr tid
    let v := (t.map fun t => t.vcore).getD 0
    let sl := (t.map fun t => t.slot).getD 0
    .next (State.endKernel { s with posted := s.posted.eraseIdx id } k x.cause x.detail v sl pc x.val 0 pc)

/-- HOST_COUNTER_POLL (R146): the IO die re-reads a location whose home registers no waiter; the first read that satisfies
the wait meets it. -/
def execHostCounterPoll (tid : Nat) (s : State) : Host.Outcome State Fault Refusal :=
  match s.thr tid with
  | none => .next s
  | some t =>
    .next (s.setThr tid (t.mapWaits fun w =>
      if w.kind.home.isSome then w
      else match s.pollWait t w with
        | some d => { w with verdict := some d }
        | none => w))

end Sys2Proof.Machine
end

