-- ==== Sys2Proof/Machine/Groups.lean ====
section
/-!
DEFINITION. Sys2Proof/Machine/Groups.lean: groups and their barriers, kept at one home and changed there one operation at a
time (13_groups R250 to R259, 14_barriers R260 to R272).
-/
namespace Sys2Proof.Machine

/-- The key of a group slot from an id: die × 1,024 + slot (R250). -/
def groupKey (id : Nat) : Nat := bitsOf id 10 4 * 1024 + bitsOf id 0 10

/-- The member record of a thread. -/
def Group.member (g : Group) (tid : Nat) : Option Member := g.members.find? fun m => m.tid == tid

/-- The groups a thread belongs to, by key (R251). -/
def State.groupsOf (s : State) (tid : Nat) : List Nat :=
  s.groups.filterMap fun e => if e.2.active && (e.2.member tid).isSome then some e.1 else none

/-- A group with a member's arrival state replaced. -/
def Group.setArr (g : Group) (tid : Nat) (a : Arrival) : Group :=
  { g with members := g.members.map fun m => if m.tid = tid then { m with arr := a } else m }

/-- A wait on a group's barrier. -/
def PWait.onBarrier (w : PWait) (key : Nat) : Bool :=
  match w.kind with
  | .barrier k _ _ => k == key
  | _ => false

/-- A wait for a phase of a group's barrier. -/
def PWait.onPhase (w : PWait) (key phase : Nat) : Bool :=
  match w.kind with
  | .barrier k p _ => k == key && p == some phase
  | _ => false

/-- The wait is a BARW's, whose arrival is withdrawn where E passes (R269). -/
def PWait.withdraws (w : PWait) : Bool :=
  match w.kind with
  | .barrier _ _ arrive => arrive
  | _ => false

/-- The waits of a thread, pending or left under handlers, on a group's barrier that have no verdict yet. -/
def Thread.barrierWaits (t : Thread) (key : Nat) : List PWait :=
  t.allWaits.filter fun w => w.verdict.isNone && w.onBarrier key

/-- A verdict given to a thread's barrier waits on a group that have none. -/
def Thread.giveBarrier (t : Thread) (key : Nat) (f : PWait → Option Verdict) : Thread :=
  t.mapWaits fun w => if w.onBarrier key then { w with verdict := f w } else w

/-- A success given to a thread's waits for a phase of a group's barrier. -/
def Thread.givePhase (t : Thread) (key phase : Nat) (v : Verdict) : Thread :=
  t.mapWaits fun w => if w.onPhase key phase then { w with verdict := some v } else w

/-- The thread is parked in a wait for a phase of a group's barrier, no handler above it (R271). -/
def Thread.parkedIn (t : Thread) (key phase : Nat) : Bool :=
  t.run == .wait && t.wait.any fun w => w.verdict.isNone && w.onPhase key phase

/-- A thread that leaves a group takes its arrival away from the waits it left under handlers there (R267). -/
def Thread.loseArrival (t : Thread) (key : Nat) : Thread :=
  t.mapWaits fun w => match w.kind with
    | .barrier k _ a => if k = key then { w with kind := .barrier k none a } else w
    | _ => w

/-- What ends a BARW whose E has passed with its phase incomplete (R269), and a BARX (R266). -/
def State.barrierLate (s : State) (t : Thread) (w : PWait) : Verdict :=
  match w.kind with
  | .barrier _ _ true => ⟨s.pt, 5, 0, 0, 0⟩
  | _ => s.timeout t w 0

/-- A member's arrival that its home withdraws: that of a BARW of the open phase whose E has passed (R269). -/
def Member.expired (m : Member) (s : State) (key : Nat) : Bool :=
  match s.thr m.tid with
  | some t => (t.barrierWaits key).any fun w => w.onPhase key (s.group key).phase && w.withdraws && decide (w.deadline < s.pt)
  | none => false

/-- The home decides each wait of a group whose own E has passed (R269): a BARW's arrival is withdrawn, a BARX's stands. -/
def State.expireGroup (s : State) (key : Nat) : State :=
  let late := fun (t : Thread) (w : PWait) => if w.deadline < s.pt then some (s.barrierLate t w) else none
  if s.threads.any fun e => (e.2.barrierWaits key).any fun w => decide (w.deadline < s.pt) then
    let g := s.group key
    (s.mapThr fun _ t => t.giveBarrier key (late t)).setGroup key
      { g with members := g.members.map fun m => if m.expired s key then { m with arr := .idle } else m }
  else s

/-- What a wait whose E has passed unmet returns (R105), barriers apart (R269): PARTIAL for a fence (R130), FULL for a place
in a queue or pool (R209, R212, R285); a location whose home registers no waiter is read once more (R146). -/
def State.expiredWait (s : State) (t : Thread) (w : PWait) : Verdict :=
  match w.kind with
  | .fence _ mask stores cmds apps => s.partialFence t mask stores cmds apps
  | .place _ _ _ _ _ _ _ => ⟨s.pt, 4, 0, 0, 0⟩
  | .spawn _ _ => ⟨s.pt, 4, 1, 0, 0⟩
  | .counter _ _ _ | .word _ _ _ => if w.kind.home.isSome then s.lateWait t w else (s.pollWait t w).getD (s.lateWait t w)
  | _ => s.timeout t w 0

/-- The wait ends with an E, other than at a group's home. -/
def WaitKind.timed (k : WaitKind) : Bool :=
  match k with
  | .barrier _ _ _ | .reply _ | .stream _ | .light => false
  | _ => true

/-- A thread's waits whose E has passed, decided (R105); those of barriers are their home's. -/
def State.expireTimed (s : State) (t : Thread) : Thread :=
  t.mapWaits fun w => if w.kind.timed && decide (w.deadline < s.pt) then { w with verdict := some (s.expiredWait t w) } else w

/-- The residency timer stopped when a thread leaves its slot, and started again when it returns (R111). -/
def Thread.flipTimer (t : Thread) (pt : Nat) : Thread := { t with parkedAt := pt - t.parkedAt }

/-- A barrier wait that its home no longer knows, as its thread left the group, ends at E (R105, R267). -/
def State.expireLeft (s : State) (t : Thread) : Thread :=
  t.mapWaits fun w => match w.kind with
    | .barrier _ _ _ => if w.deadline < s.pt then { w with verdict := some (s.barrierLate t w) } else w
    | _ => w

/-- The waits of a thread whose E has passed, decided, those of barriers at their homes (R105, R269). -/
def State.expireThread (s : State) (tid : Nat) : State :=
  match s.thr tid with
  | none => s
  | some t =>
    let s := t.allWaits.foldl (fun s w => match w.kind with
      | .barrier key _ _ => s.expireGroup key
      | _ => s) s
    match s.thr tid with
    | some t => s.setThr tid (s.expireLeft (s.expireTimed t))
    | none => s

/-- A thread that is parked in the middle of a block, on an empty reply register, at the boundary the block began at: nothing of
the block has retired, and it begins anew (R72; log 38). -/
def Thread.rewound (t : Thread) : Thread :=
  match t.block with
  | e :: _ => if t.run = .wait && !t.walking then { t.discard with pc := e.pc, run := .ready } else t
  | [] => t

/-- A thread becomes Shed (R64), the waits it leaves behind expired having been decided. -/
def State.toShed (s : State) (t : Thread) : Thread := { t.rewound.flipTimer s.pt with shed := true, shedReq := none }

/-- A thread becomes Shed: the waits whose E has passed by then are decided first, as of one in its slot (R107; log 38), and its
stream context is drained once its appends have been accepted (R181). -/
def State.shedThread (s : State) (tid : Nat) : State :=
  let s := (s.expireThread tid).updThr tid (s.toShed ·)
  if (s.thr tid).any fun t => t.appends.isEmpty then s.drainStreams tid else s

/-- A member with a shed or migration request pending at a completion instant (R271): parked in the barrier it is taken out
there, so that the completion falls in its absence; otherwise, its wait under a handler too, at its next block boundary. An
ATBAR request whose bound has passed is forced instead (R305). -/
def State.atCompletion (s : State) (tid : Nat) (parked : Bool) : State :=
  let s := match (s.thr tid).bind fun t => t.shedReq with
    | some d => if parked then s.shedThread tid else s.updThr tid fun t => { t with shedReq := some (min d s.pt) }
    | none => s
  s.updThr tid fun t => match t.migrate with
    | some (_, bound, true) => { t with migrate := some (if s.pt ≤ bound then (1, s.pt, false) else (0, bound, false)) }
    | _ => t

/-- The success of a member's barrier wait at a completion (R264, R266, R271): `out` where its migration takes it out of the
wait. -/
def State.barrierSuccess (s : State) (t : Thread) (phase : Nat) (out : Bool) : Verdict :=
  let v := s.success t (phase % 65536) 0
  if out && v.code == 0 && !s.det t.ctx then { v with code := 2, detail := 3 } else v

/-- One member at a completion (R261, R267): each of its waits for the phase succeeds and it is Idle, or it has Passed. -/
def State.settleMember (s : State) (key phase : Nat) (m : Member) : State :=
  match s.thr m.tid with
  | none => s
  | some t =>
    let waits := (t.barrierWaits key).any fun w => w.onPhase key phase
    let parked := t.parkedIn key phase
    let s := (s.atCompletion m.tid parked).updThr m.tid fun t =>
      t.givePhase key phase (s.barrierSuccess t phase (parked && t.migrate.isSome))
    s.setGroup key ((s.group key).setArr m.tid (if waits then .idle else .passed phase))

/-- A phase is complete: there are members, and every one has arrived (R267). -/
def Group.whole (g : Group) : Bool := !g.members.isEmpty && g.members.all fun m => m.arr == .arrived

/-- The test for completion after a change (R267): the bitmap is cleared, the phase advances, the waiters are settled. -/
def State.testCompletion (s : State) (key : Nat) : State :=
  let g := s.group key
  if g.active && g.whole then
    g.members.foldl (fun s m => s.settleMember key g.phase m) (s.setGroup key { g with phase := (g.phase + 1) % 2 ^ 32 })
  else s

/-- A thread to be shed that belongs to no group any more is shed at its next point (R341). -/
def State.ungrouped (s : State) (tid : Nat) : State :=
  if (s.groupsOf tid).isEmpty then
    s.updThr tid fun t => { t with shedReq := t.shedReq.map fun d => min d s.pt }
  else s

/-- A thread leaves a group (R256, R267): its index is free, its arrival discarded, and the phase may complete. -/
def State.leaveGroup (s : State) (tid key : Nat) : State :=
  let s := s.expireGroup key
  let g := s.group key
  let s := s.updThr tid fun t => t.loseArrival key
  State.ungrouped ((s.setGroup key { g with members := g.members.filter fun m => m.tid != tid }).testCompletion key) tid

/-- EXIT leaves every group (R257). -/
def State.leaveAll (s : State) (tid : Nat) : State := (s.groupsOf tid).foldl (fun s k => s.leaveGroup tid k) s

/-- A group becomes Free (R252): every wait on it returns GONE, also that of a thread that has left it under a handler; its
members are removed, its generation advances. -/
def State.freeGroup (s : State) (key : Nat) : State :=
  let s := s.expireGroup key
  let g := s.group key
  let s := s.mapThr fun _ t => t.giveBarrier key fun _ => some ⟨s.pt, 8, 0, 0, 0⟩
  g.members.foldl (fun s m => s.ungrouped m.tid) (s.setGroup key { Group.reset with gen := (g.gen + 1) % 4 })

/-- Every group of a kernel becomes Free (R252, R287). -/
def State.freeKernelGroups (s : State) (p : Group → Bool) : State :=
  (s.groups.filterMap fun e => if e.2.active && p e.2 then some e.1 else none).foldl State.freeGroup s

/-! ## The checks (R254, R263) -/

/-- Failure of JOIN and GNEW (R254). -/
def groupError (code detail : Nat) : Word := 0x8000000000000000 ||| status code detail 0

/-- The compute dies a thread's kernel may use; every one where it has no kernel. -/
def State.dieMask (s : State) (t : Thread) : Nat :=
  match t.kernel.bind s.kern with
  | some k => fieldOf (k.packet.getD 0 0) 48 16
  | none => 0xFFFF

/-- The group an id names (R250). -/
def State.named (s : State) (id : Nat) : Option Group :=
  let g := s.group (groupKey id)
  if g.active && g.gen == bitsOf id 14 2 then some g else none

/-- The group is the thread's own kernel's (R251). -/
def Group.owns (g : Group) (t : Thread) : Bool := g.ctx == t.ctx && g.kernel == t.kernel

/-- The first cause that refuses a JOIN, LEAVE or GFREE (R254): code and detail. -/
def State.groupCheck (s : State) (t : Thread) (tid : Nat) (rs1v : Word) (join leave : Bool) : Option (Nat × Nat) :=
  let id := rs1v.toNat
  if 65536 ≤ id then some (11, 1)
  else
    let g := s.named id
    let wrongClass := match g with
      | some g => join && g.cls != t.cls
      | none => false
    let foreign := !bitAt (s.dieMask t) (bitsOf id 10 4) || (match g with
      | some g => !g.owns t
      | none => false)
    let outsider := match g with
      | some g => leave && (g.member tid).isNone
      | none => false
    if wrongClass then some (11, 2)
    else if foreign then some (11, 3)
    else if outsider then some (11, 4)
    else match g with
      | none => some (8, 0)
      | some g =>
        if join && (g.member tid).isNone && (4 ≤ (s.groupsOf tid).length || 1024 ≤ g.members.length) then some (4, 3)
        else none

/-- The lowest member index not in use (R256). -/
def Group.freeIdx (g : Group) : Nat :=
  ((List.range 1025).find? fun n => !(g.members.any fun m => m.idx == n)).getD 1024

/-- JOIN (R256). -/
def execJoin (rd rs1 : Reg) (mark : Bool) (s : State) : Host.Outcome State Fault Refusal :=
  s.threadOp (.join rd rs1 mark) (deferredForm [rs1] [rd] mark) (deferBody [rs1]) fun s tid t e =>
    match s.groupCheck t tid (e.op 0) true false with
    | some c => s.finishX tid e rd (groupError c.1 c.2)
    | none =>
      let key := groupKey (e.op 0).toNat
      let s := s.expireGroup key
      let g := s.group key
      match g.member tid with
      | some m => s.finishX tid e rd (w64 m.idx)
      | none =>
        let n := g.freeIdx
        (s.setGroup key { g with members := g.members ++ [⟨n, tid, .idle⟩] }).finishX tid e rd (w64 n)

/-- LEAVE (R256). -/
def execLeave (rd rs1 : Reg) (mark : Bool) (s : State) : Host.Outcome State Fault Refusal :=
  s.threadOp (.leave rd rs1 mark) (deferredForm [rs1] [rd] mark) (deferBody [rs1]) fun s tid t e =>
    match s.groupCheck t tid (e.op 0) false true with
    | some c => s.finishX tid e rd (status c.1 c.2 0)
    | none => (s.leaveGroup tid (groupKey (e.op 0).toNat)).finishX tid e rd (status 0 0 0)

/-- GFREE (R256). -/
def execGfree (rd rs1 : Reg) (mark : Bool) (s : State) : Host.Outcome State Fault Refusal :=
  s.threadOp (.gfree rd rs1 mark) (deferredForm [rs1] [rd] mark) (deferBody [rs1]) fun s tid t e =>
    match s.groupCheck t tid (e.op 0) false false with
    | some c => s.finishX tid e rd (status c.1 c.2 0)
    | none => (s.freeGroup (groupKey (e.op 0).toNat)).finishX tid e rd (status 0 0 0)

/-- The groups a kernel holds. -/
def State.kernelGroups (s : State) (k : Option Nat) : Nat := (s.groups.filter fun e => e.2.active && e.2.kernel == k).length

/-- The number of groups a thread's kernel may hold (R275 GROUPS); a thread of no kernel has no such bound. -/
def State.groupQuota (s : State) (t : Thread) : Nat :=
  match t.kernel.bind s.kern with
  | some k => fieldOf (k.packet.getD 2 0) 54 10
  | none => 16384

/-- GNEW (R254, R255). -/
def execGnew (rd rs1 : Reg) (mark : Bool) (s : State) : Host.Outcome State Fault Refusal :=
  s.threadOp (.gnew rd rs1 mark) (deferredForm [rs1] [rd] mark) (deferBody [rs1]) fun s tid t e =>
    let a := (e.op 0).toNat
    let homev := bitAt a 6
    let die := if homev then bitsOf a 2 4 else dieOf t.vcore
    let self := bitAt a 7
    let free := (List.range 1024).find? fun n => !(s.group (die * 1024 + n)).active
    if 256 ≤ a || (!homev && bitsOf a 2 4 != 0) then s.finishX tid e rd (groupError 11 1)
    else if bitsOf a 0 2 ≠ t.cls then s.finishX tid e rd (groupError 11 2)
    else if !bitAt (s.dieMask t) die then s.finishX tid e rd (groupError 11 3)
    else match free with
      | none => s.finishX tid e rd (groupError 4 1)
      | some n =>
        if s.groupQuota t ≤ s.kernelGroups t.kernel then s.finishX tid e rd (groupError 4 2)
        else if self && 4 ≤ (s.groupsOf tid).length then s.finishX tid e rd (groupError 4 3)
        else
          let key := die * 1024 + n
          let g := s.group key
          let g' : Group := { gen := g.gen, active := true, cls := t.cls, kernel := t.kernel, ctx := t.ctx,
                              members := if self then [⟨0, tid, .idle⟩] else [], phase := 0 }
          (s.setGroup key g').finishX tid e rd (w64 (n + die * 1024 + g.gen * 16384))

/-! ## Barriers (R263 to R266) -/

/-- The checks of a barrier instruction (R263): code and detail. -/
def State.barrierCheck (s : State) (t : Thread) (tid : Nat) (rs1v : Word) (arrive : Bool) : Option (Nat × Nat) :=
  if 65536 ≤ rs1v.toNat then some (11, 1)
  else match s.named rs1v.toNat with
    | none => some (8, 0)
    | some g =>
      if !g.owns t then some (11, 3)
      else match g.member tid with
        | none => some (11, 4)
        | some m =>
          if arrive && m.arr == .arrived then some (11, 5)
          else if !arrive && m.arr == .idle then some (11, 6) else none

/-- An arrival after its release (R264): the bit, then the test for completion. -/
def State.arrive (s : State) (tid key : Nat) : State :=
  (s.setGroup key ((s.group key).setArr tid .arrived)).testCompletion key

/-- BARW (R264): arrives and waits; at E it withdraws. -/
def execBarw (rd rs1 rs3 : Reg) (mark : Bool) (s : State) : Host.Outcome State Fault Refusal :=
  s.threadOp (.barw rd rs1 rs3 mark) (waitForm [rs1, rs3] [rd] mark) (deferBody [rs1, rs3]) fun s tid t e =>
    let key := groupKey (e.op 0).toNat
    let s := s.expireGroup key
    match s.barrierCheck t tid (e.op 0) true with
    | some c => s.refuseWait tid t e .light rd (e.op 1) c.1 c.2
    | none =>
      s.releasingWait tid t e (e.op 1) fun s =>
      let p := (s.group key).phase
      let w := s.begunWait t e (.barrier key (some p) true) rd (e.op 1)
      let s := s.arrive tid key
      if (s.group key).phase ≠ p then
        (s.setGroup key ((s.group key).setArr tid .idle)).endWait tid e w ⟨s.pt, 0, 0, p % 65536, 0⟩
      else if w.deadline ≤ s.pt then
        (s.setGroup key ((s.group key).setArr tid .idle)).endWait tid e w ⟨s.pt, 5, 0, 0, 0⟩
      else s.parkWait tid w

/-- BARA (R265): arrives and returns at once. -/
def execBara (rd rs1 : Reg) (mark : Bool) (s : State) : Host.Outcome State Fault Refusal :=
  s.threadOp (.bara rd rs1 mark) (deferredForm [rs1] [rd] mark) (deferBody [rs1]) fun s tid t e =>
    let key := groupKey (e.op 0).toNat
    let s := s.expireGroup key
    match s.barrierCheck t tid (e.op 0) true with
    | some c => s.finishX tid e rd (status c.1 c.2 0)
    | none =>
      s.releasing tid t fun s =>
      let p := (s.group key).phase
      (s.arrive tid key).finishX tid e rd (status 0 0 p)

/-- BARX (R266): waits for the phase of the issuer's outstanding arrival. -/
def execBarx (rd rs1 rs3 : Reg) (mark : Bool) (s : State) : Host.Outcome State Fault Refusal :=
  s.threadOp (.barx rd rs1 rs3 mark) (waitForm [rs1, rs3] [rd] mark) (deferBody [rs1, rs3]) fun s tid t e =>
    let key := groupKey (e.op 0).toNat
    let s := s.expireGroup key
    match s.barrierCheck t tid (e.op 0) false with
    | some c => s.refuseWait tid t e .light rd (e.op 1) c.1 c.2
    | none =>
      let g := s.group key
      let arr : Arrival := ((g.member tid).map fun m => m.arr).getD .idle
      match arr with
      | .passed p =>
        (s.setGroup key (g.setArr tid .idle)).endWait tid e (s.newWait t (.barrier key (some p) false) rd (e.op 1)) ⟨s.pt, 0, 0, p % 65536, 0⟩
      | _ => s.performWait tid t e (s.newWait t (.barrier key (some g.phase) false) rd (e.op 1)) none 0

end Sys2Proof.Machine
end

