-- ==== Sys2Proof/Machine/Vector.lean ====
section
/-!
DEFINITION. Sys2Proof/Machine/Vector.lean: the arithmetic, conversion, reduction and lane-moving instructions of the VEC
space (09_vector_instructions R158 to R172).
-/
namespace Sys2Proof.Machine

/-- The write mask an msel field selects (R159). -/
def Thread.vmask (t : Thread) (m : BitVec 2) : Mask := t.mr m.toNat

/-- What the lanes of one register become: the bits written, their values, the flags set (R159). -/
structure VRes where
  bits : Vec
  val  : Vec
  flags : Flags
  deriving DecidableEq, Repr

/-- The results of the lanes `first` to `first + n - 1` of elements of width `w`, mask bit i governing element i (R159). -/
def lanesOf (w n first : Nat) (m : Mask) (f : Nat → Nat × Flags) : VRes :=
  let rs := (List.range n).map fun i => if bitAt m.toNat (first + i) then some (f (first + i)) else none
  ⟨lanesVec w n fun i => if (rs.getD i none).isSome then 2 ^ w - 1 else 0,
   lanesVec w n fun i => ((rs.getD i none).getD (0, 0)).1,
   rs.foldl (fun fl r => match r with
     | some x => flagOr fl x.2
     | none => fl) 0⟩

/-- A vector result (R159, R178): a masked register write, or an append where a write stream is bound. -/
def Thread.putV (t : Thread) (e : Entry) (vd : Reg) (bits val : Vec) : Entry :=
  match t.bound vd with
  | some (j, x) =>
    if x.append then { e with app := e.app ++ [(j, (val &&& bits) ||| (t.vr vd &&& ~~~ bits))] }
    else { e with vw := e.vw ++ [⟨vd, bits, val⟩] }
  | none => { e with vw := e.vw ++ [⟨vd, bits, val⟩] }

/-- The result of a single-register operation. -/
def Thread.putRes (t : Thread) (e : Entry) (vd : Reg) (r : VRes) : Entry :=
  let e' := t.putV e vd r.bits r.val
  { e' with flags := flagOr e'.flags r.flags }

/-- The element-wise results of a pair (R158). -/
def Thread.putPair (t : Thread) (e : Entry) (vd : Reg) (w n : Nat) (m : Mask) (f : Nat → Nat × Flags) : Entry :=
  t.putRes (t.putRes e vd (lanesOf w n 0 m f)) (nextReg vd) (lanesOf w n n m f)

/-- Element `i` of a register pair of `n` lanes each (R158). -/
def pairLane (lo hi : Vec) (w n i : Nat) : Nat := if i < n then laneOf lo w i else laneOf hi w (i - n)

/-- A vector instruction (R160): its entry from its thread; it reads no memory. -/
def State.vecOp (s : State) (i : Instr) (f : Form) (go : Thread → Entry → Entry) : Host.Outcome State Fault Refusal :=
  s.threadOp i f (fun _ _ t e => (go t e, t.pc + 4)) noPerform

/-! ## Lane operations (R161) -/

/-- An exact integer result saturated to its type (R161 S). -/
def satLane (ty : VType) (v : Int) : Nat × Flags :=
  let r := satTo (typeRange ty).1 (typeRange ty).2 v
  (truncInt r.1 (widthOf ty), r.2)

/-- An exact integer result wrapped to the lane width (R161 W). -/
def wrapLane (ty : VType) (v : Int) : Nat × Flags := (truncInt v (widthOf ty), 0)

/-- VADD and VSUB: saturating, but wrapping for .w (R161). -/
def laneAdd (ty : VType) (sub : Bool) (a b : Nat) : Nat × Flags :=
  if ty.isFp then (if sub then (fmtOf ty).sub a b else (fmtOf ty).add a b)
  else
    let v := if sub then laneInt ty a - laneInt ty b else laneInt ty a + laneInt ty b
    if ty = .w then wrapLane ty v else satLane ty v

/-- VMUL. -/
def laneMul (ty : VType) (a b : Nat) : Nat × Flags :=
  if ty.isFp then (fmtOf ty).mul a b else wrapLane ty (laneInt ty a * laneInt ty b)

/-- VMULH: the high half of the product. -/
def laneMulh (ty : VType) (a b : Nat) : Nat × Flags :=
  wrapLane ty (laneInt ty a * laneInt ty b / (2 ^ widthOf ty : Nat))

/-- VMADD: c + a × b, saturated or rounded once. -/
def laneMadd (ty : VType) (c a b : Nat) : Nat × Flags :=
  if ty.isFp then (fmtOf ty).madd c a b else satLane ty (laneInt ty c + laneInt ty a * laneInt ty b)

/-- VMIN and VMAX. -/
def laneMinMax (ty : VType) (max : Bool) (a b : Nat) : Nat × Flags :=
  if ty.isFp then (fmtOf ty).minMax max a b
  else if max then (if laneInt ty a < laneInt ty b then b else a, 0) else (if laneInt ty b < laneInt ty a then b else a, 0)

/-- VSLL, VSRL, VSRA: the shift amount is taken modulo the lane width. -/
def laneSll (ty : VType) (a b : Nat) : Nat × Flags := (a * 2 ^ (b % widthOf ty) % 2 ^ widthOf ty, 0)
def laneSrl (ty : VType) (a b : Nat) : Nat × Flags := (a / 2 ^ (b % widthOf ty), 0)
def laneSra (ty : VType) (a b : Nat) : Nat × Flags :=
  (truncInt (sextNat a (widthOf ty) / (2 ^ (b % widthOf ty) : Nat)) (widthOf ty), 0)

/-- VABS. -/
def laneAbs (ty : VType) (a : Nat) : Nat × Flags :=
  if ty.isFp then (fmtOf ty).abs a else satLane ty ((laneInt ty a).natAbs : Int)

/-- The compares (R162): 0 equal, 1 less, 2 less or equal. -/
def laneCompare (ty : VType) (op a b : Nat) : Bool × Flags :=
  if ty.isFp then (fmtOf ty).compare op a b
  else
    let x := laneInt ty a
    let y := laneInt ty b
    (match op with
      | 0 => decide (x = y)
      | 1 => decide (x < y)
      | _ => decide (x ≤ y), 0)

/-- A lane-wise operation of two registers (R161). -/
def State.vecBin (s : State) (i : Instr) (ty : VType) (vd vs1 vs2 : Reg) (m : BitVec 2) (mark : Bool)
    (f : Nat → Nat → Nat × Flags) : Host.Outcome State Fault Refusal :=
  s.vecOp i (vectorForm [] [] [vs1, vs2] [vd] mark) fun t e =>
    let a := t.readV vs1
    let b := t.readV vs2
    let w := widthOf ty
    t.putRes e vd (lanesOf w ty.lanes 0 (t.vmask m) fun k => f (laneOf a w k) (laneOf b w k))

/-- A lane-wise operation of one register. -/
def State.vecUn (s : State) (i : Instr) (ty : VType) (vd vs1 : Reg) (m : BitVec 2) (mark : Bool)
    (f : Nat → Nat × Flags) : Host.Outcome State Fault Refusal :=
  s.vecOp i (vectorForm [] [] [vs1] [vd] mark) fun t e =>
    let a := t.readV vs1
    let w := widthOf ty
    t.putRes e vd (lanesOf w ty.lanes 0 (t.vmask m) fun k => f (laneOf a w k))

/-- VADD (R161). -/
def execVadd (ty : VType) (vd vs1 vs2 : Reg) (m : BitVec 2) (mark : Bool) (s : State) :
    Host.Outcome State Fault Refusal :=
  s.vecBin (.vadd ty vd vs1 vs2 m mark) ty vd vs1 vs2 m mark (laneAdd ty false)

/-- VSUB (R161). -/
def execVsub (ty : VType) (vd vs1 vs2 : Reg) (m : BitVec 2) (mark : Bool) (s : State) :
    Host.Outcome State Fault Refusal :=
  s.vecBin (.vsub ty vd vs1 vs2 m mark) ty vd vs1 vs2 m mark (laneAdd ty true)

/-- VMUL (R161). -/
def execVmul (ty : VType) (vd vs1 vs2 : Reg) (m : BitVec 2) (mark : Bool) (s : State) :
    Host.Outcome State Fault Refusal :=
  s.vecBin (.vmul ty vd vs1 vs2 m mark) ty vd vs1 vs2 m mark (laneMul ty)

/-- VMULH (R161). -/
def execVmulh (ty : VType) (vd vs1 vs2 : Reg) (m : BitVec 2) (mark : Bool) (s : State) :
    Host.Outcome State Fault Refusal :=
  s.vecBin (.vmulh ty vd vs1 vs2 m mark) ty vd vs1 vs2 m mark (laneMulh ty)

/-- VMIN (R161). -/
def execVmin (ty : VType) (vd vs1 vs2 : Reg) (m : BitVec 2) (mark : Bool) (s : State) :
    Host.Outcome State Fault Refusal :=
  s.vecBin (.vmin ty vd vs1 vs2 m mark) ty vd vs1 vs2 m mark (laneMinMax ty false)

/-- VMAX (R161). -/
def execVmax (ty : VType) (vd vs1 vs2 : Reg) (m : BitVec 2) (mark : Bool) (s : State) :
    Host.Outcome State Fault Refusal :=
  s.vecBin (.vmax ty vd vs1 vs2 m mark) ty vd vs1 vs2 m mark (laneMinMax ty true)

/-- VAND (R161). -/
def execVand (ty : VType) (vd vs1 vs2 : Reg) (m : BitVec 2) (mark : Bool) (s : State) :
    Host.Outcome State Fault Refusal :=
  s.vecBin (.vand ty vd vs1 vs2 m mark) ty vd vs1 vs2 m mark fun a b => (a &&& b, 0)

/-- VOR (R161). -/
def execVor (ty : VType) (vd vs1 vs2 : Reg) (m : BitVec 2) (mark : Bool) (s : State) :
    Host.Outcome State Fault Refusal :=
  s.vecBin (.vor ty vd vs1 vs2 m mark) ty vd vs1 vs2 m mark fun a b => (a ||| b, 0)

/-- VXOR (R161). -/
def execVxor (ty : VType) (vd vs1 vs2 : Reg) (m : BitVec 2) (mark : Bool) (s : State) :
    Host.Outcome State Fault Refusal :=
  s.vecBin (.vxor ty vd vs1 vs2 m mark) ty vd vs1 vs2 m mark fun a b => (a ^^^ b, 0)

/-- VSLL (R161). -/
def execVsll (ty : VType) (vd vs1 vs2 : Reg) (m : BitVec 2) (mark : Bool) (s : State) :
    Host.Outcome State Fault Refusal :=
  s.vecBin (.vsll ty vd vs1 vs2 m mark) ty vd vs1 vs2 m mark (laneSll ty)

/-- VSRL (R161). -/
def execVsrl (ty : VType) (vd vs1 vs2 : Reg) (m : BitVec 2) (mark : Bool) (s : State) :
    Host.Outcome State Fault Refusal :=
  s.vecBin (.vsrl ty vd vs1 vs2 m mark) ty vd vs1 vs2 m mark (laneSrl ty)

/-- VSRA (R161). -/
def execVsra (ty : VType) (vd vs1 vs2 : Reg) (m : BitVec 2) (mark : Bool) (s : State) :
    Host.Outcome State Fault Refusal :=
  s.vecBin (.vsra ty vd vs1 vs2 m mark) ty vd vs1 vs2 m mark (laneSra ty)

/-- VABS (R161). -/
def execVabs (ty : VType) (vd vs1 : Reg) (m : BitVec 2) (mark : Bool) (s : State) : Host.Outcome State Fault Refusal :=
  s.vecUn (.vabs ty vd vs1 m mark) ty vd vs1 m mark (laneAbs ty)

/-- VMADD (R161): it also reads vd. -/
def execVmadd (ty : VType) (vd vs1 vs2 : Reg) (m : BitVec 2) (mark : Bool) (s : State) : Host.Outcome State Fault Refusal :=
  s.vecOp (.vmadd ty vd vs1 vs2 m mark) (vectorForm [] [] [vs1, vs2, vd] [vd] mark) fun t e =>
    let a := t.readV vs1
    let b := t.readV vs2
    let c := t.readV vd
    let w := widthOf ty
    t.putRes e vd (lanesOf w ty.lanes 0 (t.vmask m) fun k => laneMadd ty (laneOf c w k) (laneOf a w k) (laneOf b w k))

/-! ## Compares and selection (R162, R163) -/

/-- A compare into a mask register: bits from n up are 0, masked-off bits stay; flags are set even for m0. -/
def State.vecCompare (s : State) (i : Instr) (ty : VType) (md : BitVec 3) (vs1 vs2 : Reg) (m : BitVec 2) (mark : Bool)
    (op : Nat) : Host.Outcome State Fault Refusal :=
  s.vecOp i (vectorForm [] [] [vs1, vs2] [] mark) fun t e =>
    let a := t.readV vs1
    let b := t.readV vs2
    let w := widthOf ty
    let n := ty.lanes
    let mask := (t.vmask m).toNat
    let rs : List (Bool × Bool × Flags) := (List.range n).map fun k =>
      if bitAt mask k then
        let r := laneCompare ty op (laneOf a w k) (laneOf b w k)
        (true, r.1, r.2)
      else (false, false, 0)
    let num := fun (f : Nat → Bool) => (List.range 32).foldl (fun acc k => if f k then acc + 2 ^ k else acc) 0
    let bits := num fun k => decide (n ≤ k) || (rs.getD k (false, false, 0)).1
    let val := num fun k => (rs.getD k (false, false, 0)).2.1
    { e with mw := [⟨md, BitVec.ofNat 32 bits, BitVec.ofNat 32 val⟩],
             flags := rs.foldl (fun fl r => flagOr fl r.2.2) 0 }

/-- VCMPEQ (R162). -/
def execVcmpeq (ty : VType) (md : BitVec 3) (vs1 vs2 : Reg) (m : BitVec 2) (mark : Bool) (s : State) :
    Host.Outcome State Fault Refusal :=
  s.vecCompare (.vcmpeq ty md vs1 vs2 m mark) ty md vs1 vs2 m mark 0

/-- VCMPLT (R162). -/
def execVcmplt (ty : VType) (md : BitVec 3) (vs1 vs2 : Reg) (m : BitVec 2) (mark : Bool) (s : State) :
    Host.Outcome State Fault Refusal :=
  s.vecCompare (.vcmplt ty md vs1 vs2 m mark) ty md vs1 vs2 m mark 1

/-- VCMPLE (R162). -/
def execVcmple (ty : VType) (md : BitVec 3) (vs1 vs2 : Reg) (m : BitVec 2) (mark : Bool) (s : State) :
    Host.Outcome State Fault Refusal :=
  s.vecCompare (.vcmple ty md vs1 vs2 m mark) ty md vs1 vs2 m mark 2

/-- VSEL (R163): every lane is written, from vs1 where the mask bit is 1. -/
def execVsel (ty : VType) (vd vs1 vs2 : Reg) (m : BitVec 2) (mark : Bool) (s : State) : Host.Outcome State Fault Refusal :=
  s.vecOp (.vsel ty vd vs1 vs2 m mark) (vectorForm [] [] [vs1, vs2] [vd] mark) fun t e =>
    let pick := laneBits (widthOf ty) ty.lanes (t.vmask m)
    t.putV e vd (BitVec.allOnes 256) ((t.readV vs1 &&& pick) ||| (t.readV vs2 &&& ~~~ pick))

/-! ## Conversion (R164, R165) -/

/-- VCVT (R164): element i of the source converts to element i of the destination. -/
def execVcvt (ty dty : VType) (rm : Round) (vd vs1 : Reg) (m : BitVec 2) (mark : Bool) (s : State) :
    Host.Outcome State Fault Refusal :=
  let shape := cvtShape ty dty
  let srcs := if shape = some .narrow then [vs1, nextReg vs1] else [vs1]
  let dsts := if shape = some .widen then [vd, nextReg vd] else [vd]
  s.vecOp (.vcvt ty dty rm vd vs1 m mark) (vectorForm [] [] srcs dsts mark) fun t e =>
    let lo := t.readV vs1
    let hi := if shape = some .narrow then t.readV (nextReg vs1) else 0
    let f := fun k => convert ty dty rm (pairLane lo hi (widthOf ty) ty.lanes k)
    if shape = some .widen then t.putPair e vd (widthOf dty) dty.lanes (t.vmask m) f
    else t.putRes e vd (lanesOf (widthOf dty) dty.lanes 0 (t.vmask m) f)

/-- An INT32 of 16 fraction bits rounded to an integer and saturated to 16 bits (R165). -/
def narrowFixed (rm : Round) (x : Nat) : Nat × Flags :=
  let v := sextNat x 32
  let r := roundInt rm (decide (v < 0)) v.natAbs (-16)
  let c := sat16 r.1
  (truncInt c.1 16, flagOr c.2 (if r.2 then flagNX else 0))

/-- VNRW (R165). -/
def execVnrw (ty : VType) (rm : Round) (vd vs1 : Reg) (m : BitVec 2) (mark : Bool) (s : State) :
    Host.Outcome State Fault Refusal :=
  s.vecOp (.vnrw ty rm vd vs1 m mark) (vectorForm [] [] [vs1, nextReg vs1] [vd] mark) fun t e =>
    let lo := t.readV vs1
    let hi := t.readV (nextReg vs1)
    let r := match ty with
      | .h => lanesOf 8 32 0 (t.vmask m) fun k =>
          let c := sat8 (sextNat (pairLane lo hi 16 16 k) 16)
          (truncInt c.1 8, c.2)
      | .w => lanesOf 16 16 0 (t.vmask m) fun k =>
          let c := sat16 (sextNat (pairLane lo hi 32 8 k) 32)
          (truncInt c.1 16, c.2)
      | _ => lanesOf 16 16 0 (t.vmask m) fun k => narrowFixed rm (pairLane lo hi 32 8 k)
    t.putRes e vd r

/-- VWID (R165). -/
def execVwid (ty : VType) (vd vs1 : Reg) (m : BitVec 2) (mark : Bool) (s : State) : Host.Outcome State Fault Refusal :=
  s.vecOp (.vwid ty vd vs1 m mark) (vectorForm [] [] [vs1] [vd, nextReg vd] mark) fun t e =>
    let a := t.readV vs1
    let w := widthOf ty
    t.putPair e vd (2 * w) (ty.lanes / 2) (t.vmask m) fun k => (truncInt (laneInt ty (laneOf a w k)) (2 * w), 0)

/-! ## Reductions and lane moves (R166 to R168) -/

/-- A reduction writes vd in full: lane 0 of width `w`, every other bit 0 (R166). -/
def Thread.putLane0 (t : Thread) (e : Entry) (vd : Reg) (w : Nat) (r : Nat × Flags) : Entry :=
  t.putRes e vd ⟨BitVec.allOnes 256, BitVec.ofNat 256 (r.1 % 2 ^ w), r.2⟩

/-- The lanes that take part in a reduction. -/
def takingPart (ty : VType) (a : Vec) (m : Mask) : List Nat :=
  (List.range ty.lanes).filterMap fun k => if bitAt m.toNat k then some (laneOf a (widthOf ty) k) else none

/-- VRSUM's result (R60, R166). -/
def reduceSum (ty : VType) (a : Vec) (m : Mask) : Nat × Flags :=
  if ty.isFp then
    let l := (List.range ty.lanes).map fun k => if bitAt m.toNat k then laneOf a (widthOf ty) k else 0
    (fmtOf ty).treeSum (Nat.log2 ty.lanes) l
  else
    let r := sat32 ((takingPart ty a m).foldl (fun acc x => acc + laneInt ty x) 0)
    (truncInt r.1 32, r.2)

/-- VRMAX's and VRMIN's result (R166). -/
def reduceMinMax (ty : VType) (max : Bool) (a : Vec) (m : Mask) : Nat × Flags :=
  let f := fmtOf ty
  match takingPart ty a m with
  | [] =>
    if ty.isFp then (if max then f.infBits + f.signBit else f.infBits, 0)
    else (truncInt (if max then (typeRange ty).1 else (typeRange ty).2) (widthOf ty), 0)
  | x :: r =>
    let start : Nat × Flags := if ty.isFp then f.minMax max f.nanBits x else (x, 0)
    r.foldl (fun acc y =>
      let z := laneMinMax ty max acc.1 y
      (z.1, flagOr acc.2 z.2)) start

/-- VRSUM (R166). -/
def execVrsum (ty : VType) (vd vs1 : Reg) (m : BitVec 2) (mark : Bool) (s : State) : Host.Outcome State Fault Refusal :=
  s.vecOp (.vrsum ty vd vs1 m mark) (vectorForm [] [] [vs1] [vd] mark) fun t e =>
    t.putLane0 e vd (if ty.isFp then widthOf ty else 32) (reduceSum ty (t.readV vs1) (t.vmask m))

/-- VRMAX (R166). -/
def execVrmax (ty : VType) (vd vs1 : Reg) (m : BitVec 2) (mark : Bool) (s : State) : Host.Outcome State Fault Refusal :=
  s.vecOp (.vrmax ty vd vs1 m mark) (vectorForm [] [] [vs1] [vd] mark) fun t e =>
    t.putLane0 e vd (widthOf ty) (reduceMinMax ty true (t.readV vs1) (t.vmask m))

/-- VRMIN (R166). -/
def execVrmin (ty : VType) (vd vs1 : Reg) (m : BitVec 2) (mark : Bool) (s : State) : Host.Outcome State Fault Refusal :=
  s.vecOp (.vrmin ty vd vs1 m mark) (vectorForm [] [] [vs1] [vd] mark) fun t e =>
    t.putLane0 e vd (widthOf ty) (reduceMinMax ty false (t.readV vs1) (t.vmask m))

/-- VPERM (R167). -/
def execVperm (ty : VType) (vd vs1 vs2 : Reg) (m : BitVec 2) (mark : Bool) (s : State) : Host.Outcome State Fault Refusal :=
  s.vecOp (.vperm ty vd vs1 vs2 m mark) (vectorForm [] [] [vs1, vs2] [vd] mark) fun t e =>
    let a := t.readV vs1
    let b := t.readV vs2
    let w := widthOf ty
    t.putRes e vd (lanesOf w ty.lanes 0 (t.vmask m) fun k => (laneOf a w (laneOf b w k % ty.lanes), 0))

/-- VSPLAT (R167). -/
def execVsplat (ty : VType) (vd rs1 : Reg) (m : BitVec 2) (mark : Bool) (s : State) : Host.Outcome State Fault Refusal :=
  s.vecOp (.vsplat ty vd rs1 m mark) (vectorForm [rs1] [] [] [vd] mark) fun t e =>
    t.putRes e vd (lanesOf (widthOf ty) ty.lanes 0 (t.vmask m) fun _ => ((t.readX rs1).toNat % 2 ^ widthOf ty, 0))

/-- VEXT (R167). -/
def execVext (ty : VType) (rd vs1 : Reg) (lane : BitVec 5) (mark : Bool) (s : State) : Host.Outcome State Fault Refusal :=
  s.vecOp (.vext ty rd vs1 lane mark) (vectorForm [] [rd] [vs1] [] mark) fun t e =>
    let x := laneOf (t.readV vs1) (widthOf ty) lane.toNat
    e.long rd (if ty.isSigned then sextLow (widthOf ty) (w64 x) else w64 x)

/-- VINS (R167). -/
def execVins (ty : VType) (vd rs1 : Reg) (lane : BitVec 5) (mark : Bool) (s : State) : Host.Outcome State Fault Refusal :=
  s.vecOp (.vins ty vd rs1 lane mark) (vectorForm [rs1] [] [] [vd] mark) fun t e =>
    let w := widthOf ty
    let put := fun x => lanesVec w ty.lanes fun k => if k = lane.toNat then x else 0
    t.putV e vd (put (2 ^ w - 1)) (put ((t.readX rs1).toNat % 2 ^ w))

/-- VPOPC (R168). -/
def execVpopc (ty : VType) (vd vs1 : Reg) (m : BitVec 2) (mark : Bool) (s : State) : Host.Outcome State Fault Refusal :=
  s.vecOp (.vpopc ty vd vs1 m mark) (vectorForm [] [] [vs1] [vd] mark) fun t e =>
    let a := t.readV vs1
    if ty = .x then t.putLane0 e vd 32 (popcount (a &&& laneBits 8 32 (t.vmask m)).toNat 256, 0)
    else t.putRes e vd (lanesOf (widthOf ty) ty.lanes 0 (t.vmask m) fun k => (popcount (laneOf a (widthOf ty) k) 32, 0))

/-! ## Dot products, tables and sparse columns (R169 to R172) -/

/-- VDOT (R169): mask bit i governs INT32 lane i of vd. -/
def execVdot (vd vs1 vs2 : Reg) (m : BitVec 2) (mark : Bool) (s : State) : Host.Outcome State Fault Refusal :=
  s.vecOp (.vdot vd vs1 vs2 m mark) (vectorForm [] [] [vs1, vs2, vd] [vd] mark) fun t e =>
    let a := t.readV vs1
    let b := t.readV vs2
    let c := t.readV vd
    t.putRes e vd (lanesOf 32 8 0 (t.vmask m) fun k =>
      let p := [0, 1, 2, 3].foldl
        (fun (acc : Int) j => acc + sextNat (laneOf a 8 (4 * k + j)) 8 * sextNat (laneOf b 8 (4 * k + j)) 8) 0
      let r := sat32 (sextNat (laneOf c 32 k) 32 + p)
      (truncInt r.1 32, r.2))

/-- The segment of a VLUT input that is no NaN (R170). -/
def lutSegment (ex : Int) (x : FpVal) : Nat :=
  match x with
  | .nan _ => 0
  | .inf neg => if neg then 0 else 63
  | .fin neg m e =>
    let q := e + 5 - ex
    let n : Int := if neg then -(m : Int) else m
    let k : Int := (if 0 ≤ q then n * ((2 ^ q.toNat : Nat) : Int) else n / ((2 ^ (-q).toNat : Nat) : Int)) + 32
    if k < 0 then 0 else if 63 < k then 63 else k.toNat

/-- One lane of VLUT from its segment's entry (R170). -/
def lutLane (f : Fmt) (x : FpVal) (a b : Nat) : Nat × Flags :=
  match x with
  | .nan sig => (f.nanBits, if sig then flagNV else 0)
  | x =>
    let sl := fp32.val a
    let p := if sl.isZero then (FpVal.fin false 0 0, 0) else fpMul sl x
    let r := fpSum .rne [p.1, fp32.val b]
    let d := f.deliver .rne r.1
    (d.1, flagOr p.2 (flagOr r.2 d.2))

/-- A read of the core's own TCM at issue, with forwarding (R120, R170, R172). -/
def State.tcmAtIssue (s : State) (t : Thread) (held : List (Nat × Nat × Nat)) (va n : Nat) : Except Trap Nat :=
  match s.ownWindow t.accessor va n with
  | some (.ok loc) => s.loadAt t held false va loc n
  | some (.error x) => .error x
  | none => .error ⟨18, 1, w64 va⟩

/-- VLUT (R170, R171): the entries of its written lanes are read at issue. -/
def execVlut (ty : VType) (vd vs1 : Reg) (m : BitVec 2) (mark : Bool) (s : State) : Host.Outcome State Fault Refusal :=
  s.threadOp (.vlut ty vd vs1 m mark) (vectorForm [] [] [vs1] [vd] mark)
    (fun s tid t e =>
      let a := t.readV vs1
      let w := widthOf ty
      let f := fmtOf ty
      let base := fieldOf t.lutb 9 8 * 512
      let ex := sextNat (fieldOf t.lutb 24 8) 8
      let held := s.heldStores tid t t.block
      let mask := (t.vmask m).toNat
      let rd := fun k => s.tcmAtIssue t held (base + 8 * lutSegment ex (f.val (laneOf a w k))) 8
      let bad : List Trap := (List.range ty.lanes).filterMap fun k =>
        if bitAt mask k && !(f.val (laneOf a w k)).isNan then
          match rd k with
          | .error x => some x
          | .ok _ => none
        else none
      match pickFault bad with
      | some x => (e.fail x, t.pc)
      | none =>
        (t.putRes e vd (lanesOf w ty.lanes 0 (t.vmask m) fun k =>
          let en := match rd k with
            | .ok v => v
            | .error _ => 0
          lutLane f (f.val (laneOf a w k)) (bitsOf en 0 32) (bitsOf en 32 32)), t.pc + 4)) noPerform

/-- The column SCMAC reads: its fault (R172, R283), tval the address. -/
def State.columnFault (s : State) (t : Thread) (va sz : Nat) : Option Trap :=
  if va % sz ≠ 0 then some ⟨17, 0, w64 va⟩
  else if 0x20000 < va + 16 * sz then some ⟨18, 1, w64 va⟩
  else match s.ownWindow t.accessor va (16 * sz) with
    | some (.error x) => some x
    | _ => none

/-- SCMAC (R172). -/
def execScmac (ty : VType) (vd rs1 rs2 : Reg) (m : BitVec 2) (mark : Bool) (s : State) : Host.Outcome State Fault Refusal :=
  s.threadOp (.scmac ty vd rs1 rs2 m mark) (vectorForm [rs1, rs2] [] [vd, nextReg vd] [vd, nextReg vd] mark)
    (fun s tid t e =>
      let sz := if ty = .h then 2 else 1
      let va := (t.readX rs1).toNat
      let code := deltaCode (fieldOf (t.readX rs2) 0 8)
      let held := s.heldStores tid t t.block
      let rd := fun k => s.tcmAtIssue t held (va + k * sz) sz
      let bad : List Trap := (List.range 16).filterMap fun k =>
        if bitAt (t.vmask m).toNat k then
          match rd k with
          | .error x => some x
          | .ok _ => none
        else none
      match s.columnFault t va sz with
      | some x => (e.fail x, t.pc)
      | none =>
        match pickFault bad with
        | some x => (e.fail x, t.pc)
        | none =>
          let lo := t.readV vd
          let hi := t.readV (nextReg vd)
          let e' := t.putPair e vd 32 8 (t.vmask m) fun k =>
            let w := match rd k with
              | .ok v => v
              | .error _ => 0
            let p := if ty = .x then s2pMul code.1 w else sextNat w (8 * sz) * code.1
            let r := sat32 (sextNat (pairLane lo hi 32 8 k) 32 + p)
            (truncInt r.1 32, r.2)
          ({ e' with flags := flagOr e'.flags code.2 }, t.pc + 4)) noPerform

end Sys2Proof.Machine
end

