-- ==== Sys2Proof/Machine/VectorMem.lean ====
section
/-!
DEFINITION. Sys2Proof/Machine/VectorMem.lean: vector loads and stores and the mask instructions (09_vector_instructions R173
to R175).
-/
namespace Sys2Proof.Machine

/-- The addresses of a vector access's elements whose mask bit is 1 (R159, R173). -/
def elements (ty : VType) (m : Mask) (addr : Nat → Word) : List (Nat × Nat) :=
  (List.range ty.lanes).filterMap fun i => if bitAt m.toNat i then some (i, (addr i).toNat) else none

/-- The accesses of a vector load, one for each chosen lane (R173). -/
def laneLoads (ty : VType) (m : Mask) (addr : Nat → Word) : List LoadElem :=
  (elements ty m addr).map fun x => ⟨2 ^ x.1, x.2, ty.size, none, none⟩

/-- The single access of VLDB, made if a mask bit of the lanes is set; it fills every chosen lane (R173). -/
def oneLoad (ty : VType) (m : Mask) (a : Word) : List LoadElem :=
  let lanes := m.toNat % 2 ^ ty.lanes
  if lanes = 0 then [] else [⟨lanes, a.toNat, ty.size, none, none⟩]

/-- A vector load (R173, R174): its accesses sent at issue unless R67 defers them. -/
def State.vloadOp (s : State) (i : Instr) (ty : VType) (vd : Reg) (reads vreads : List Reg) (mark : Bool)
    (accs : Thread → List LoadElem) : Host.Outcome State Fault Refusal :=
  s.threadOp i (vectorForm reads [] vreads [vd] mark)
    (fun s tid t e =>
      let ls := accs t
      let post : LoadPost := match t.bound vd with
        | some (j, x) => if x.append then .app j (widthOf ty) else .v vd (widthOf ty)
        | none => .v vd (widthOf ty)
      (s.issueLoads tid t { e with loads := ls, post := post, vops := [t.vr vd] }, t.pc + 4))
    State.walkLoads

/-- A vector store (R173, R174): every element checked before any is accepted; of two overlapping ones the higher stands. -/
def State.vstoreOp (s : State) (i : Instr) (ty : VType) (vs : Reg) (reads vreads : List Reg) (m : BitVec 2) (mark : Bool)
    (addr : Thread → Nat → Word) : Host.Outcome State Fault Refusal :=
  s.threadOp i (vectorForm reads [] (vs :: vreads) [] mark)
    (fun s _ t e =>
      let v := t.readV vs
      let xs : List StoreElem := (elements ty (t.vmask m) (addr t)).map fun x => ⟨x.2, ty.size, laneOf v (widthOf ty) x.1, .write⟩
      (s.issueStores t { e with stores := xs }, t.pc + 4))
    State.walkStores

/-- The address of element `i` of a contiguous access. -/
def unitAddr (ty : VType) (rs1 : Reg) (t : Thread) (i : Nat) : Word := t.readX rs1 + w64 (i * ty.size)
/-- The address of element `i` of a strided access. -/
def strideAddr (rs1 rs2 : Reg) (t : Thread) (i : Nat) : Word := t.readX rs1 + w64 i * t.readX rs2
/-- The address of element `i` of an indexed access: the index lane is unsigned. -/
def indexAddr (ty : VType) (rs1 vk : Reg) (t : Thread) (i : Nat) : Word :=
  t.readX rs1 + w64 (laneOf (t.readV vk) (widthOf ty) i * ty.size)

/-- VLD (R173). -/
def execVld (ty : VType) (vd rs1 : Reg) (m : BitVec 2) (mark : Bool) (s : State) : Host.Outcome State Fault Refusal :=
  s.vloadOp (.vld ty vd rs1 m mark) ty vd [rs1] [] mark fun t => laneLoads ty (t.vmask m) (unitAddr ty rs1 t)

/-- VST (R173). -/
def execVst (ty : VType) (vs rs1 : Reg) (m : BitVec 2) (mark : Bool) (s : State) : Host.Outcome State Fault Refusal :=
  s.vstoreOp (.vst ty vs rs1 m mark) ty vs [rs1] [] m mark (unitAddr ty rs1)

/-- VLDS (R173). -/
def execVlds (ty : VType) (vd rs1 rs2 : Reg) (m : BitVec 2) (mark : Bool) (s : State) : Host.Outcome State Fault Refusal :=
  s.vloadOp (.vlds ty vd rs1 rs2 m mark) ty vd [rs1, rs2] [] mark fun t => laneLoads ty (t.vmask m) (strideAddr rs1 rs2 t)

/-- VSTS (R173). -/
def execVsts (ty : VType) (vs rs1 rs2 : Reg) (m : BitVec 2) (mark : Bool) (s : State) : Host.Outcome State Fault Refusal :=
  s.vstoreOp (.vsts ty vs rs1 rs2 m mark) ty vs [rs1, rs2] [] m mark (strideAddr rs1 rs2)

/-- VLDX (R173). -/
def execVldx (ty : VType) (vd rs1 vk : Reg) (m : BitVec 2) (mark : Bool) (s : State) : Host.Outcome State Fault Refusal :=
  s.vloadOp (.vldx ty vd rs1 vk m mark) ty vd [rs1] [vk] mark fun t => laneLoads ty (t.vmask m) (indexAddr ty rs1 vk t)

/-- VSTX (R173). -/
def execVstx (ty : VType) (vs rs1 vk : Reg) (m : BitVec 2) (mark : Bool) (s : State) : Host.Outcome State Fault Refusal :=
  s.vstoreOp (.vstx ty vs rs1 vk m mark) ty vs [rs1] [vk] m mark (indexAddr ty rs1 vk)

/-- VLDB (R173): one access for all lanes, made if any mask bit of the lanes is 1. -/
def execVldb (ty : VType) (vd rs1 : Reg) (m : BitVec 2) (mark : Bool) (s : State) : Host.Outcome State Fault Refusal :=
  s.vloadOp (.vldb ty vd rs1 m mark) ty vd [rs1] [] mark fun t => oneLoad ty (t.vmask m) (t.readX rs1)

/-- MLDM (R175): one 4-byte element. -/
def execMldm (md : BitVec 3) (rs1 : Reg) (mark : Bool) (s : State) : Host.Outcome State Fault Refusal :=
  s.threadOp (.mldm md rs1 mark) (vectorForm [rs1] [] [] [] mark)
    (fun s tid t e => (s.issueLoads tid t { e with loads := [⟨1, (t.readX rs1).toNat, 4, none, none⟩], post := .m md }, t.pc + 4))
    State.walkLoads

/-- MSTM (R175): held as a store. -/
def execMstm (ms : BitVec 3) (rs1 : Reg) (mark : Bool) (s : State) : Host.Outcome State Fault Refusal :=
  s.threadOp (.mstm ms rs1 mark) (vectorForm [rs1] [] [] [] mark)
    (fun s _ t e =>
      (s.issueStores t { e with stores := [⟨(t.readX rs1).toNat, 4, (t.mr ms.toNat).toNat, .write⟩] }, t.pc + 4))
    State.walkStores

/-- A mask result (R160, R175). -/
def State.maskOp (s : State) (i : Instr) (reads : List Reg) (md : BitVec 3) (mark : Bool) (f : Thread → Mask) :
    Host.Outcome State Fault Refusal :=
  s.vecOp i (vectorForm reads [] [] [] mark) fun t e => { e with mw := [⟨md, BitVec.allOnes 32, f t⟩] }

/-- MAND (R175). -/
def execMand (md ma mb : BitVec 3) (mark : Bool) (s : State) : Host.Outcome State Fault Refusal :=
  s.maskOp (.mand md ma mb mark) [] md mark fun t => t.mr ma.toNat &&& t.mr mb.toNat

/-- MOR (R175). -/
def execMor (md ma mb : BitVec 3) (mark : Bool) (s : State) : Host.Outcome State Fault Refusal :=
  s.maskOp (.mor md ma mb mark) [] md mark fun t => t.mr ma.toNat ||| t.mr mb.toNat

/-- MXOR (R175). -/
def execMxor (md ma mb : BitVec 3) (mark : Bool) (s : State) : Host.Outcome State Fault Refusal :=
  s.maskOp (.mxor md ma mb mark) [] md mark fun t => t.mr ma.toNat ^^^ t.mr mb.toNat

/-- MNOT (R175). -/
def execMnot (md ma : BitVec 3) (mark : Bool) (s : State) : Host.Outcome State Fault Refusal :=
  s.maskOp (.mnot md ma mark) [] md mark fun t => ~~~ t.mr ma.toNat

/-- MSET (R175). -/
def execMset (md : BitVec 3) (rs1 : Reg) (mark : Bool) (s : State) : Host.Outcome State Fault Refusal :=
  s.maskOp (.mset md rs1 mark) [rs1] md mark fun t => (t.readX rs1).setWidth 32

/-- MPOPC (R175). -/
def execMpopc (rd : Reg) (ma : BitVec 3) (mark : Bool) (s : State) : Host.Outcome State Fault Refusal :=
  s.vecOp (.mpopc rd ma mark) (vectorForm [] [rd] [] [] mark) fun t e => e.long rd (w64 (popcount (t.mr ma.toNat).toNat 32))

/-- MFIRST (R175). -/
def execMfirst (rd : Reg) (ma : BitVec 3) (mark : Bool) (s : State) : Host.Outcome State Fault Refusal :=
  s.vecOp (.mfirst rd ma mark) (vectorForm [] [rd] [] [] mark) fun t e =>
    e.long rd (w64 (((List.range 32).find? fun i => bitAt (t.mr ma.toNat).toNat i).getD 32))

end Sys2Proof.Machine
end

