-- ==== Sys2Proof/Machine/EventChannels.lean ====
section
/-!
DEFINITION. Sys2Proof/Machine/EventChannels.lean: the sigma-delta units, event packets, inboxes, steps and RECV
(10_event_channels R183 to R203).
-/
namespace Sys2Proof.Machine

/-! ## Packets (R193) -/

/-- An event packet (R193). -/
def eventPacket (channel src index code par cls : Nat) (mark : Bool) : Word :=
  w64 (par % 2 + cls % 4 * 2 ^ 4 + (if mark then 2 ^ 6 else 0) + code % 256 * 2 ^ 8 + index % 2 ^ 24 * 2 ^ 16 +
    src % 4096 * 2 ^ 40 + channel % 4096 * 2 ^ 52)

/-- MARK of a packet. -/
def isMarker (w : Word) : Bool := w.getLsbD 6
/-- CLASS of a packet. -/
def packetClass (w : Word) : Nat := fieldOf w 4 2
/-- CODE of a packet as a signed number. -/
def packetCode (w : Word) : Int := sextNat (fieldOf w 8 8) 8
/-- Two packets of one class may merge: the same CHANNEL, SRC, INDEX and PAR (R195). -/
def sameFlow (a b : Word) : Bool :=
  !isMarker a && fieldOf a 16 48 == fieldOf b 16 48 && fieldOf a 0 1 == fieldOf b 0 1

/-- A packet leaves its source (R189, R200, R201), by the ring to another die (R320). -/
def State.sendPacket (s : State) (src dst ctx logical : Nat) (word : Word) (o : Origin) : State :=
  State.ringPost { s with
    packets := s.packets ++ [⟨s.nextId, src, dst, ctx, word, o, none, false, s.pt, logical⟩], nextId := s.nextId + 1 }
    s.nextId src dst (packetClass word) false

/-! ## SDU slots and ranges (R183 to R188) -/

/-- θ and x̂ of a slot; all zero at reset. -/
def Sdu.slot (u : Sdu) (j : Nat) : Nat × List Int := mapGet u.slots j (0, [0, 0, 0, 0])
/-- x̂d of a slot. -/
def Sdu.sent (u : Sdu) (j d : Nat) : Int := (u.slot j).2.getD d 0
/-- x̂d of a slot moved by an amount. -/
def Sdu.moveSent (u : Sdu) (j d : Nat) (by_ : Int) : Sdu :=
  { u with slots := mapSet u.slots j ((u.slot j).1, modifyAt (u.slot j).2 d fun x => x + by_) }
/-- A range of an SDU. -/
def Sdu.range (u : Sdu) (r : Nat) : Range := u.ranges.getD r .reset
/-- A slot lies in a range. -/
def Range.has (r : Range) (j : Nat) : Bool := decide (r.base ≤ j) && decide (j < r.base + r.count)
/-- The enabled range a slot lies in (R183). -/
def Sdu.rangeOf (u : Sdu) (j : Nat) : Option (Nat × Range) :=
  ((List.range 8).map fun r => (r, u.range r)).find? fun x => x.2.enabled && x.2.has j
/-- The range of its source's SDU a packet was sent for, whoever owned that SDU then; none of an EVSEND. -/
def Origin.range (o : Origin) : Option Nat :=
  match o with
  | .sdstep _ _ _ r _ | .marker r _ _ | .orphan r => some r
  | .evsend _ => none
/-- A range of a vcore's SDU has no unsettled packet and no step short of Done (R187). -/
def State.rangeQuiet (s : State) (v r : Nat) : Bool :=
  ((s.sdu v).steps.all fun k => k.range != r) && s.packets.all fun p => p.src != v || p.from_.range != some r
/-- The owner cleared once every range is Disabled (R184). -/
def Sdu.settleOwner (u : Sdu) : Sdu := if u.ranges.any fun r => r.enabled then u else { u with owner := none }

/-- The destinations an SDCFG body describes (R186). -/
def sdcfgDests (body : List Word) : List Dest :=
  (List.range 4).map fun d =>
    let w := body.getD (2 + d) 0
    ⟨w.getLsbD 63, fieldOf w 0 12, fieldOf w 12 24, fieldOf w 36 17⟩

/-- A reserved field of an SDCFG body is not zero (R187). -/
def sdcfgReserved (body : List Word) : Bool :=
  fieldOf (body.getD 1 0) 62 2 != 0 || (List.range 4).any fun d => fieldOf (body.getD (2 + d) 0) 53 10 != 0

/-- The owner and overlap checks of SDCFG (R187): the detail of a refusal. -/
def Sdu.refuses (u : Sdu) (ctx : Nat) (body : List Word) : Option Nat :=
  let w := body.getD 1 0
  let base := fieldOf w 4 12
  let count := fieldOf w 16 13
  let meets := (List.range 8).any fun r =>
    r != fieldOf w 0 3 && (u.range r).enabled && decide ((u.range r).base < base + count) &&
    decide (base < (u.range r).base + (u.range r).count)
  if u.owner.isSome && u.owner != some ctx then some 4
  else if (sdcfgDests body).any (fun d => d.valid) && meets then some 1 else none

/-- The checks of SDCFG before it waits (R187). -/
def Sdu.sdcfgCheck (u : Sdu) (ctx : Nat) (body : List Word) : Option Nat :=
  let w := body.getD 1 0
  if sdcfgReserved body then some 5
  else if 4096 < fieldOf w 4 12 + fieldOf w 16 13 || fieldOf w 16 13 = 0 then some 2
  else if (sdcfgDests body).any fun d => d.valid && d.ctr % 8 != 0 then some 3
  else u.refuses ctx body

/-- The atomic change SDCFG makes (R187, R184): with no valid destination every slot keeps θ and x̂. -/
def Sdu.configure (u : Sdu) (ctx : Nat) (body : List Word) : Sdu :=
  let w := body.getD 1 0
  let r := fieldOf w 0 3
  let ds := sdcfgDests body
  let on := ds.any fun d => d.valid
  let new : Range :=
    { enabled := on, base := fieldOf w 4 12, count := fieldOf w 16 13, shift := fieldOf w 29 3,
      channel := fieldOf w 48 12, cls := fieldOf w 60 2, dests := ds, parity := 0, cur := (u.range r).cur }
  let theta := fieldOf w 32 16
  let slots := if !on then u.slots else (List.range new.count).foldl (fun m i =>
    mapSet m (new.base + i) (theta, if w.getLsbD 3 then [0, 0, 0, 0] else (u.slot (new.base + i)).2)) u.slots
  let u' := { u with ranges := u.ranges.set r new, slots := slots, openNacks := u.openNacks.set r 0,
                     owner := if on && u.owner.isNone then some ctx else u.owner }
  u'.settleOwner

/-- The change SDRST makes (R188): every x̂ of the masked ranges' slots and their parity 0; with bit 8, Disabled. -/
def Sdu.clear (u : Sdu) (mask : Nat) (disable : Bool) : Sdu :=
  let named := fun (j : Nat) => (List.range 8).any fun r => bitAt mask r && (u.range r).has j
  let ranges := (List.range 8).map fun r =>
    let x := u.range r
    if bitAt mask r then
      { x with parity := 0, enabled := x.enabled && !disable,
               dests := if disable then x.dests.map fun d => { d with valid := false } else x.dests }
    else x
  let u' := { u with ranges := ranges, slots := u.slots.map fun (e : Nat × Nat × List Int) => if named e.1 then (e.1, e.2.1, [0, 0, 0, 0]) else e
                     openNacks := (List.range 8).map fun r => if bitAt mask r then 0 else u.openNacks.getD r 0 }
  u'.settleOwner

/-- A kill of the owner (R184): every range disabled, every x̂ 0, no owner; closed steps are gone, and no packet on its way
belongs to a step that is open now. -/
def Sdu.killed (u : Sdu) : Sdu :=
  let c := u.clear 0xFF true
  { c with ranges := c.ranges.map fun r => { r with cur := r.cur + 1 }, steps := [], openNacks := List.replicate 8 0, owner := none,
                             slots := u.slots.map fun (e : Nat × Nat × List Int) => (e.1, e.2.1, [0, 0, 0, 0]) }

/-! ## SDSTEP (R189 to R192) -/

/-- What an SDSTEP has done so far. -/
structure SdRun where
  sdu : Sdu
  sent : List (Nat × Word × Origin)
  quiet : Nat
  clamped : Nat
  noRange : Bool
  deriving DecidableEq, Repr

/-- The delta code of a residual (R190): rne(e / 2^s) where it reaches the threshold, clamped to −127 to 127. -/
def changeCode (e : Int) (theta shift : Nat) : Int × Bool :=
  if theta ≤ e.natAbs then
    let q := e / (2 ^ shift : Nat)
    let twice := 2 * (e % (2 ^ shift : Nat))
    let c := if twice < (2 ^ shift : Nat) then q else if (2 ^ shift : Nat) < twice then q + 1
      else if q % 2 = 0 then q else q + 1
    if 127 < c then (127, true) else if c < -127 then (-127, true) else (c, false)
  else (0, false)

/-- One lane of SDSTEP (R190): a packet to each valid destination whose residual reaches the threshold. -/
def SdRun.lane (v f : Nat) (vals : Vec) (g : SdRun) (l : Nat) : SdRun :=
  match g.sdu.rangeOf (f + l) with
  | none => { g with noRange := true }
  | some (n, r) =>
    let x := sextNat (laneOf vals 16 l) 16
    let theta := (g.sdu.slot (f + l)).1
    let ds := (List.range 4).filter fun d => (r.dests.getD d ⟨false, 0, 0, 0⟩).valid
    let codes : List (Nat × Int × Bool) := ds.map fun d =>
      let c := changeCode (x - g.sdu.sent (f + l) d) theta r.shift
      (d, c.1, c.2)
    let out := codes.filter fun c => c.2.1 != 0
    let msgs : List (Nat × Word × Origin) := out.map fun c =>
      let d := r.dests.getD c.1 ⟨false, 0, 0, 0⟩
      (d.vcore, eventPacket r.channel v (d.index + (f + l) - r.base) (truncInt c.2.1 8) r.parity r.cls false,
        .sdstep (f + l) c.1 (c.2.1 * (2 ^ r.shift : Nat)) n r.cur)
    { g with
      sdu := out.foldl (fun u c => u.moveSent (f + l) c.1 (c.2.1 * (2 ^ r.shift : Nat))) g.sdu
      sent := g.sent ++ msgs
      quiet := g.quiet + (if out.isEmpty then 1 else 0)
      clamped := g.clamped + (if codes.any fun c => c.2.2 then 1 else 0) }

/-- sdcnt after an SDSTEP (R192). -/
def sdcntAfter (old : Word) (g : SdRun) : Word :=
  w64 (g.sent.length + g.quiet * 2 ^ 8 + g.clamped * 2 ^ 16 + (if g.noRange then 2 ^ 24 else 0) +
    min (fieldOf old 32 32 + g.sent.length) 0xFFFFFFFF * 2 ^ 32)

/-- SDSTEP (R189 to R192); while the clock is stalled the SDU holds its next packet (R322). -/
def execSdstep (vs rs1 : Reg) (mark : Bool) (s : State) : Host.Outcome State Fault Refusal :=
  s.threadOp (.sdstep vs rs1 mark) { vectorForm [rs1] [] [vs] [] mark with deferred := true }
    (fun _ _ t e => ({ e with ops := [t.readX rs1], vops := [t.readV vs] }, t.pc + 4)) fun s tid t e =>
      let f := (e.op 0).toNat
      if s.stalled then s
      else if 4080 < f then s.takeTrap tid ⟨18, 1, e.op 0⟩ e.pc false
      else if (s.sdu t.vcore).owner ≠ some t.ctx then s.takeTrap tid ⟨18, 3, e.op 0⟩ e.pc false
      else
        let g := (List.range 16).foldl (SdRun.lane t.vcore f (e.vop 0)) ⟨s.sdu t.vcore, [], 0, 0, false⟩
        let s := s.updSdu t.vcore fun _ => g.sdu
        let s := g.sent.foldl (fun s p => s.sendPacket t.vcore p.1 t.ctx t.logical p.2.1 p.2.2) s
        (s.updThr tid fun t => { t with sdcnt := sdcntAfter t.sdcnt g }).finish tid e []

/-! ## The inbox (R194 to R197) -/

/-- Pending packets of a class queue; markers are not counted (R196). -/
def packetsIn (q : List Word) : Nat := (q.filter fun w => !isMarker w).length

/-- The inbox after one arrival, none where it refuses (R195). -/
def Inbox.receive (ib : Inbox) (ctx : Nat) (moving : Bool) (word : Word) : Option Inbox :=
  let res := fun (c : Nat) => fieldOf ib.evcfg (16 + 8 * c) 8
  let occ := fun (c : Nat) => packetsIn (ib.q.getD c [])
  let total := fun (f : Nat → Nat) => f 0 + f 1 + f 2 + f 3
  let cap := fieldOf ib.evcfg 0 10
  let shared := cap - total res
  let above := total fun c => occ c - res c
  let c := packetClass word
  let q := ib.q.getD c []
  let word := if fieldOf word 8 8 = 0x80 then setField (setField word 8 8 0x81) 7 1 1 else word
  if fieldOf ib.evcfg 48 1 = 0 || ib.owner ≠ some ctx || moving then none
  else if isMarker word then
    if 64 ≤ total fun c => ((ib.q.getD c []).filter isMarker).length then none
    else some { ib with q := ib.q.set c (q ++ [word]) }
  else
    let last := (List.range q.length).reverse.find? fun i => sameFlow (q.getD i 0) word
    let merged := last.bind fun i =>
      let old := q.getD i 0
      let sum := packetCode old + packetCode word
      if fieldOf old 1 3 < 7 && -127 ≤ sum && sum ≤ 127 then
        some (q.set i (setField (setField old 8 8 (truncInt sum 8)) 1 3 (fieldOf old 1 3 + 1)))
      else none
    match merged with
    | some q' => some { ib with q := ib.q.set c q' }
    | none =>
      if total occ < cap && (occ c < res c || above < shared) then some { ib with q := ib.q.set c (q ++ [word]) } else none

/-- A store that an agent other than a thread makes for a kernel, at the logical time of its work (R364), as the buffer keeps it. -/
def State.agentStore (s : State) (agent : Nat) (k : Option Nat) (ctx v lg loc va n val : Nat) (op : StoreOp) : PStore :=
  { id := s.nextId, tid := agent, kernel := k, ctx := ctx, v := v, loc := loc, va := va, size := n, val := val, op := op, pc := 0
    accepted := s.pt, logical := lg, st := if isRemote loc then .buffered else .out, pinned := s.nextId, rel := [] }

/-- Every store of an agent that is still on its way is held at the vcore a location belongs to, which moves (R307). -/
def State.heldWith (s : State) (agent loc : Nat) : Bool :=
  s.isMoving loc && s.storeBuf.all fun p =>
    p.tid != agent || (s.held.contains (.store p.id) && vcoreOfLoc p.loc == vcoreOfLoc loc)

/-- A doubleword the machine itself writes, or an add it makes, at its home for a kernel (R139, R144): held where its vcore moves
(R307), and on its way where its line is locked (R136), its home is another package or a device register, or an earlier store
of its agent is. -/
def State.machineStore (s : State) (agent : Nat) (k : Option Nat) (ctx v lg loc va val : Nat) (op : StoreOp) : State :=
  let p := s.agentStore agent k ctx v lg loc va 8 val op
  let s := s.countOut k loc
  if s.heldWith agent loc then { s.buffer p with held := s.held ++ [.store p.id] }
  else if s.isMoving loc || isRemote loc || isReg loc || s.writeWaits agent loc 8 then s.buffer p
  else State.performStore { s with nextId := s.nextId + 1 } p

/-- An add the machine itself makes (R144, R196, R217): an overflow or a failing check value ends the kernel. -/
def State.machineAdd (s : State) (agent : Nat) (k : Option Nat) (ctx v lg loc va inc : Nat) : State :=
  s.machineStore agent k ctx v lg loc va inc .cadd

/-- The add a marker makes when it reaches the head of its queue (R196). -/
def State.markerAdd (s : State) (v : Nat) (w : Word) : State :=
  let off := fieldOf w 16 24 * 8
  match (s.inbox v).ownerK with
  | none => s
  | some k =>
    match (s.kern k).bind fun kn => (kn.cores.find? fun c => c.v == v).map fun c => (kn, c) with
    | some (kn, c) =>
      if off + 8 ≤ c.tcmSize then s.machineAdd s.nextId (some k) kn.ctx v 0 (tcmLoc v (c.tcmBase + off)) off 1
      else s.endKernel k 18 7 v 0 0 (w64 off) 0 0
    | none => s

/-- Markers at the heads of an inbox's queues are removed at once, each with its add (R196). -/
def State.settleMarkers (s : State) (v : Nat) : State :=
  let heads := (s.inbox v).q.flatMap fun q => q.takeWhile isMarker
  if heads.isEmpty then s
  else heads.foldl (fun s w => s.markerAdd v w) (s.updInbox v fun ib => { ib with q := ib.q.map fun q => q.dropWhile isMarker })

/-- The head packet of the lowest class of a mask that holds one, and the inbox without it (R202). -/
def Inbox.take (ib : Inbox) (mask : Nat) : Option (Word × Inbox) :=
  ((List.range 4).find? fun c => bitAt mask c && !(ib.q.getD c []).isEmpty).bind fun c =>
    match ib.q.getD c [] with
    | w :: r => some (w, { ib with q := ib.q.set c r })
    | [] => none

/-- The packets left in the class queues of a mask, as AUX gives them (R202). -/
def Inbox.left (ib : Inbox) (mask : Nat) : Nat :=
  min (((List.range 4).map fun c => if bitAt mask c then packetsIn (ib.q.getD c []) else 0).sum) 65535

/-- The registered RECVs of an inbox that no packet was given to and whose E has not passed, by order of registration
(R202), the threads of a deterministic context at their place in its order (R364). -/
def State.receivers (s : State) (v : Nat) : List (Nat × Nat × Nat) :=
  s.threads.flatMap fun e =>
    if (s.inbox v).owner == some e.2.ctx && s.detGate e.2.ctx e.2.detKey then
      (e.2.wait.toList ++ e.2.susp.map fun u => u.wait).filterMap fun w => match w.kind with
        | .recv u m => if u = v && w.verdict.isNone && s.pt ≤ w.deadline then some (w.order, e.1, m) else none
        | _ => none
    else []

/-- A packet given to the earliest registered waiter whose mask includes its class (R202). -/
def State.giveReceiver (s : State) (v : Nat) : State :=
  let ib := s.inbox v
  let able := (s.receivers v).filter fun r => (ib.take r.2.2).isSome
  let first : Option (Nat × Nat × Nat) := able.foldl (fun o r => match o with
    | some b => if r.1 < b.1 then some r else some b
    | none => some r) none
  match first with
  | none => s
  | some (n, tid, mask) =>
    match ib.take mask, s.thr tid with
    | some (w, ib'), some t =>
      let t' := t.mapWaits fun x => if x.order = n then { x with verdict := some (s.success t (ib'.left mask) w) } else x
      ((s.setThr tid t').updInbox v fun _ => ib').settleMarkers v
    | _, _ => s

/-- Packets that a vcore's SDU has sent are on their way (R203). -/
def State.sduUnsettled (s : State) (v : Nat) : Bool :=
  s.packets.any fun p => p.src == v && !p.resend && match p.from_ with
    | .sdstep _ _ _ _ _ | .marker _ _ _ | .orphan _ => true
    | .evsend _ => false

/-- A move waits until the SDUs it moves have settled (R203, stage 1). -/
def State.moveWaits (s : State) (m : Move) : Bool :=
  s.sduUnsettled m.va || match m.vb with
    | some vb => s.sduUnsettled vb
    | none => false

/-- A vcore's inbox is being moved (R203, stage 2): it refuses arrivals. -/
def State.inboxMoves (s : State) (v : Nat) : Bool :=
  match s.moving with
  | some m => (m.va == v || m.vb == some v) && !s.moveWaits m
  | none => false

/-- EVENT_PACKET_ARRIVAL (R195, R196, R202): the oldest packet of its flow, off the ring (R320), reaches its inbox in R364's
order and is answered. -/
def execEventPacketArrival (id : Nat) (s : State) : Host.Outcome State Fault Refusal :=
  match s.packets.find? fun p => p.id == id with
  | none => .next s
  | some p =>
    let first := s.packets.find? fun q =>
      q.src == p.src && q.dst == p.dst && q.answer.isNone && !q.resend && fieldOf q.word 52 12 == fieldOf p.word 52 12 &&
      packetClass q.word == packetClass p.word
    if (first.map fun q => q.id) ≠ some id || s.riding (.packet id) || !s.detGate p.ctx p.detKey then .next s
    else
      let r := (s.inbox p.dst).receive p.ctx (s.inboxMoves p.dst) p.word
      let answered := s.packets.map fun q => if q.id = id then { q with answer := some r.isSome } else q
      let s := State.ringPost { s with packets := answered } id p.dst p.src (packetClass p.word) true
      match r with
      | some ib => .next (((s.updInbox p.dst fun _ => ib).settleMarkers p.dst).giveReceiver p.dst)
      | none => .next s

/-! ## Settling (R198, R199) -/

/-- A walking EVSEND whose packet has settled ends with its status (R200). -/
def State.endEvsend (s : State) (tid : Nat) (code : Nat) : State :=
  match s.thr tid with
  | some t => match t.block with
    | e :: _ => match e.ins with
      | .evsend rd _ _ _ => if t.walking && e.phase == .accepted then s.finishX tid e rd (status code 0 0) else s
      | _ => s
    | [] => s
  | none => s

/-- A step whose last marker was accepted is Done (R185): its EVSTEP's wait is met, wherever its thread is (R107). -/
def State.endStep (s : State) (v range num : Nat) : State :=
  let marked := s.packets.any fun p => p.src == v && match p.from_ with
    | .marker r k _ => r == range && k == num
    | _ => false
  match (s.sdu v).steps.find? fun k => k.range == range && k.num == num with
  | some k =>
    if k.marking && !marked then
      let s := s.updSdu v fun u => { u with steps := u.steps.filter fun x => x != k }
      s.mapThr fun _ t => t.mapWaits fun w => match w.kind with
        | .evstep u r n => if u = v && r = range && n = num && s.pt ≤ w.deadline then
            { w with verdict := some (s.success t (min k.nacked 65535) 0) } else w
        | _ => w
    else s
  | none => s

/-- A packet of a step was refused (R201): counted for the open or the closed step it belongs to. -/
def Sdu.countNack (u : Sdu) (range step : Nat) : Sdu :=
  if (u.range range).cur = step then { u with openNacks := modifyAt u.openNacks range fun n => n + 1 }
  else { u with steps := u.steps.map fun k => if k.range = range && k.num = step then { k with nacked := k.nacked + 1 } else k }

/-- A packet whose answer has reached its source (R198, R320). -/
def State.settled (s : State) (id : Nat) (ok : Bool) : Option Packet :=
  if s.riding (.packet id) then none else s.packets.find? fun p => p.id == id && p.answer == some ok

/-- PACKET_ACK (R198): the packet is settled. -/
def execPacketAck (id : Nat) (s : State) : Host.Outcome State Fault Refusal :=
  match s.settled id true with
  | none => .next s
  | some p =>
    let s := { s with packets := s.packets.filter fun q => q.id != id }
    match p.from_ with
    | .evsend tid => .next (s.endEvsend tid 0)
    | .marker r k _ => .next (s.endStep p.src r k)
    | .sdstep _ _ _ _ _ | .orphan _ => .next s

/-- PACKET_NACK (R199, R200): an SDSTEP's change is taken back, an EVSEND returns FULL, a marker is sent again. -/
def execPacketNack (id : Nat) (s : State) : Host.Outcome State Fault Refusal :=
  match s.settled id false with
  | none => .next s
  | some p =>
    let gone := { s with packets := s.packets.filter fun q => q.id != id }
    match p.from_ with
    | .evsend tid => .next (gone.endEvsend tid 4)
    | .sdstep j d amount r k => .next (gone.updSdu p.src fun u => (u.moveSent j d (-amount)).countNack r k)
    | .marker _ _ _ => .next { s with packets := s.packets.map fun q => if q.id = id then { q with answer := none, resend := true } else q }
    | .orphan _ => .next gone

/-- MARKER_RESEND (R199): a refused marker leaves again. -/
def execMarkerResend (id : Nat) (s : State) : Host.Outcome State Fault Refusal :=
  match s.packets.find? fun p => p.id == id && p.resend with
  | none => .next s
  | some p =>
    if s.stalled then .next s
    else .next (State.ringPost { s with
      packets := (s.packets.filter fun q => q.id != id) ++ [{ p with resend := false, sentAt := s.pt }] }
      id p.src p.dst (packetClass p.word) false)

/-! ## EVSEND and EVSTEP (R200, R201) -/

/-- EVSEND (R200), held while the clock is stalled (R322). -/
def execEvsend (rd rs1 rs2 : Reg) (mark : Bool) (s : State) : Host.Outcome State Fault Refusal :=
  s.threadOp (.evsend rd rs1 rs2 mark) { vectorForm [rs1, rs2] [rd] [] [] mark with deferred := true } (deferBody [rs1, rs2])
    fun s tid t e =>
      let p := e.op 1
      if e.phase == .accepted || s.stalled then s
      else if fieldOf (e.op 0) 12 52 ≠ 0 || fieldOf p 1 3 ≠ 0 || fieldOf p 6 2 ≠ 0 then s.finishX tid e rd (status 11 2 0)
      else if packetClass p < t.cls then s.finishX tid e rd (status 11 3 0)
      else
        (s.sendPacket t.vcore (fieldOf (e.op 0) 0 12) t.ctx t.logical (setField p 40 12 t.vcore) (.evsend tid)).setHead tid
          { e with phase := .accepted }

/-- The current step of a range closed (R201): its refused packets go with it, the parity flips. -/
def Sdu.closeStep (u : Sdu) (n logical : Nat) : Sdu :=
  let r := u.range n
  { u with
    steps := u.steps ++ [⟨n, r.cur, r.parity, u.openNacks.getD n 0, false, logical⟩]
    openNacks := u.openNacks.set n 0
    ranges := u.ranges.set n { r with parity := 1 - r.parity, cur := r.cur + 1 } }

/-- EVSTEP (R201): closes the range's step at once; the wait is for the step to be Done. -/
def execEvstep (rd rs1 rs3 : Reg) (mark : Bool) (s : State) : Host.Outcome State Fault Refusal :=
  s.threadOp (.evstep rd rs1 rs3 mark) { waitForm [rs1, rs3] [rd] mark with light := false } (deferBody [rs1, rs3]) fun s tid t e =>
    let n := (e.op 0).toNat
    let u := s.sdu t.vcore
    let stop := fun (d : Nat) => s.refuseWait tid t e (.evstep 0 0 0) rd (e.op 1) 11 d
    if 7 < n then stop 2
    else if u.owner ≠ some t.ctx then stop 4
    else if !(u.range n).enabled then stop 1
    else
      let w := s.newWait t (.evstep t.vcore n (u.range n).cur) rd (e.op 1)
      (s.updSdu t.vcore fun u => u.closeStep n t.logical).performWait tid t e w none 0

/-- STEP_MARKER_SEND (R201): the oldest closed step of a range, settled, sends its marker to every valid destination. -/
def execStepMarkerSend (v range : Nat) (s : State) : Host.Outcome State Fault Refusal :=
  let u := s.sdu v
  match u.steps.find? fun k => k.range == range with
  | none => .next s
  | some k =>
    let open_ := s.packets.any fun p => p.src == v && match p.from_ with
      | .sdstep _ _ _ r n => r == range && n == k.num
      | _ => false
    if k.marking || open_ || s.stalled then .next s
    else
      let r := u.range range
      let s := s.updSdu v fun u => { u with steps := u.steps.map fun x => if x = k then { x with marking := true } else x }
      let send := fun (s : State) (d : Nat) =>
        let x := r.dests.getD d ⟨false, 0, 0, 0⟩
        if x.valid then
          s.sendPacket v x.vcore (u.owner.getD 0) k.logical (eventPacket r.channel v (x.ctr / 8) 0 k.parity r.cls true) (.marker range k.num d)
        else s
      .next (((List.range 4).foldl send s).endStep v range k.num)

/-! ## RECV (R202) -/

/-- RECV (R202). -/
def execRecv (rd rs1 rs3 : Reg) (mark : Bool) (s : State) : Host.Outcome State Fault Refusal :=
  s.threadOp (.recv rd rs1 rs3 mark) { waitForm [rs1, rs3] [rd, if rd = 0 then 0 else nextReg rd] mark with light := false }
    (deferBody [rs1, rs3]) fun s tid t e =>
      let sel := (e.op 0).toNat
      let mask := if sel % 16 = 0 then 15 else sel % 16
      let ib := s.inbox t.vcore
      let w := s.newWait t (.recv t.vcore mask) rd (e.op 1)
      if sel / 16 ≠ 0 then s.refuseWait tid t e (.recv 0 0) rd (e.op 1) 11 2
      else if ib.owner ≠ some t.ctx then s.refuseWait tid t e (.recv 0 0) rd (e.op 1) 11 1
      else match ib.take mask with
        | some (p, ib') =>
          ((s.updInbox t.vcore fun _ => ib').settleMarkers t.vcore).endWait tid e w ⟨s.pt, 0, 0, ib'.left mask, p⟩
        | none => s.performWait tid t e w none 0

/-! ## The end of a kernel or context (R184, R194, R199) -/

/-- The owner kernel of an inbox ends: EN is cleared and the inbox has no owner kernel (R194). -/
def State.endKernelInboxes (s : State) (k : Nat) : State :=
  { s with inboxes := s.inboxes.map fun e =>
      if e.2.ownerK = some k then (e.1, { e.2 with ownerK := none, evcfg := setField e.2.evcfg 48 1 0 }) else e }

/-- A killed context's inboxes are emptied and without owner; its SDUs are disabled; its markers are not sent again (R184, R194,
R199). -/
def State.killChannels (s : State) (ctx : Nat) : State :=
  let drop := fun (p : Packet) =>
    if p.ctx = ctx then match p.from_ with
      | .marker r _ _ => if p.resend then none else some { p with from_ := .orphan r }
      | _ => some p
    else some p
  { s with
    inboxes := s.inboxes.map fun e =>
      if e.2.owner = some ctx then (e.1, ⟨setField e.2.evcfg 48 1 0, none, none, List.replicate 4 []⟩) else e
    sdus := s.sdus.map fun e => if e.2.owner = some ctx then (e.1, e.2.killed) else e
    packets := s.packets.filterMap drop }

end Sys2Proof.Machine
end

