-- ==== Sys2Proof/Machine/Streams.lean ====
section
/-!
DEFINITION. Sys2Proof/Machine/Streams.lean: binding, unbinding and reading stream registers, and the stream engine
(09_vector_instructions R176 to R182).
-/
namespace Sys2Proof.Machine

/-! ## The engine's contexts (R181) -/

/-- Some appended element of the thread has not been accepted. -/
def Thread.buffered (t : Thread) : Bool := t.streams.any fun o => match o with
  | some x => !x.buf.isEmpty
  | none => false

/-- The engine of a vcore takes a slot's context where it holds fewer than two (R181). -/
def State.residentRoom (s : State) (v : Nat) : Bool := decide ((s.vc v).resident.length < 2)

/-- The thread needs the stream engine and its context is not resident (R181): it waits on a stream. -/
def State.needsEngine (s : State) (t : Thread) : Bool :=
  t.placed && !s.streamsIn t && match t.run, t.wait with
    | .wait, some w => match w.kind with
      | .stream _ => true
      | _ => false
    | _, _ => false

/-- The walk stands at an SBIND of stream `j`. -/
def Thread.binds (t : Thread) (j : Nat) : Bool :=
  t.walking && match t.block with
    | e :: _ => match e.ins with
      | .sbind _ n _ _ => n.toNat == j
      | _ => false
    | [] => false

/-- The resident context of a shed thread whose appends have all been accepted: it leaves the engine (R181). -/
def State.shedContext (s : State) (v : Nat) : Option Nat :=
  (s.threads.find? fun e => e.2.vcore == v && e.2.placed && e.2.shed && !e.2.buffered && s.streamsIn e.2).map fun e => e.1

/-- STREAM_CONTEXT_DRAIN (R181): a shed thread's context leaves, its appends being accepted; so does the least recently used
resident one, for a context that needs the engine and is loaded. -/
def execStreamContextDrain (v : Nat) (s : State) : Host.Outcome State Fault Refusal :=
  match s.shedContext v with
  | some tid => .next (s.drainStreams tid)
  | none =>
  match s.threads.find? fun e => e.2.vcore == v && s.needsEngine e.2 with
  | none => .next s
  | some (_, t) =>
    if s.residentRoom v then .next (s.touchStreams t)
    else match (s.vc v).resident with
      | [] => .next s
      | old :: _ => match s.inSlot v old with
        | some (tid', t') => if t'.buffered then .next s else .next ((s.drainStreams tid').touchStreams t)
        | none => .next ((s.updVc v fun c => { c with resident := c.resident.tail }).touchStreams t)

/-! ## Reading ahead and parks (R177 to R180) -/

/-- The address of element `e` of an affine stream, or of its index of an indirect one (R177). -/
def Stream.elemAddr (x : Stream) (e : Nat) : Word :=
  if x.indirect then x.index + w64 (4 * e)
  else x.base + w64 (e % x.n1) * x.s1 + w64 (e / x.n1) * x.s2

/-- A read of the stream engine for its thread (R92, R180, R211); a vcore that moves (R307), or a port without room (R325), keeps it
waiting as an absent translation does. -/
def State.streamRead (s : State) (t : Thread) (va n : Nat) : Except Trap (Nat × Nat) :=
  match misaligned va n with
  | some x => .error x
  | none =>
    match inboxCheck (s.locate t.accessor (stationOf t.vcore) va n .read 0) va with
    | .error x => .error x
    | .ok loc =>
      if s.isMoving loc || !s.portRoom (dieOf t.vcore) loc then .error ⟨1, 0, w64 va⟩
      else if s.refusedThere loc then .error ⟨18, 4, w64 va⟩
      else if s.bad loc n || s.failsOnWay t loc then .error ⟨19, 1, w64 va⟩ else .ok (loc, s.homeRead loc n)

/-- Where element `e` lies and its value (R177). -/
def State.streamElem (s : State) (t : Thread) (x : Stream) (e : Nat) : Except Trap (Nat × Nat) :=
  if x.indirect then
    match s.streamRead t (x.elemAddr e).toNat 4 with
    | .error y => .error y
    | .ok i => s.streamRead t (x.base + w64 (i.2 * x.ty.size)).toNat x.ty.size
  else s.streamRead t (x.elemAddr e).toNat x.ty.size

/-- The position of the next vector a read stream fetches. -/
def Stream.fetchPos (x : Stream) : Nat :=
  match x.ready.getLast? with
  | some y => y.pos + x.ty.lanes
  | none => x.cur

/-- The elements of the vector at a position. -/
def State.streamVec (s : State) (t : Thread) (x : Stream) (pos : Nat) : List (Except Trap (Nat × Nat)) :=
  (List.range (min x.ty.lanes (x.total - pos))).map fun i => s.streamElem t x (pos + i)

/-- A thread parked on stream `j` goes on (R179): a pop issues again, an append is retried by the walk. -/
def Thread.leaveStream (t : Thread) (j : Nat) : Thread :=
  match t.run, t.wait with
  | .wait, some w => match w.kind with
    | .stream k => if k = j then { t with run := if t.walking then .block else .ready, wait := none } else t
    | _ => t
  | _, _ => t

/-- A stream of a thread replaced. -/
def Thread.setStream (t : Thread) (j : Nat) (x : Stream) : Thread := { t with streams := t.streams.set j (some x) }

/-- The thread is parked on stream `j`, and E has passed. -/
def Thread.lateOn (t : Thread) (j pt : Nat) : Bool :=
  t.run == .wait && t.wait.any fun w => w.kind == .stream j && decide (w.deadline < pt)

/-- The engine may fetch for stream `j` now: at any time, but in deterministic mode where the thread waits for it and is next in
the order (R180, R364). -/
def State.mayFetch (s : State) (t : Thread) (j : Nat) : Bool :=
  !s.det t.ctx || (t.run == .wait && (t.wait.any fun w => w.kind == .stream j) && s.detGate t.ctx t.detKey)

/-- STREAM_DATA_READY (R178 to R181): the engine fetches the next vector of a read stream, has room in a write stream's
buffer, or has taken the context of a thread parked at an SBIND; a thread parked there goes on, a pop or append unless its E has
passed (R70). A translation not present leaves the stream waiting for the pager. -/
def execStreamDataReady (v sl j : Nat) (s : State) : Host.Outcome State Fault Refusal :=
  match s.inSlot v sl with
  | none => .next s
  | some (tid, t) =>
    if t.binds j then .next (if s.streamsIn t then s.setThr tid (t.leaveStream j) else s)
    else match t.streams.getD j none with
    | none => .next s
    | some x =>
      if !s.streamsIn t || t.lateOn j s.pt || !s.mayFetch t j then .next s
      else if x.append then (if x.buf.length < 4 then .next (s.setThr tid (t.leaveStream j)) else .next s)
      else if x.total ≤ x.fetchPos then .next s
      else
        let rs := s.streamVec t x x.fetchPos
        let regs := rs.filterMap fun r => match r with
          | .ok p => if s.noDevice p.1 then some p.1 else none
          | .error _ => none
        let fault := pickFault (rs.filterMap fun r => match r with
          | .error y => some y
          | .ok _ => none)
        let lanes := rs.map fun r => match r with
          | .ok p => p.2
          | .error _ => 0
        let got : StreamVec := ⟨x.fetchPos, lanesVec (widthOf x.ty) x.ty.lanes fun i => lanes.getD i 0, fault, false⟩
        match regs, fault with
        | pa :: _, _ => .fault (.deviceWindow pa)
        | [], some ⟨1, _, _⟩ => .next s
        | [], _ => .next ((s.wakeStream v).setThr tid ((t.setStream j { x with ready := x.ready ++ [got] }).leaveStream j))

/-- A bit of sbstat that the stream engine sets (R97, R182). -/
def Thread.engineSb (t : Thread) (j bit ac : Nat) : Thread :=
  (t.setSb j bit).noteHw ac (.orBits 0x008 (BitVec.ofNat 64 (2 ^ (8 * j + bit))))

/-- STREAM_DEADLINE (R179): at E a pop delivers a POISON vector, an append is discarded; an SBIND, for which R179 names no outcome,
goes on waiting for its context: DESIGN CHOICE (log 38). -/
def execStreamDeadline (v sl : Nat) (s : State) : Host.Outcome State Fault Refusal :=
  match s.inSlot v sl with
  | none => .next s
  | some (tid, t) =>
    match t.run, t.wait with
    | .wait, some w =>
      match w.kind with
      | .stream j =>
        if s.pt ≤ w.deadline || t.binds j then .next s
        else match t.streams.getD j none with
          | none => .next s
          | some x =>
            if t.walking then
              let t' := (t.leaveStream j).engineSb j 6 s.ac
              .next (s.setThr tid { t' with block := match t'.block with
                | e :: r => { e with app := e.app.filter fun a => a.1 != j } :: r
                | [] => [] })
            else
              let y : StreamVec := ⟨x.cur, poisonVec x.ty, none, true⟩
              let x' := { x with ready := y :: x.ready.filter fun z => z.pos != x.cur }
              .next (s.setThr tid (((t.setStream j x').leaveStream j).engineSb j 4 s.ac))
      | _ => .next s
    | _, _ => .next s

/-! ## SBIND, SUNB and SSTAT (R176, R177) -/

/-- The byte of sbstat of stream `j` cleared. -/
def Thread.clearSb (t : Thread) (j : Nat) : Thread := { t with sbstat := setField t.sbstat (8 * j) 8 0 }

/-- A descriptor with a reserved field that is not zero, or with no element (R176, R177). -/
def badDescriptor (d : Nat → Word) : Bool :=
  let ind := (d 0).getLsbD 1
  fieldOf (d 0) 2 62 != 0 || d 7 != 0 || fieldOf (d 4) 0 32 * fieldOf (d 4) 32 32 == 0 ||
  (if ind then d 3 != 0 || d 5 != 0 else d 2 != 0)

/-- The stream a descriptor describes (R177), at position 0. -/
def streamOf (ty : VType) (d : Nat → Word) : Stream :=
  { ty := ty, append := (d 0).getLsbD 0, indirect := (d 0).getLsbD 1, base := d 1, index := d 2, s1 := d 3, s2 := d 5,
    n1 := fieldOf (d 4) 0 32, n2 := fieldOf (d 4) 32 32, dl := d 6, pos := 0, cur := 0, kept := [], ready := [], buf := [] }

/-- Where an SBIND's descriptor lies (R176): aligned, in own TCM. -/
def State.descriptorLoc (s : State) (t : Thread) (va : Nat) : Except Trap Nat :=
  if va % 64 ≠ 0 then .error ⟨17, 0, w64 va⟩
  else if 0x20000 < va + 64 then .error ⟨18, 1, w64 va⟩
  else (s.ownWindow t.accessor va 64).getD (.error ⟨18, 1, w64 va⟩)

/-- SBIND (R176, R181): a release of earlier stores, the descriptor read as the thread sees it, the register bound at position 0; a
thread whose context the engine has no room for is parked meanwhile, with the E of the descriptor's D. -/
def execSbind (ty : VType) (n : BitVec 3) (rs1 : Reg) (mark : Bool) (s : State) : Host.Outcome State Fault Refusal :=
  s.threadOp (.sbind ty n rs1 mark) { vectorForm [rs1] [] [] [] mark with deferred := true } (deferBody [rs1]) fun s tid t e =>
    let j := n.toNat
    let waiting := match t.streams.getD j none with
      | some x => !x.buf.isEmpty
      | none => false
    match s.descriptorLoc t (e.op 0).toNat with
    | .error x => s.takeTrap tid x e.pc false
    | .ok loc =>
      if s.bad loc 64 then s.takeTrap tid ⟨19, 1, e.op 0⟩ e.pc false
      else
        let held := s.heldStores tid t []
        let d := fun (k : Nat) => w64 (forwardRead held (fun a => (s.byteAt a).toNat) (loc + 8 * k) 8)
        if badDescriptor d then s.takeTrap tid ⟨16, 0, wordOf e.ins⟩ e.pc false
        else if waiting then s
        else if !s.streamsIn t && !s.residentRoom t.vcore then s.parkStream tid t j (d 6)
        else
          s.releasing tid t fun s =>
          let s := (s.wakeStream t.vcore).touchStreams t
          (s.updThr tid fun t => (t.clearSb j).setStream j (streamOf ty d)).finish tid e []

/-- SUNB (R176): once its appends are accepted, the register is ordinary again and reads 0. -/
def execSunb (n : BitVec 3) (mark : Bool) (s : State) : Host.Outcome State Fault Refusal :=
  s.threadOp (.sunb n mark) { vectorForm [] [] [] [] mark with deferred := true } (deferBody []) fun s tid t e =>
    let j := n.toNat
    match t.streams.getD j none with
    | none => (s.updThr tid fun t => t.clearSb j).finish tid e []
    | some x =>
      if !x.buf.isEmpty then s
      else
        let unbind := fun (t : Thread) => { t.clearSb j with streams := t.streams.set j none, v := t.v.set (24 + j) 0 }
        (s.updThr tid unbind).finish tid e []

/-- SSTAT (R176): the committed position and the stream's byte of sbstat. -/
def execSstat (rd : Reg) (n : BitVec 3) (mark : Bool) (s : State) : Host.Outcome State Fault Refusal :=
  s.threadOp (.sstat rd n mark) { vectorForm [] [rd] [] [] mark with deferred := true } (deferBody []) fun s tid t e =>
    match t.streams.getD n.toNat none with
    | none => s.finishX tid e rd 0
    | some x => s.finishX tid e rd (w64 (min x.pos 0xFFFFFFFF + fieldOf (s.sbstatOf t) (8 * n.toNat) 8 * 2 ^ 32))

end Sys2Proof.Machine
end

