-- ==== Sys2Proof/Machine/Commands.lean ====
section
/-!
DEFINITION. Sys2Proof/Machine/Commands.lean: the frame every engine command shares (11_engines R206 to R218): the body, the
queues, the accesses, faults, completion, and tiles between threads and engines (R219 to R221).
-/
namespace Sys2Proof.Machine

/-! ## Engines and bodies (R206, R207, R213) -/

/-- The depth of an engine's queue (R213, R225). -/
def Eng.depth (e : Eng) : Nat :=
  match e with
  | .matrix _ | .ladle _ => 16
  | .copy _ | .stations => 64
  | .sdu _ => 4
  | .collective _ => 256

/-- Commands an engine runs at once (R213); the matrix unit's rule is R225's. -/
def Eng.parallel (e : Eng) : Nat :=
  match e with
  | .matrix _ => 2
  | .copy _ | .stations => 64
  | .ladle _ | .sdu _ => 1
  | .collective _ => 32

/-- The engine an XCMD's number names for a vcore (R211, R213). -/
def engineOf (no v : Nat) : Eng :=
  match no with
  | 0 => .matrix v
  | 1 => .copy v
  | 2 => .ladle (clusterOf v)
  | 3 => .collective (dieOf v / 4)
  | 4 => .sdu v
  | _ => .stations

/-- Doubleword `n` of a body. -/
def Cmd.dw (c : Cmd) (n : Nat) : Word := c.body.getD n 0
/-- FLAGS (R206). -/
def Cmd.flags (c : Cmd) : Nat := fieldOf (c.dw 0) 34 14
/-- CTRA (R207). -/
def Cmd.counterVa (c : Cmd) : Nat := fieldOf (c.dw 6) 3 49 * 8
/-- INC (R207). -/
def Cmd.inc (c : Cmd) : Nat := fieldOf (c.dw 6) 54 10
/-- The body of a short command (R210): the header the core builds, and rs1v. -/
def shortBody (op eng : Nat) (arg : Word) : List Word := [w64 (op + eng * 256 + 2 ^ 56), arg, 0, 0, 0, 0, 0, 0]

/-- The header fields the core sets (R209, R212): CLASS, RVCORE, RSLOT. -/
def stampHeader (h : Word) (t : Thread) : Word := setField (setField (setField h 11 2 t.cls) 13 12 t.vcore) 25 3 t.slot

/-- The vcore positions of an MTEAM (R247): its other bodies name none. -/
def Cmd.members (c : Cmd) : List Nat :=
  if c.eng.no = 0 && c.op = 9 then
    ((List.range 16).filter fun p => bitAt (c.dw 5).toNat p).map fun p => c.v / 16 * 16 + p
  else [c.v]

/-- A command occupies an entry of an engine's queue; an MTEAM one of every member's (R248). -/
def Cmd.occupies (c : Cmd) (e : Eng) : Bool :=
  c.eng == e || match e with
    | .matrix v => c.eng.no == 0 && c.members.contains v
    | _ => false

/-- The engine's queue has a free entry (R213). -/
def State.queueRoom (s : State) (e : Eng) : Bool := decide ((s.cmds.filter fun c => c.occupies e).length < e.depth)

/-- A command changed where it stands. -/
def State.updCmd (s : State) (id : Nat) (f : Cmd → Cmd) : State :=
  { s with cmds := s.cmds.map fun c => if c.id = id then f c else c }

/-- The command is running or paused. -/
def Cmd.active (c : Cmd) : Bool :=
  match c.st with
  | .running | .paused _ => true
  | _ => false

/-! ## mprog (R243) -/

/-- The compute commands of the matrix unit and MTEAM. -/
def Cmd.computes (c : Cmd) : Bool := c.eng.no == 0 && (c.op ≤ 3 || c.op == 9)

/-- mprog of the thread that issued a compute command, where it describes that command (R243). -/
def State.noteProgress (s : State) (c : Cmd) (paused stop : Bool) : State :=
  if c.computes then
    s.updThr c.tid fun t =>
      if t.mprogOf = some c.id then
        let p := w64 (c.units % 65536 + (if paused then 2 ^ 16 else 0) + (if stop then 2 ^ 17 else 0) + c.op * 2 ^ 24 +
          fieldOf (c.dw 4) 56 6 * 2 ^ 32)
        Thread.noteHw { t with mprog := p } s.ac (.put 0x005 p)
      else t
  else s

/-! ## Ends of commands (R214 to R218) -/

/-- A command stops before its work is finished (R214, R230): its status code is set and it is Completing. -/
def State.stopCmd (s : State) (c : Cmd) (code : Nat) : State :=
  if c.st = .completing then s
  else
    let c' := { c with st := .completing, code := some code }
    (State.noteProgress (s.unlock fun l => l.2.1 == c.id) c' false (c.st != .queued)).updCmd c.id fun _ => c'

/-- Every command of a kind stopped with ABORTED (R218, R287, R304). -/
def State.abortCmds (s : State) (p : Cmd → Bool) : State :=
  (s.cmds.filter p).foldl (fun s c => s.stopCmd c 7) s

/-- AUX of a command's status (R215): its whole units, 0 where it was refused. -/
def Cmd.aux (c : Cmd) : Nat := if c.code = some 11 then 0 else min c.units 65535

/-- The code a finished command completes with (R215, R216). -/
def Cmd.endCode (c : Cmd) : Nat := c.code.getD (if c.poison then 10 else 0)

/-- DETAIL of a command's status (R208, R223, R227): a refusal's cause; the Ladle's report with OK and TIMEOUT, the matrix
unit's also with GONE. -/
def Cmd.endDetail (c : Cmd) : Nat :=
  match c.endCode with
  | 11 | 0 | 1 => c.detail
  | 8 => if c.eng.no = 0 then c.detail else 0
  | _ => 0

/-- A program fault of the kernel a command belongs to (R216): the record holds OP, the address and AUX. Its cause is 22 with the
engine's number, but permission with detail 3 where a target core refuses the context (R115): DEDUCED (log 37). The command
ends with it. -/
def State.engineFault (s : State) (c : Cmd) (va : Nat) (foreign : Bool) : State :=
  let t := s.thr c.tid
  let cause := if foreign then 18 else 22
  let detail := if foreign then 3 else c.eng.no
  let v := (t.map fun t => t.vcore).getD c.v
  let sl := (t.map fun t => t.slot).getD 0
  let w4 := w64 (c.op % 256 + c.aux * 2 ^ 16)
  let s := match c.kernel with
    | some k => s.endKernel k cause detail v sl 0 (w64 va) w4 0
    | none => s.faultRecord c.ctx [recordHead 1 cause detail v sl c.ctx, 0, w64 va, w64 s.pt, w4, 0, 0, 0]
  s.stopCmd c 7

/-! ## Accesses of an engine -/

/-- Why a unit of a command does not go through now: a translation not present; a target core that refuses the context (R115);
any other fault; a line Sprue holds locked (R136); a device address to which no rule gives contents. -/
inductive EngStop where
  | pause (va : Nat)
  | foreign (va : Nat)
  | fault (va : Nat)
  | locked
  | device (pa : Nat)
  deriving DecidableEq, Repr

/-- The station that translates for an engine (R312). -/
def Cmd.station (c : Cmd) : Nat :=
  match c.eng with
  | .collective io => ioStation io true
  | _ => stationOf c.v

/-- Where a byte of a command's access lies (R211, R216); the target package of another's line may refuse it (R328). -/
def State.engLoc (s : State) (c : Cmd) (va : Nat) (acc : Access) : Except EngStop Nat :=
  match inboxCheck (s.locate c.accessor c.station va 1 acc 0) va with
  | .error ⟨1, _, _⟩ => .error (.pause va)
  | .error ⟨18, 3, _⟩ => .error (.foreign va)
  | .error _ => .error (.fault va)
  | .ok loc => if s.noDevice loc then .error (.device loc) else if s.refusedThere loc then .error (.fault va) else .ok loc

/-- The locations of a run of bytes of a command; addresses wrap at 64 bits. -/
def State.engLocs (s : State) (c : Cmd) (va n : Nat) (acc : Access) : Except EngStop (List Nat) :=
  (List.range n).foldr (fun i r => match s.engLoc c ((va + i) % 2 ^ 64) acc, r with
    | .error x, _ => .error x
    | .ok _, .error x => .error x
    | .ok l, .ok ls => .ok (l :: ls)) (.ok [])

/-- The translations a command's access used are kept by its station (R312); what it reads of another package is asked for
(R325). -/
def State.engTouch (s : State) (c : Cmd) (va n : Nat) (acc : Access) : State :=
  let touch := fun (s : State) (a : Nat) =>
    if (s.ownWindow c.accessor a 1).isSome || inFabric a then s else s.fillTlb c.station c.ctx a acc
  if n = 0 then s
  else
    let s := touch (touch s va) (va + n - 1)
    match acc, s.engLoc c va acc with
    | .eread, .ok l => if isRemote l then s.postMsg (dieOf c.v) l (.read c.id l n) else s
    | _, _ => s

/-- The line a command reads fails its check value at its home or on its way (R331, R332). -/
def State.engBad (s : State) (c : Cmd) (loc : Nat) : Bool :=
  s.bad loc 1 || (s.pick == 2 && homeDie loc != some (dieOf c.v))

/-- The bytes a command reads, each with whether its line fails its check value; it waits for a vcore that moves (R307), and for
room in the port to another package (R325). -/
def State.engRead (s : State) (c : Cmd) (va n : Nat) : Except EngStop (List (Byte × Bool)) :=
  match s.engLocs c va n .eread with
  | .error x => .error x
  | .ok ls => if ls.any fun l => s.isMoving l || !s.portRoom (dieOf c.v) l then .error .locked else .ok (ls.map fun l => (BitVec.ofNat 8 (s.homeRead l 1), s.engBad c l))

/-- Two neighbouring bytes go to their home in one write: not across registers, nor across lines of another package. -/
def oneRun (a : Nat) : Bool := !(isReg a && a % 8 == 0) && !(isRemote a && a % 64 == 0) && isRemote a == isRemote (a - 1)

/-- Bytes with their locations as runs at consecutive locations. -/
def byteRuns (l : List (Nat × Byte)) : List (Nat × List Byte) :=
  l.foldr (fun x r => match r with
    | (a, bs) :: r' => if x.1 + 1 = a && oneRun a then (x.1, x.2 :: bs) :: r' else (x.1, [x.2]) :: (a, bs) :: r'
    | [] => [(x.1, [x.2])]) []

/-- A run of bytes written with the lines of some of them left failing, before any waiter sees it (R145, R152, R216). -/
def State.writeFailing (s : State) (loc : Nat) (bs : List Byte) (bad : List Nat) : State :=
  let mine := (bad.filter fun l => decide (loc ≤ l) && decide (l < loc + bs.length)).map lineOf
  { State.noteWrite { s with
      mem := writeRun s.mem loc bs, poison := mine.foldl setInsert (poisonAfter s.poison loc bs.length) } s loc bs.length with
    vcores := s.stubbed loc bs.length }

/-- A run of bytes a command writes at an address: held where its vcore moves (R307), on its way where its home is another package
or a device register, else at once; counted for its kernel (R139). -/
def State.engPut (s : State) (c : Cmd) (bad : List Nat) (va : Nat) (x : Nat × List Byte) : State :=
  let p := s.agentStore c.id c.kernel c.ctx c.v c.logical x.1 va x.2.length (ofBytes x.2) .write
  let s := s.countOut c.kernel x.1
  if s.isMoving x.1 then { s.buffer p with held := s.held ++ [.store p.id] }
  else if isRemote x.1 || isReg x.1 then s.buffer p
  else s.writeFailing x.1 x.2 bad

/-- The bytes a command writes, all their places checked first; a locked line delays them (R136), as a failing check value
bound for a moving vcore is. A line written whole gets a fresh check value (R331); the lines of bytes marked bad are left
failing (R216), and one that would leave the package so is not written but logged (R332). -/
def State.engWrite (s : State) (c : Cmd) (va : Nat) (bs : List (Byte × Bool)) : Except EngStop State :=
  match s.engLocs c va bs.length .ewrite with
  | .error x => .error x
  | .ok ls =>
    let fails : List Nat := (ls.zip bs).filterMap fun x => if x.2.2 then some x.1 else none
    let out := ((fails.filter fun l => isRemote l || isHost l).map lineOf).eraseDups
    let bad := fails.filter fun l => !out.contains (lineOf l)
    if ls.any fun l => s.locks.any fun k => k.1 == lineOf l && k.2.1 != c.id then .error .locked
    else if bad.any s.isMoving then .error .locked
    else
      let whole := fun (s : State) (l : Nat) =>
        if (List.range 64).all fun i => ls.contains (l * 64 + i) then { s with poison := setErase s.poison l } else s
      let s := ((ls.map lineOf).eraseDups).foldl whole s
      let kept := (ls.zip (bs.map fun b => b.1)).filter fun x => !out.contains (lineOf x.1)
      let s := (byteRuns kept).foldl (fun s x => s.engPut c bad (va + ls.idxOf x.1) x) (s.engTouch c va bs.length .ewrite)
      .ok { s with log := s.log ++ out.map LogEntry.egress }

/-- Some write of a command is not performed at its home yet (R217): held at a moving vcore, or on its way to another package or a
device register. -/
def State.writesHeld (s : State) (c : Cmd) : Bool := s.storeBuf.any fun p => p.tid == c.id

/-- The scratchpad tiles a run of bytes of a command lies in, through its own window or the fabric's (R135, R208). -/
def State.spadsOf (s : State) (a : Accessor) (va n : Nat) : List Nat :=
  let span := fun (lo hi : Nat) =>
    let x := max va lo
    let y := min (va + n) hi
    if x < y then (List.range ((y - 1) / 4096 + 1 - x / 4096)).map fun i => max x ((x / 4096 + i) * 4096) else []
  (span 0x1000000 0x1400000 ++ span 0x1000000000 0x1100000000).filterMap fun p =>
    match s.locate a 0 p 1 .eread 0 with
    | .ok loc => if isSpad loc then some (tileOf loc) else none
    | .error _ => none

/-! ## Checks every command meets (R208) -/

/-- Whether an engine has a command (R32, R315). -/
def hasOp (eng op : Nat) : Bool :=
  match eng with
  | 0 => op ≤ 9
  | 1 => op ≤ 3
  | 2 | 3 | 5 => op ≤ 2
  | 4 => op ≤ 1
  | _ => false

/-- The checks of R208 that need only the frame: detail 5 of the common fields, then 6, 7 and 10. `op` is the word's funct7,
which binds an XCMD. -/
def State.commonCheck (s : State) (c : Cmd) (op : Nat) : Option Nat :=
  let h := c.dw 0
  if fieldOf h 48 8 ≠ 0 || fieldOf (c.dw 6) 0 3 ≠ 0 then some 5
  else if fieldOf h 8 3 ≠ c.eng.no || !hasOp c.eng.no (fieldOf h 0 8) || (!c.push && fieldOf h 0 8 ≠ op) then some 6
  else if fieldOf h 56 8 ≠ 1 then some 7
  else
    let atVcore := match c.eng with
      | .collective _ | .stations => false
      | _ => true
    if c.push && !c.sup && atVcore && !s.placedOn c.ctx c.v then some 10 else none

/-- Detail 8 of R208: a named scratchpad tile that is not engine-owned. -/
def State.spadCheck (s : State) (spads : List Nat) : Option Nat :=
  if spads.all fun x => s.owned.contains x then none else some 8

/-! ## TGIVE and TTAKE (R219, R220) -/

/-- The own-scratchpad tile an address names (R219): its number over the package. -/
def State.ownTile (s : State) (t : Thread) (va : Nat) : Except Trap Nat :=
  let a := va / 4096 * 4096
  if a < 0x1000000 || 0x1400000 ≤ a then .error ⟨18, 1, w64 va⟩
  else match s.ownWindow t.accessor a 4096 with
    | some (.ok loc) => .ok (tileOf loc)
    | some (.error x) => .error { x with val := w64 va }
    | none => .error ⟨18, 1, w64 va⟩

/-- TGIVE (R219): after the thread's earlier stores, the tile is the engines'. -/
def execTgive (rs1 : Reg) (mark : Bool) (s : State) : Host.Outcome State Fault Refusal :=
  s.threadOp (.tgive rs1 mark) (deferredForm [rs1] [] mark) (deferBody [rs1]) fun s tid t e =>
    match s.ownTile t (e.op 0).toNat with
    | .error x => s.takeTrap tid x e.pc false
    | .ok n =>
      s.releasing tid t fun s => ({ s with owned := setInsert s.owned n } : State).finish tid e []

/-- No command that is not Done names the tile (R220). -/
def State.tileIdle (s : State) (n : Nat) : Bool := !(s.cmds.any fun c => c.spads.contains n)

/-- TTAKE's tile given back to the threads (R220). -/
def State.takeTile (s : State) (n : Nat) : State := { s with owned := setErase s.owned n }

/-- TTAKE (R220). -/
def execTtake (rd rs1 rs3 : Reg) (mark : Bool) (s : State) : Host.Outcome State Fault Refusal :=
  s.threadOp (.ttake rd rs1 rs3 mark) (waitForm [rs1, rs3] [rd] mark) (deferBody [rs1, rs3]) fun s tid t e =>
    match s.ownTile t (e.op 0).toNat with
    | .error x => s.takeTrap tid x e.pc false
    | .ok n =>
      let w := s.newWait t (.ttake n) rd (e.op 1)
      if !s.owned.contains n then s.endWait tid e w ⟨s.pt, 0, 0, 0, 0⟩
      else if s.tileIdle n then (s.takeTile n).endWait tid e w ⟨s.pt, 0, 0, 0, 0⟩
      else s.performWait tid t e w none 0

end Sys2Proof.Machine
end

