-- ==== Sys2Proof/Machine/Matrix.lean ====
section
/-!
DEFINITION. Sys2Proof/Machine/Matrix.lean: the matrix unit: accumulator tiles, the checks of its commands, and one k-slice
or row of each (12_tiles R225 to R249, R404; 03_numbers R54, R56, R59).
-/
namespace Sys2Proof.Machine

/-! ## Bodies (R229 to R242, R247) -/

/-- RMASK, CMASK, DMASK, KSL1, ACC of R235. -/
def Cmd.rmask (c : Cmd) : Nat := fieldOf (c.dw 4) 0 16
def Cmd.cmask (c : Cmd) : Nat := fieldOf (c.dw 4) 16 16
def Cmd.dmask (c : Cmd) : Nat := fieldOf (c.dw 4) 32 16
def Cmd.lastSlice (c : Cmd) : Nat := fieldOf (c.dw 4) 48 8
def Cmd.acc (c : Cmd) : Nat := fieldOf (c.dw 4) 56 6
/-- ABASE, BBASE, ASTRIDE, BSTRIDE of R235. -/
def Cmd.abase (c : Cmd) : Nat := (c.dw 1).toNat
def Cmd.bbase (c : Cmd) : Nat := (c.dw 2).toNat
def Cmd.astride (c : Cmd) : Nat := fieldOf (c.dw 3) 0 32
def Cmd.bstride (c : Cmd) : Nat := fieldOf (c.dw 3) 32 32
/-- AFMT and BFMT as the command took them (R232, R234). -/
def Cmd.afmt (c : Cmd) : Nat := fieldOf c.mfmt 0 3
def Cmd.bfmt (c : Cmd) : Nat := fieldOf c.mfmt 4 3
/-- BLK of MMA.BS (R238). -/
def Cmd.blk (c : Cmd) : Bool := c.op == 1 && bitAt c.flags 0
/-- TR and TC of MTEAM (R247). -/
def Cmd.tr (c : Cmd) : Nat := fieldOf (c.dw 5) 16 4 + 1
def Cmd.tc (c : Cmd) : Nat := fieldOf (c.dw 5) 20 5 + 1
/-- RMASK, CMASK and ACC of MLDA and MSTA (R242). -/
def Cmd.rowMask (c : Cmd) : Nat := fieldOf (c.dw 3) 0 16
def Cmd.colMask (c : Cmd) : Nat := fieldOf (c.dw 3) 16 16
def Cmd.moveAcc (c : Cmd) : Nat := fieldOf (c.dw 3) 32 6
/-- OUT of MSTA. -/
def Cmd.out (c : Cmd) : Nat := c.flags % 8

/-- The set bits of a mask, rising. -/
def bitList (m n : Nat) : List Nat := (List.range n).filter fun i => bitAt m i

/-- A 16 × 16 block of a compute command's result: where it lives, its first row and column, and its enabled lanes. -/
structure Block where
  key : Nat
  row : Nat
  col : Nat
  rows : Nat
  cols : Nat
  deriving DecidableEq, Repr

/-- The result blocks of a compute command (R237, R238, R247). -/
def Cmd.blocks (c : Cmd) : List Block :=
  if c.op = 9 then
    let ms := c.members
    (List.range (c.tr * c.tc)).map fun t =>
      let r := t / c.tc
      let k := t % c.tc
      { key := ms.getD (t % ms.length) c.v * 64 + (c.acc + t / ms.length), row := 16 * r, col := 16 * k
        rows := if r + 1 = c.tr then c.rmask else 0xFFFF, cols := if k + 1 = c.tc then c.cmask else 0xFFFF }
  else if c.blk then
    (List.range 4).map fun t =>
      { key := c.v * 64 + c.acc + t, row := 16 * (t / 2), col := 16 * (t % 2)
        rows := if t / 2 = 1 then c.rmask else 0xFFFF, cols := if t % 2 = 1 then c.cmask else 0xFFFF }
  else [{ key := c.v * 64 + c.acc, row := 0, col := 0, rows := c.rmask, cols := c.cmask }]

/-- The accumulator tiles a matrix command names, by vcore × 64 + number (R228); a refused one names none. -/
def Cmd.accTiles (c : Cmd) : List Nat :=
  if c.eng.no ≠ 0 || c.code == some 11 then []
  else if c.op ≤ 3 || c.op = 9 then c.blocks.map fun b => b.key
  else if c.op = 5 || c.op = 6 then [c.v * 64 + c.moveAcc]
  else (bitList (c.dw 1).toNat 64).map fun t => c.v * 64 + t

/-! ## What a slice fetches (R235, R236, R238 to R240) -/

/-- The depth of a slice and the depth indices one DMASK bit enables. -/
def Cmd.depth (c : Cmd) : Nat × Nat :=
  match c.op with
  | 2 => (64, 4)
  | 3 => (256, 16)
  | _ => (16, 1)

/-- The depth positions of slice `s` that are enabled (R236, R239, R240). -/
def Cmd.depths (c : Cmd) (s : Nat) : List Nat :=
  (List.range c.depth.1).filter fun d => decide (s < c.lastSlice) || bitAt c.dmask (d / c.depth.2)

/-- MMA.BS skips slice `s` (R238). -/
def Cmd.skips (c : Cmd) (s : Nat) : Bool := c.op == 1 && !bitAt (c.dw 5).toNat (if c.blk then s / 2 else s)

/-- The bytes of an element of A and B (R235). -/
def Cmd.sizeA (c : Cmd) : Nat := if c.op = 2 || c.op = 3 then 1 else if c.afmt < 2 then 2 else 1
def Cmd.sizeB (c : Cmd) : Nat := if c.op = 2 || c.op = 3 then 1 else if c.bfmt < 2 then 2 else 1

/-- The address of A at row `i`, depth `d` of slice `s` (R235, R239, R240: MBIN's rows hold bits). -/
def Cmd.aAddr (c : Cmd) (s i d : Nat) : Nat :=
  match c.op with
  | 3 => c.abase + i * c.astride + 32 * s + d / 8
  | _ => c.abase + i * c.astride + (c.depth.1 * s + d) * c.sizeA

/-- The address of B at depth `d` of slice `s`, column `j`: MLUT's rows hold packed weights, MBIN's columns bits. -/
def Cmd.bAddr (c : Cmd) (s d j : Nat) : Nat :=
  match c.op with
  | 2 => c.bbase + (64 * s + d) * c.bstride + (if bitAt c.flags 0 then j / 4 else j / 8)
  | 3 => c.bbase + j * c.bstride + 32 * s + d / 8
  | _ => c.bbase + (16 * s + d) * c.bstride + j * c.sizeB

/-- The rows of A and the columns of B that feed some enabled lane. -/
def Cmd.usedRows (c : Cmd) : List Nat :=
  (c.blocks.flatMap fun b => if b.cols = 0 then [] else (bitList b.rows 16).map fun i => b.row + i).eraseDups
def Cmd.usedCols (c : Cmd) : List Nat :=
  (c.blocks.flatMap fun b => if b.rows = 0 then [] else (bitList b.cols 16).map fun j => b.col + j).eraseDups

/-- The accesses of slice `s` to A and to B: address and size (R236). -/
def Cmd.fetchA (c : Cmd) (s : Nat) : List (Nat × Nat) :=
  if c.skips s then [] else
  (c.usedRows.flatMap fun i => (c.depths s).map fun d => (c.aAddr s i d % 2 ^ 64, c.sizeA)).eraseDups
def Cmd.fetchB (c : Cmd) (s : Nat) : List (Nat × Nat) :=
  if c.skips s then [] else
  (c.usedCols.flatMap fun j => (c.depths s).map fun d => (c.bAddr s d j % 2 ^ 64, c.sizeB)).eraseDups

/-! ## Checks at acceptance (R226, R404) -/

/-- A bit the layout marks zero is set (R404). A bit of FLAGS that no layout names, here and in the checks of the other engines'
commands, is reserved as well: DESIGN CHOICE (log 36). -/
def Cmd.matrixReserved (c : Cmd) : Bool :=
  let f := c.flags
  let w := fun n => (c.dw n).toNat
  match c.op with
  | 0 => f != 0 || fieldOf (c.dw 4) 62 2 != 0 || w 5 != 0
  | 1 => f / 2 != 0 || fieldOf (c.dw 4) 62 2 != 0
  | 2 | 3 => f / 2 != 0 || fieldOf (c.dw 4) 62 2 != 0 || w 5 != 0
  | 4 => false
  | 5 => f != 0 || w 2 / 2 ^ 32 != 0 || w 3 / 2 ^ 38 != 0 || w 4 != 0 || w 5 != 0
  | 6 => f / 32 != 0 || w 2 / 2 ^ 32 != 0 || w 3 / 2 ^ 38 != 0 || w 4 != 0 || w 5 != 0
  | 7 => f != 0 || w 2 / 2 ^ 16 != 0 || w 3 != 0 || w 4 != 0 || w 5 != 0
  | 8 => f != 0 || w 2 / 2 != 0 || w 3 != 0 || w 4 != 0 || w 5 != 0
  | _ => f != 0 || fieldOf (c.dw 4) 62 2 != 0 || w 5 / 2 ^ 25 != 0

/-- The tile kind a compute command needs, none where its formats are no legal pairing (R232, R238 to R240). -/
def Cmd.needsKind (c : Cmd) : Option Nat :=
  if c.op = 2 || c.op = 3 then some 1
  else if c.afmt < 2 && c.bfmt < 2 then some 0
  else if c.afmt = 2 && c.bfmt = 2 then some 1
  else if c.afmt = 2 && c.bfmt = 3 && c.op != 1 then some 2
  else none

/-- Field values of a compute command that are invalid by themselves (R238, R240, R247). -/
def Cmd.badFields (c : Cmd) : Bool :=
  match c.op with
  | 1 =>
    if c.blk then c.acc % 4 != 0 || c.lastSlice % 2 != 1 || decide (127 < c.lastSlice) ||
      (c.dw 5).toNat / 2 ^ ((c.lastSlice + 1) / 2) != 0
    else decide (63 < c.lastSlice) || (c.dw 5).toNat / 2 ^ (c.lastSlice + 1) != 0
  | 9 => decide (24 < c.tc) || decide (63 < c.acc + (c.tr * c.tc + c.members.length - 1) / c.members.length - 1)
  | _ => false

/-- The tile may be used by the command (R228, R247). -/
def State.tileAllowed (s : State) (c : Cmd) (key : Nat) : Bool :=
  match mapGet? s.tiles key with
  | some t => t.ctx == c.ctx && (c.op != 9 || t.lead == c.v)
  | none => false

/-- An operand's fetched elements lie wholly in the own-scratchpad window or wholly in translated memory (R235). -/
def State.operandPlace (s : State) (c : Cmd) (l : List (Nat × Nat)) : Bool :=
  let spad := l.all fun x => 0x1000000 ≤ x.1 && x.1 + x.2 ≤ 0x1400000 && match s.ownWindow c.accessor x.1 x.2 with
    | some (.ok _) => true
    | _ => false
  let mem := l.all fun x => 0x10000000 ≤ x.1 && x.1 + x.2 ≤ 0x10000000000000 && !inFabric x.1
  spad || mem

/-- The element size of MLDA and MSTA (R242). -/
def Cmd.moveSize (c : Cmd) : Nat :=
  if c.op = 5 then 4
  else match c.out with
    | 0 => 4
    | 4 => 1
    | _ => 2

/-- The elements of row `i` that MLDA and MSTA move: column and address. -/
def Cmd.rowElems (c : Cmd) (i : Nat) : List (Nat × Nat) :=
  (bitList c.colMask 16).map fun j => (j, ((c.dw 1).toNat + i * fieldOf (c.dw 2) 0 32 + j * c.moveSize) % 2 ^ 64)

/-- OUT and SCALE that do not fit the tile's kind (R242). -/
def Cmd.badOut (c : Cmd) (kind : Nat) : Bool :=
  c.op == 6 && (let scale := bitAt c.flags 4
    decide (4 < c.out) || (scale && decide (2 < c.out)) || (scale && c.out == 0 && kind == 1) ||
    ((c.out == 1 || c.out == 2) && kind == 1) || ((c.out == 3 || c.out == 4) && kind == 0))

/-- An address in the fabric window's I-store part (R242). -/
def inFabricCode (va : Nat) : Bool :=
  inFabric va && (let off := (va - 0x1000000000) % 0x100000
    decide (0x80000 ≤ off) && decide (off < 0x88000))

/-- The accesses of a matrix command that may lie in scratchpad tiles (R135). -/
def Cmd.matrixRanges (c : Cmd) : List (Nat × Nat) :=
  if c.op ≤ 3 || c.op = 9 then (List.range (c.lastSlice + 1)).flatMap fun s => c.fetchA s ++ c.fetchB s
  else if c.op = 5 || c.op = 6 then
    (bitList c.rowMask 16).flatMap fun i => (c.rowElems i).map fun e => (e.2, c.moveSize)
  else []

/-- The checks of a matrix command after those of the frame (R226, R229 to R247): the detail of its refusal. R226 gives them no
order; the one here is the model's: DESIGN CHOICE (log 38). -/
def State.matrixCheck (s : State) (c : Cmd) : Option Nat :=
  if c.matrixReserved then some 5
  else if c.op ≤ 3 || c.op = 9 then
    let need := c.needsKind
    let all_ := fun (f : Nat → List (Nat × Nat)) => (List.range (c.lastSlice + 1)).flatMap f
    if c.op = 9 && !c.members.contains c.v then some 1
    else if c.badFields then some 2
    else if !(c.accTiles.all fun k => s.tileAllowed c k) then some 3
    else if need.isNone || !(c.accTiles.all fun k => (mapGet? s.tiles k).map (fun t => t.kind) == need) then some 2
    else if c.op = 3 && (c.abase % 32 != 0 || c.bbase % 32 != 0 || c.astride % 32 != 0 || c.bstride % 32 != 0) then some 2
    else if c.abase % c.sizeA != 0 || c.astride % c.sizeA != 0 || c.bbase % c.sizeB != 0 || c.bstride % c.sizeB != 0 then some 2
    else if !s.operandPlace c (all_ c.fetchA) || !s.operandPlace c (all_ c.fetchB) then some 4
    else none
  else if c.op = 5 || c.op = 6 then
    let key := c.v * 64 + c.moveAcc
    if !s.tileAllowed c key then some 3
    else if c.badOut (((mapGet? s.tiles key).map fun t => t.kind).getD 0) then some 2
    else if (c.dw 1).toNat % c.moveSize != 0 || fieldOf (c.dw 2) 0 32 % c.moveSize != 0 then some 2
    else if c.matrixRanges.any fun x => inFabricCode x.1 then some 4
    else none
  else if c.op = 4 then (if c.accTiles.all fun k => s.tileAllowed c k then none else some 3)
  else
    let foreign := c.accTiles.any fun k => match mapGet? s.tiles k with
      | some t => t.ctx != c.ctx
      | none => false
    let w := (c.dw 2).toNat
    let badLead := if bitAt w 15 then bitsOf w 3 12 / 16 != c.v / 16 else bitsOf w 3 12 != 0
    if c.op = 7 && (w % 4 = 3 || badLead) then some 2
    else if foreign then some 3 else none

/-! ## The order of starts (R225, R213) -/

/-- Two commands name a common accumulator tile. -/
def Cmd.shares (a b : Cmd) : Bool := a.accTiles.any fun k => b.accTiles.contains k

/-- Commands accepted before this one. -/
def State.before (s : State) (c : Cmd) : List Cmd := s.cmds.takeWhile fun x => x.id != c.id

/-- A queued matrix command may start (R225, R248): no earlier command shares a tile, its kind's place in every unit it uses
is free, no earlier one of its class waits there, and no class-0 command that could go waits. -/
def State.matrixMayStart (s : State) (c : Cmd) : Bool :=
  let unit := fun (x : Cmd) => x.id != c.id && x.eng.no == 0 && x.members.any fun v => c.members.contains v
  let free := fun (x : Cmd) => !((s.before x).any fun y => y.shares x)
  free c && !(s.cmds.any fun x => unit x && x.active && x.computes == c.computes) &&
  !((s.before c).any fun x => unit x && x.st == .queued && x.cls == c.cls) &&
  (c.cls == 0 || !(s.cmds.any fun x => unit x && x.st == .queued && x.cls == 0 && !x.shares c && free x))

/-! ## Tiles as a whole (R228 to R231) -/

/-- MZERO's effect (R231). -/
def State.zeroTiles (s : State) (keys : List Nat) : State :=
  { s with tiles := s.tiles.map fun e => if keys.contains e.1 then (e.1, { e.2 with el := List.replicate 256 0 }) else e }

/-- Tiles become Free (R228). -/
def State.freeTiles (s : State) (keys : List Nat) : State :=
  { s with tiles := s.tiles.filter fun e => !keys.contains e.1 }

/-- TCFG's effect at its start (R229), or its refusal there. -/
def State.declareTiles (s : State) (c : Cmd) : Option State :=
  let w := (c.dw 2).toNat
  let lead := if bitAt w 15 then bitsOf w 3 12 else c.v
  let foreign := c.accTiles.any fun k => match mapGet? s.tiles k with
    | some t => t.ctx != c.ctx
    | none => false
  if foreign then none
  else
    let one := fun (m : AMap Tile) (k : Nat) =>
      let el := match mapGet? m k with
        | some t => if bitAt w 2 then List.replicate 256 0 else t.el
        | none => List.replicate 256 0
      mapSet m k ⟨w % 4, c.ctx, lead, el⟩
    some { s with tiles := c.accTiles.foldl one s.tiles }

/-- A forced TREL at its acceptance (R230): every command that names a selected tile stops and completes GONE, one that is
Completing too; a refused one names no tile any more. The tiles become Free. -/
def State.forceRelease (s : State) (c : Cmd) : State :=
  let hit := s.cmds.filter fun x => x.id != c.id && x.shares c && x.code != some 11
  let gone := fun (s : State) (x : Cmd) =>
    if x.st = .completing then s.updCmd x.id fun y => { y with code := some 8 } else s.stopCmd x 8
  State.freeTiles (hit.foldl gone s) c.accTiles

/-! ## A k-slice (R237 to R240, R59) -/

/-- An element as the unit reads it, and whether its line failed the check value. -/
def State.engVal (s : State) (c : Cmd) (va n : Nat) : Nat × Bool :=
  match s.engRead c (va % 2 ^ 64) n with
  | .ok bs => (ofBytes (bs.map fun b => b.1), bs.any fun b => b.2)
  | .error _ => (0, false)

/-- The product of one element of A and one of B in a floating pairing (R232): a bad element is the canonical NaN (R244). -/
def State.fpElem (s : State) (c : Cmd) (va fmt : Nat) : FpVal :=
  let f := if fmt = 0 then fp16 else bf16
  let x := s.engVal c va 2
  if x.2 then .nan false else f.val x.1

/-- An integer element; a bad one is 0 (R244). -/
def State.intElem (s : State) (c : Cmd) (va : Nat) : Int :=
  let x := s.engVal c va 1
  if x.2 then 0 else sextNat x.1 8

/-- MLUT's weight at column `j` and whether it is T2's code 10 (R56, R239). -/
def State.lutWeight (s : State) (c : Cmd) (va j : Nat) : Int × Flags :=
  let x := s.engVal c va 1
  if x.2 then (0, 0)
  else if bitAt c.flags 0 then
    match bitsOf x.1 (2 * (j % 4)) 2 with
    | 1 => (1, 0)
    | 3 => (-1, 0)
    | 2 => (0, flagSAT)
    | _ => (0, 0)
  else if bitAt x.1 (j % 8) then (1, 0) else (-1, 0)

/-- A bit of an MBIN operand. -/
def State.binBit (s : State) (c : Cmd) (va d : Nat) : Bool :=
  let x := s.engVal c va 1
  !x.2 && bitAt x.1 (d % 8)

/-- What slice `k` adds to the integer lane at row `i`, column `j` of the result. -/
def State.intSlice (s : State) (c : Cmd) (k i j : Nat) : Int × Flags :=
  let ds := c.depths k
  match c.op with
  | 2 => ds.foldl (fun (a : Int × Flags) d =>
      let w := s.lutWeight c (c.bAddr k d j) j
      (a.1 + s.intElem c (c.aAddr k i d) * w.1, flagOr a.2 w.2)) (0, 0)
  | 3 =>
    let both := ds.map fun d => (s.binBit c (c.aAddr k i d) d, s.binBit c (c.bAddr k d j) d)
    if bitAt c.flags 0 then ((ds.length : Int) - 2 * ((both.filter fun x => x.1 != x.2).length : Int), 0)
    else (((both.filter fun x => x.1 && x.2).length : Int), 0)
  | _ => (ds.foldl (fun (a : Int) d =>
      let x := s.intElem c (c.aAddr k i d)
      let y := c.bAddr k d j
      a + (if c.bfmt = 3 then (let b := s.engVal c y 1; if b.2 then 0 else s2pMul x b.1) else x * s.intElem c y)) 0, 0)

/-- A lane after slice `k` (R59). -/
def State.laneSlice (s : State) (c : Cmd) (kind k i j : Nat) (old : BitVec 32) : BitVec 32 × Flags :=
  if kind = 0 then
    let prods := (c.depths k).map fun d => fpMul (s.fpElem c (c.aAddr k i d) c.afmt) (s.fpElem c (c.bAddr k d j) c.bfmt)
    let (v, fl) := fpSum .rne (fp32.val old.toNat :: prods.map fun (p : FpVal × Flags) => p.1)
    let (r, fl') := fp32.deliver .rne v
    (BitVec.ofNat 32 r, prods.foldl (fun f (p : FpVal × Flags) => flagOr f p.2) (flagOr fl fl'))
  else
    let (x, fl) := s.intSlice c k i j
    let (r, fl') := sat32 (old.toInt + x)
    (BitVec.ofInt 32 r, flagOr fl fl')

/-- A block's tile after slice `k`: its enabled lanes only (R236, R237). -/
def State.blockSlice (s : State) (c : Cmd) (k : Nat) (b : Block) : Option (Tile × Flags) :=
  (mapGet? s.tiles b.key).map fun t =>
    let lanes : List (BitVec 32 × Flags) := (List.range 256).map fun n =>
      let i := n / 16
      let j := n % 16
      if bitAt b.rows i && bitAt b.cols j then s.laneSlice c t.kind k (b.row + i) (b.col + j) (t.el.getD n 0) else (t.el.getD n 0, 0)
    ({ t with el := lanes.map fun (x : BitVec 32 × Flags) => x.1 }, lanes.foldl (fun f (x : BitVec 32 × Flags) => flagOr f x.2) 0)

/-- The unit's report of flags (R227). -/
def unitReport (f : Flags) : Nat :=
  let bit := fun (fl n : Nat) => if f &&& fl != 0 then 2 ^ n else 0
  bit flagNV 0 + bit flagSAT 1 + bit flagOF 2 + bit flagNX 3 + bit flagUF 4

/-- What stops a set of accesses: a fault before a pause. -/
def firstStop (l : List EngStop) : Option EngStop :=
  (l.find? fun x => match x with
    | .pause _ => false
    | _ => true).orElse fun _ => l.head?

/-- What stops the fetch of slice `k` (R235, R244): a translated operand's frame must be die SRAM. -/
def State.sliceStop (s : State) (c : Cmd) (k : Nat) : Option EngStop :=
  firstStop ((c.fetchA k ++ c.fetchB k).filterMap fun x => match s.engLocs c x.1 x.2 .eread with
    | .error (.device _) => some (.fault x.1)
    | .error e => some e
    | .ok ls => if ls.all fun l => isSram l || isSpad l then none else some (.fault x.1))

/-- The die-SRAM lines of slice `k` that Sprue has fetched and holds locked while the command is Paused (R136, R246). -/
def State.sliceLocks (s : State) (c : Cmd) (k : Nat) : List (Nat × Nat × Nat) :=
  ((c.fetchA k ++ c.fetchB k).filterMap fun x => match s.engLoc c x.1 .eread with
    | .ok l => if isSram l then some (lineOf l, c.id, x.1 / 64 * 64) else none
    | .error _ => none).eraseDups

/-- One k-slice of a compute command or MTEAM: fetched whole, then applied to every lane at once (R237, R248). -/
def State.computeUnit (s : State) (c : Cmd) : Except EngStop (State × Cmd) :=
  let k := c.units
  if c.skips k then .ok (s, { c with units := k + 1 })
  else match s.sliceStop c k with
    | some x => .error x
    | none =>
      let fetched := c.fetchA k ++ c.fetchB k
      let bad := fetched.any fun x => (s.engVal c x.1 x.2).2
      let rs := c.blocks.filterMap fun b => (s.blockSlice c k b).map fun r => (b.key, r)
      let fl := rs.foldl (fun f r => flagOr f r.2.2) 0
      let s' := fetched.foldl (fun s x => s.engTouch c x.1 x.2 .eread) s
      let s' := State.unlock { s' with tiles := rs.foldl (fun m r => mapSet m r.1 r.2.1) s'.tiles } fun l => l.2.1 == c.id
      .ok (s', { c with units := k + 1, detail := c.detail ||| unitReport fl, poison := c.poison || bad })

/-! ## A row of MLDA and MSTA (R242, R245) -/

/-- The row the next unit moves. -/
def Cmd.nextRow (c : Cmd) : Option Nat := (bitList c.rowMask 16)[c.units]?

/-- One row of MLDA. -/
def State.loadRow (s : State) (c : Cmd) : Except EngStop (State × Cmd) :=
  match c.nextRow, mapGet? s.tiles (c.v * 64 + c.moveAcc) with
  | some i, some t =>
    let es := c.rowElems i
    match firstStop (es.filterMap fun e => match s.engRead c e.2 4 with
      | .error x => some x
      | .ok _ => none) with
    | some x => .error x
    | none =>
      let vals : List (Nat × Nat × Bool) := es.map fun e => (e.1, s.engVal c e.2 4)
      let put := fun (el : List (BitVec 32)) (x : Nat × Nat × Bool) =>
        el.set (16 * i + x.1) (if x.2.2 then (if t.kind = 0 then BitVec.ofNat 32 fp32.nanBits else 0) else BitVec.ofNat 32 x.2.1)
      let s' := es.foldl (fun s e => s.engTouch c e.2 4 .eread) s
      .ok ({ s' with tiles := mapSet s'.tiles (c.v * 64 + c.moveAcc) { t with el := vals.foldl put t.el } },
           { c with units := c.units + 1, poison := c.poison || vals.any fun (x : Nat × Nat × Bool) => x.2.2 })
  | _, _ => .ok (s, { c with units := c.units + 1 })

/-- An element's value as MSTA's table reads it: FP32, INT32, or FIX16 with 16 fraction bits (R242). -/
def tileVal (kind : Nat) (x : BitVec 32) : FpVal :=
  if kind = 0 then fp32.val x.toNat else .fin (decide (x.toInt < 0)) x.toInt.natAbs (if kind = 2 then -16 else 0)

/-- An element as MSTA writes it (R242), from the scales that apply. -/
def stored (out kind : Nat) (scale : Bool) (x : BitVec 32) (scales : List FpVal) : Nat × Flags :=
  let (v, fl) := scales.foldl (fun (a : FpVal × Flags) r =>
    let p := fpMul a.1 r
    (p.1, flagOr a.2 p.2)) (tileVal kind x, 0)
  let flagged := fun (r : Nat × Flags) => (r.1, flagOr fl r.2)
  let whole : Int × Flags := if kind = 2 then
      let r := roundInt .rne (decide (x.toInt < 0)) x.toInt.natAbs (-16)
      (r.1, if r.2 then flagNX else 0)
    else (x.toInt, 0)
  match out with
  | 0 => if scale then flagged (fp32.deliver .rne v) else (x.toNat, 0)
  | 1 => flagged (fp16.deliver .rne v)
  | 2 => flagged (bf16.deliver .rne v)
  | 3 => let r := sat16 whole.1; (truncInt r.1 16, flagOr whole.2 r.2)
  | _ => let r := sat8 whole.1; (truncInt r.1 8, flagOr whole.2 r.2)

/-- One value of a scale table in the unit's own TCM (R233). -/
def State.scaleOf (s : State) (c : Cmd) (on base n : Nat) : Except EngStop (List FpVal × Bool) :=
  if !bitAt c.flags 4 || !c.mscl.getLsbD on then .ok ([], false)
  else match s.engRead c (fieldOf c.mscl base 11 * 64 + 4 * n) 4 with
    | .error x => .error x
    | .ok bs => .ok ([fp32.val (ofBytes (bs.map fun b => b.1))], bs.any fun b => b.2)

/-- One element of MSTA: its bytes, flags and whether a scale failed its check. -/
def State.storeElem (s : State) (c : Cmd) (t : Tile) (i j : Nat) : Except EngStop (List Byte × Flags × Bool) :=
  match s.scaleOf c 32 0 i, s.scaleOf c 33 16 j with
  | .error x, _ => .error x
  | _, .error x => .error x
  | .ok r, .ok k =>
    let v := stored c.out t.kind (bitAt c.flags 4) (t.el.getD (16 * i + j) 0) (r.1 ++ k.1)
    .ok (bytesOf v.1 c.moveSize, v.2, r.2 || k.2)

/-- One row of MSTA: every element checked and written, then ZAFT. -/
def State.storeRow (s : State) (c : Cmd) : Except EngStop (State × Cmd) :=
  match c.nextRow, mapGet? s.tiles (c.v * 64 + c.moveAcc) with
  | some i, some t =>
    let step := fun (r : Except EngStop (State × Cmd)) (e : Nat × Nat) => match r with
      | .error x => .error x
      | .ok (s, c) => match s.storeElem c t i e.1 with
        | .error x => .error x
        | .ok (bs, fl, bad) => match s.engWrite c e.2 (bs.map fun b => (b, bad)) with
          | .error x => .error x
          | .ok s' => .ok (s', { c with detail := c.detail ||| unitReport fl, poison := c.poison || bad })
    match (c.rowElems i).foldl step (.ok (s, c)) with
    | .error x => .error x
    | .ok (s, c) =>
      let el := if bitAt c.flags 3 then (c.rowElems i).foldl (fun el e => el.set (16 * i + e.1) 0) t.el else t.el
      .ok ({ s with tiles := mapSet s.tiles (c.v * 64 + c.moveAcc) { t with el := el } }, { c with units := c.units + 1 })
  | _, _ => .ok (s, { c with units := c.units + 1 })

/-- The units of a matrix command (R215, R227): slices, rows, or none. -/
def Cmd.matrixUnits (c : Cmd) : Nat :=
  if c.computes then c.lastSlice + 1 else if c.op = 5 || c.op = 6 then (bitList c.rowMask 16).length else 0

/-- One unit of a matrix command. -/
def State.matrixUnit (s : State) (c : Cmd) : Except EngStop (State × Cmd) :=
  if c.computes then s.computeUnit c else if c.op = 5 then s.loadRow c else s.storeRow c

end Sys2Proof.Machine
end

