-- ==== Sys2Proof/Machine/Copies.lean ====
section
/-!
DEFINITION. Sys2Proof/Machine/Copies.lean: the copy engine and the Ladle: the checks of their commands and one unit of each
(11_engines R222, R223; 03_numbers R57).
-/
namespace Sys2Proof.Machine

/-! ## Copy engine (R222) -/

/-- ROWS, ROWLEN, SSTRIDE, DSTRIDE, RING and DEPTH of COPY2. -/
def Cmd.rowCount (c : Cmd) : Nat := fieldOf (c.dw 3) 0 32
def Cmd.rowLen (c : Cmd) : Nat := fieldOf (c.dw 3) 32 32
def Cmd.srcStride (c : Cmd) : Int := sextNat (fieldOf (c.dw 4) 0 32) 32
def Cmd.dstStride (c : Cmd) : Int := sextNat (fieldOf (c.dw 4) 32 32) 32
def Cmd.ring (c : Cmd) : Bool := bitAt c.flags 0
def Cmd.ringDepth (c : Cmd) : Nat := c.flags / 2
/-- The element size of COPYX. -/
def Cmd.gatherSize (c : Cmd) : Nat := 2 ^ (c.flags % 8)

/-- An address some signed bytes from a base, wrapping at 64 bits. -/
def vaOff (base : Word) (d : Int) : Nat := truncInt ((base.toNat : Int) + d) 64

/-- The bytes from the lowest to the highest of `n` rows of a stride: first address and length. -/
def rowSpan (base : Word) (stride : Int) (n len : Nat) : Nat × Nat :=
  let last := ((n - 1 : Nat) : Int) * stride
  let lo := vaOff base (min 0 last)
  (lo, vaOff base (max 0 last) + len - lo)

/-- Two runs of addresses meet. -/
def meets (a b : Nat × Nat) : Bool := a.2 != 0 && b.2 != 0 && overlaps a.1 a.2 b.1 b.2

/-- The runs of addresses a copy command names (R135): COPYX's gathered elements are those its indices name now. -/
def State.copyRanges (s : State) (c : Cmd) : List (Nat × Nat) :=
  let a := (c.dw 1).toNat
  let b := (c.dw 2).toNat
  match c.op with
  | 0 => [(a, (c.dw 3).toNat), (b, (c.dw 3).toNat)]
  | 1 =>
    let n := if c.ring then c.ringDepth else c.rowCount
    if c.rowCount = 0 then []
    else (if c.ring then [((c.dw 5).toNat, 16)] else []) ++
      ((List.range c.rowCount).map fun (r : Nat) => (vaOff (c.dw 1) (r * c.srcStride), c.rowLen)) ++
      ((List.range n).map fun (r : Nat) => (vaOff (c.dw 2) (r * c.dstStride), c.rowLen))
  | 2 =>
    let n := fieldOf (c.dw 4) 0 32
    let idx := (List.range n).filterMap fun i => match s.engRead c (b + 4 * i) 4 with
      | .ok bs => some (a + ofBytes (bs.map fun x => x.1) * c.gatherSize, c.gatherSize)
      | .error _ => none
    (b, 4 * n) :: ((c.dw 3).toNat, n * c.gatherSize) :: idx
  | _ => [(b, (c.dw 3).toNat)]

/-- The checks of a copy command after those of the frame. Where several fail, R222 does not say which gives the detail; the
order here is the model's: DESIGN CHOICE (log 38). -/
def Cmd.copyCheck (c : Cmd) : Option Nat :=
  let w := fun n => (c.dw n).toNat
  match c.op with
  | 0 =>
    if w 4 ≠ 0 || w 5 ≠ 0 || c.flags ≠ 0 then some 5
    else if 2 ^ 40 ≤ w 3 then some 2
    else if meets (w 1, w 3) (w 2, w 3) then some 1 else none
  | 1 =>
    let src := rowSpan (c.dw 1) c.srcStride c.rowCount c.rowLen
    let dst := rowSpan (c.dw 2) c.dstStride (if c.ring then c.ringDepth else c.rowCount) c.rowLen
    if c.ring && c.ringDepth = 0 then some 2
    else if c.rowCount ≠ 0 && c.rowLen ≠ 0 && meets src dst then some 1 else none
  | 2 =>
    if w 4 / 2 ^ 32 ≠ 0 || w 5 ≠ 0 || c.flags / 8 ≠ 0 then some 5
    else if c.flags % 8 = 7 then some 2 else none
  | _ =>
    if w 4 ≠ 0 || w 5 ≠ 0 || c.flags ≠ 0 then some 5
    else if w 2 % 8 ≠ 0 || w 3 % 8 ≠ 0 then some 2 else none

/-- The units of a copy command (R222). -/
def Cmd.copyUnits (c : Cmd) : Nat :=
  match c.op with
  | 1 => c.rowCount
  | 2 => fieldOf (c.dw 4) 0 32
  | _ => ((c.dw 3).toNat + 63) / 64

/-- Bytes read at one place and written at another, unchanged (R45, R222). -/
def State.copyRun (s : State) (c : Cmd) (src dst n : Nat) : Except EngStop (State × Cmd) :=
  match s.engRead c src n with
  | .error x => .error x
  | .ok bs => match s.engWrite c dst bs with
    | .error x => .error x
    | .ok s' => .ok (s'.engTouch c src n .eread, { c with units := c.units + 1, poison := c.poison || bs.any fun b => b.2 })

/-- A doubleword of a ring's counters as the engine reads it, and whether its line fails its check value (R147). -/
def State.ringWord (s : State) (c : Cmd) (off : Nat) : Except EngStop (Nat × Bool) :=
  match s.engRead c ((c.dw 5).toNat + off) 8 with
  | .error x => .error x
  | .ok bs => .ok (ofBytes (bs.map fun b => b.1), bs.any fun b => b.2)

/-- One row of COPY2 into a ring (R222): held while the ring is full, and while an earlier row or add is on its way; then the add
to P, which follows the row (R126). Where P or C fails its check value the
row is left failing (R216), and a failing P takes no add: DESIGN CHOICE (log 36). -/
def State.copyRing (s : State) (c : Cmd) : Except EngStop (State × Cmd) :=
  if s.writesHeld c then .error .locked else
  match s.ringWord c 0, s.ringWord c 8, s.engLocs c (c.dw 5).toNat 8 .erw with
  | .ok (p, badP), .ok (k, badC), .ok locs =>
    let src := vaOff (c.dw 1) (c.units * c.srcStride)
    let dst := vaOff (c.dw 2) ((p % c.ringDepth : Nat) * c.dstStride)
    if badP || badC then
      match s.engWrite c dst (List.replicate c.rowLen (0, true)) with
      | .error x => .error x
      | .ok s' =>
        .ok (if badP then s' else s'.machineAdd c.id c.kernel c.ctx c.v c.logical (locs.headD 0) (c.dw 5).toNat 1,
             { c with units := c.units + 1, poison := true })
    else if (p + 2 ^ 64 - k) % 2 ^ 64 = c.ringDepth then .error .locked
    else
      match s.copyRun c src dst c.rowLen with
      | .error x => .error x
      | .ok (s', c') => .ok (s'.machineAdd c.id c.kernel c.ctx c.v c.logical (locs.headD 0) (c.dw 5).toNat 1, c')
  | .error x, _, _ | _, .error x, _ | _, _, .error x => .error x

/-- One element of COPYX (R222). A bad index leaves its destination failing. -/
def State.gatherUnit (s : State) (c : Cmd) : Except EngStop (State × Cmd) :=
  let n := c.gatherSize
  let dst := (c.dw 3).toNat + c.units * n
  match s.engRead c ((c.dw 2).toNat + 4 * c.units) 4 with
  | .error x => .error x
  | .ok ix =>
    if ix.any fun b => b.2 then
      match s.engWrite c dst (List.replicate n (0, true)) with
      | .error x => .error x
      | .ok s' => .ok (s', { c with units := c.units + 1, poison := true })
    else s.copyRun c (((c.dw 1).toNat + ofBytes (ix.map fun b => b.1) * n) % 2 ^ 64) dst n

/-- One unit of a copy command (R222). -/
def State.copyUnit (s : State) (c : Cmd) : Except EngStop (State × Cmd) :=
  let off := 64 * c.units
  match c.op with
  | 0 => s.copyRun c ((c.dw 1).toNat + off) ((c.dw 2).toNat + off) (min 64 ((c.dw 3).toNat - off))
  | 1 =>
    if c.ring then s.copyRing c
    else s.copyRun c (vaOff (c.dw 1) (c.units * c.srcStride)) (vaOff (c.dw 2) (c.units * c.dstStride)) c.rowLen
  | 2 => s.gatherUnit c
  | _ =>
    let n := min 64 ((c.dw 3).toNat - off)
    let bs := (List.range n).map fun i => ((bytesOf (c.dw 1).toNat 8).getD (i % 8) 0, false)
    match s.engWrite c ((c.dw 2).toNat + off) bs with
    | .error x => .error x
    | .ok s' => .ok (s', { c with units := c.units + 1 })

/-! ## Ladle (R223, R57) -/

/-- COUNT and the number of 32-element blocks. -/
def Cmd.elemCount (c : Cmd) : Nat := fieldOf (c.dw 4) 0 32
def Cmd.ladleUnits (c : Cmd) : Nat := (c.elemCount + 31) / 32
/-- The format of FMT (R223). -/
def Cmd.fmt (c : Cmd) : Fmt :=
  match c.flags % 4 with
  | 0 => fp32
  | 1 => fp16
  | _ => bf16
/-- Its size in bytes. -/
def Cmd.fmtSize (c : Cmd) : Nat := if c.flags % 4 = 0 then 4 else 2

/-- The checks of a Ladle command after those of the frame. -/
def Cmd.ladleCheck (c : Cmd) : Option Nat :=
  if (c.dw 4).toNat / 2 ^ 32 ≠ 0 || c.dw 5 ≠ 0 || c.flags / (if c.op = 2 then 8 else 4) ≠ 0 then some 5
  else if c.flags % 4 = 3 then some 2 else none

/-- The runs of addresses a Ladle command names. -/
def Cmd.ladleRanges (c : Cmd) : List (Nat × Nat) :=
  let n := c.elemCount
  let (a, b) := if c.op = 2 then (1, c.fmtSize) else (c.fmtSize, 1)
  [((c.dw 1).toNat, n * a), ((c.dw 2).toNat, n * b), ((c.dw 3).toNat, 2 * c.ladleUnits)]

/-- The smallest BF16 encoding of a value at least m × 2^e / d (R57), by bisection over the encodings below infinity. -/
def bf16Above (m : Nat) (e : Int) (d : Nat) : Nat :=
  let enough := fun (b : Nat) => match bf16.val b with
    | .fin _ k q => let e0 := min e q; decide (scaled false m e e0 ≤ scaled false (k * d) q e0)
    | _ => true
  (List.range 16).foldl (fun (r : Nat × Nat) _ =>
    let mid := (r.1 + r.2) / 2
    if r.1 < r.2 then (if enough mid then (r.1, mid) else (mid + 1, r.2)) else r) (0, 0x7F80) |>.1

/-- A quotient of two finite values as a fraction (R57): x / scale, scale positive. -/
def quotient (neg : Bool) (m : Nat) (e : Int) (k : Nat) (q : Int) : Int × Nat :=
  let e0 := min e q
  (scaled neg m e e0, (scaled false k q e0).toNat)

/-- A fraction rounded to the nearest integer, ties to even, and whether it was inexact. -/
def rneFrac (n : Int) (d : Nat) : Int × Bool :=
  let k := n / (d : Int)
  let r := 2 * (n % (d : Int))
  (if r < d then k else if (d : Int) < r then k + 1 else if k % 2 = 0 then k else k + 1, n % (d : Int) != 0)

/-- A fraction converted to S2P8 (R55), and whether it was inexact. -/
def s2pFrac (n : Int) (d : Nat) : Nat × Bool :=
  let dist := fun (b : Nat) => (64 * n - s2pVal b * d).natAbs
  let best := s2pOrder.foldl (fun (a : Nat × Nat) b => if dist b < a.2 then (b, dist b) else a) (0x77, dist 0x77)
  (best.1, best.2 != 0)

/-- A block quantised (R57): its scale, its data bytes and the Ladle's report. Data 0 of S2P8 is 0x77 (R53). -/
def quantise (s2p : Bool) (xs : List FpVal) : Nat × List Nat × Nat :=
  let data0 := if s2p then 0x77 else 0
  let special := xs.any fun x => match x with
    | .fin _ _ _ => false
    | _ => true
  let e0 := minExp xs
  let m := xs.foldl (fun (a : Nat) x => match x with
    | .fin _ k e => max a (scaled false k e e0).toNat
    | _ => a) 0
  if special then (0x7FC0, xs.map fun _ => data0, 1)
  else if m = 0 then (0, xs.map fun _ => data0, 0)
  else
    let scale := bf16Above m e0 (if s2p then 2 else 127)
    match bf16.val scale with
    | .fin _ k q =>
      let one : FpVal → Nat × Bool := fun x => match x with
        | .fin neg a e =>
          let (n, d) := quotient neg a e k q
          if s2p then s2pFrac n d
          else
            let r := rneFrac n d
            (truncInt (max (-127) (min 127 r.1)) 8, r.2)
        | _ => (0, false)
      let rs := xs.map one
      (scale, rs.map fun (r : Nat × Bool) => r.1, if rs.any fun (r : Nat × Bool) => r.2 then 8 else 0)
    | _ => (scale, xs.map fun _ => data0, 0)

/-- An element dequantised (R57): its bits and the Ladle's report. -/
def dequantise (f : Fmt) (s2p : Bool) (scale b : Nat) : Nat × Nat :=
  let x : FpVal × Nat :=
    if s2p then (.fin (decide (s2pVal b < 0)) (s2pVal b).natAbs (-6), 0)
    else if b = 128 then (.fin true 127 0, 2)
    else (.fin (decide (sextNat b 8 < 0)) (sextNat b 8).natAbs 0, 0)
  let (v, fl) := fpMul x.1 (bf16.val scale)
  let (r, fl') := f.deliver .rne v
  let fl := flagOr fl fl'
  let bit := fun (g n : Nat) => if fl &&& g != 0 then n else 0
  (r, x.2 ||| bit flagNV 1 ||| (if (bf16.val scale).isNan then 1 else 0) ||| bit flagOF 4 ||| bit flagNX 8)

/-- One 32-element block of QNT8 or QS2P. -/
def State.quantUnit (s : State) (c : Cmd) : Except EngStop (State × Cmd) :=
  let u := c.units
  let n := min 32 (c.elemCount - 32 * u)
  let sz := c.fmtSize
  match s.engRead c ((c.dw 1).toNat + 32 * u * sz) (n * sz) with
  | .error x => .error x
  | .ok bs =>
    let xs := (List.range n).map fun i => c.fmt.val (ofBytes (((bs.drop (i * sz)).take sz).map fun b => b.1))
    let bad := bs.any fun b => b.2
    let (scale, data, rep) := quantise (c.op == 1) xs
    match s.engWrite c ((c.dw 2).toNat + 32 * u) (data.map fun d => (BitVec.ofNat 8 d, bad)) with
    | .error x => .error x
    | .ok s' => match s'.engWrite c ((c.dw 3).toNat + 2 * u) ((bytesOf scale 2).map fun b => (b, bad)) with
      | .error x => .error x
      | .ok s' => .ok (s', { c with units := u + 1, poison := c.poison || bad, detail := c.detail ||| rep })

/-- One 32-element block of DQNT. -/
def State.dequantUnit (s : State) (c : Cmd) : Except EngStop (State × Cmd) :=
  let u := c.units
  let n := min 32 (c.elemCount - 32 * u)
  match s.engRead c ((c.dw 1).toNat + 32 * u) n, s.engRead c ((c.dw 3).toNat + 2 * u) 2 with
  | .error x, _ | _, .error x => .error x
  | .ok bs, .ok sc =>
    let scale := ofBytes (sc.map fun b => b.1)
    let badScale := sc.any fun b => b.2
    let rs := bs.map fun b => (dequantise c.fmt (bitAt c.flags 2) scale b.1.toNat, b.2 || badScale)
    let out := rs.flatMap fun (r : (Nat × Nat) × Bool) => (bytesOf r.1.1 c.fmtSize).map fun b => (b, r.2)
    match s.engWrite c ((c.dw 2).toNat + 32 * u * c.fmtSize) out with
    | .error x => .error x
    | .ok s' => .ok (s', { c with units := u + 1, poison := c.poison || rs.any fun (r : (Nat × Nat) × Bool) => r.2,
                                  detail := rs.foldl (fun d (r : (Nat × Nat) × Bool) => d ||| r.1.2) c.detail })

/-- One unit of a Ladle command. -/
def State.ladleUnit (s : State) (c : Cmd) : Except EngStop (State × Cmd) :=
  if c.op = 2 then s.dequantUnit c else s.quantUnit c

end Sys2Proof.Machine
end

