-- ==== Sys2Proof/Machine/Collective.lean ====
section
/-!
DEFINITION. Sys2Proof/Machine/Collective.lean: the collective engines: communicators, the checks of their commands, one
element of each, and the end a killed participant brings (11_engines R224, 17_contexts R292, R304).
-/
namespace Sys2Proof.Machine

/-- COUNT, COMM, ROOT, TYPE and OPR (R224). -/
def Cmd.count (c : Cmd) : Nat := fieldOf (c.dw 3) 0 32
def Cmd.comm (c : Cmd) : Nat := fieldOf (c.dw 3) 32 16
def Cmd.root (c : Cmd) : Nat := fieldOf (c.dw 3) 48 16
def Cmd.collType (c : Cmd) : Nat := c.flags % 4
def Cmd.collOp (c : Cmd) : Nat := bitsOf c.flags 2 2
/-- The size of an element. -/
def Cmd.collSize (c : Cmd) : Nat := if c.collType = 2 then 2 else 4

/-- A command of a collective engine. -/
def Cmd.isCollective (c : Cmd) : Bool :=
  match c.eng with
  | .collective _ => true
  | _ => false

/-- The IO die of a collective command. -/
def Cmd.io (c : Cmd) : Nat :=
  match c.eng with
  | .collective io => io
  | _ => 0

/-- Doubleword `n` of a communicator entry (R292). -/
def State.commWord (s : State) (io comm n : Nat) : Word := (mapGet s.comms (io * 256 + comm) []).getD n 0
/-- VALID, CTX, NRANK and MYRANK of an entry (R292). -/
def State.commValid (s : State) (io comm : Nat) : Bool := comm < 256 && (s.commWord io comm 0).getLsbD 8
def State.commCtx (s : State) (io comm : Nat) : Nat := fieldOf (s.commWord io comm 0) 0 6
def State.ranks (s : State) (c : Cmd) : Nat := fieldOf (s.commWord c.io c.comm 0) 16 8
def State.myRank (s : State) (c : Cmd) : Nat := fieldOf (s.commWord c.io c.comm 0) 24 8

/-- The checks of a collective command after those of the frame (R224). -/
def State.collectiveCheck (s : State) (c : Cmd) : Option Nat :=
  if c.dw 5 ≠ 0 || (c.op ≠ 1 && c.root ≠ 0) || c.flags / 16 ≠ 0 || c.collType = 3 || c.collOp = 3 then some 5
  else if !s.commValid c.io c.comm || s.commCtx c.io c.comm ≠ c.ctx then some 1 else none

/-- The runs of addresses a collective command names. -/
def State.collectiveRanges (s : State) (c : Cmd) : List (Nat × Nat) :=
  let n := c.count * c.collSize
  let src := if c.op = 1 && s.myRank c ≠ c.root then [] else [((c.dw 1).toNat, n)]
  src ++ [((c.dw 2).toNat, if c.op = 2 then n * s.ranks c else n)] ++ (if c.dw 4 = 0 then [] else [((c.dw 4).toNat, 8)])

/-- The elements of a collective: those of its DST (R224, R215). -/
def State.collectiveUnits (s : State) (c : Cmd) : Nat := if c.op = 2 then c.count * s.ranks c else c.count

/-- Two values folded in rank order (R224, R47). -/
def collFold (ty op a b : Nat) : Nat :=
  if ty = 0 then
    match op with
    | 0 => (a + b) % 2 ^ 32
    | 1 => if sextNat b 32 < sextNat a 32 then b else a
    | _ => if sextNat a 32 < sextNat b 32 then b else a
  else
    let f := if ty = 1 then fp32 else bf16
    match op with
    | 0 => (f.add a b).1
    | 1 => (f.minMax false a b).1
    | _ => (f.minMax true a b).1

/-- The values of the ranks of an element: this package's own where it is among them; another package's come over the links
and are free values here (log 10). -/
def State.rankValues (s : State) (c : Cmd) (ranks : List Nat) (own : Nat) : List Nat × State :=
  ranks.foldl (fun (r : List Nat × State) k =>
    if k = s.myRank c then (r.1 ++ [own], r.2)
    else
      let (w, s') := r.2.freeValue 1
      (r.1 ++ [w.toNat % 2 ^ (8 * c.collSize)], s')) ([], s)

/-- The failing lines of a collective's own element that would leave for other packages are logged and not sent (R332). -/
def State.egressBad (s : State) (c : Cmd) (va n : Nat) : State :=
  if s.ranks c ≤ 1 then s
  else match s.engLocs c va n .eread with
    | .ok ls => { s with log := s.log ++ (((ls.filter (s.engBad c)).map lineOf).eraseDups).map LogEntry.egress }
    | .error _ => s

/-- One element of a collective (R224). -/
def State.collectiveUnit (s : State) (c : Cmd) : Except EngStop (State × Cmd) :=
  let sz := c.collSize
  let e := if c.op = 2 then c.units % c.count else c.units
  let ranks := match c.op with
    | 0 => List.range (s.ranks c)
    | 1 => [c.root]
    | _ => [c.units / c.count]
  let read := if ranks.contains (s.myRank c) then s.engRead c ((c.dw 1).toNat + e * sz) sz else .ok []
  match read with
  | .error x => .error x
  | .ok bs =>
    let bad := bs.any fun b => b.2
    let (vals, s') := s.rankValues c ranks (ofBytes (bs.map fun b => b.1))
    let v := match vals with
      | a :: r => r.foldl (collFold c.collType c.collOp) a
      | [] => 0
    match s'.engWrite c ((c.dw 2).toNat + c.units * sz) ((bytesOf v sz).map fun b => (b, bad)) with
    | .error x => .error x
    | .ok s' => .ok (if bad then s'.egressBad c ((c.dw 1).toNat + e * sz) sz else s', { c with units := c.units + 1, poison := c.poison || bad })

/-- The DST lines of a collective that have not received their final value get failing check values (R224); none leaves the
package so (R332). -/
def State.poisonRest (s : State) (c : Cmd) : State :=
  let n := (s.collectiveUnits c - c.units) * c.collSize
  (List.range n).foldl (fun s i => match s.engLoc c ((c.dw 2).toNat + c.units * c.collSize + i) .ewrite with
    | .ok l => if isRemote l || isHost l || isReg l then s else s.writePoison l 1
    | .error _ => s) s

/-- The commands on a communicator that an abort of it reaches. -/
def State.abortable (s : State) (io comm : Nat) : List Cmd :=
  s.cmds.filter fun c => c.eng == .collective io && c.comm == comm && c.st != .completing

/-- Every collective command on a communicator completes ABORTED (R224, R304). -/
def State.abortCollectives (s : State) (io comm : Nat) : State :=
  (s.abortable io comm).foldl (fun s c => (s.poisonRest c).stopCmd c 7) s

/-- A DST line that a collective has not written is locked by Sprue (R136). -/
def State.restLocked (s : State) (c : Cmd) : Bool :=
  (List.range ((s.collectiveUnits c - c.units) * c.collSize)).any fun i =>
    match s.engLoc c ((c.dw 2).toNat + c.units * c.collSize + i) .ewrite with
    | .ok l => s.locked l 1
    | .error _ => false

/-- COLLECTIVE_ABORT (R304): an abort for a communicator arrives; it takes effect once no line it leaves failing is locked (R136). -/
def execCollectiveAbort (io comm : Nat) (s : State) : Host.Outcome State Fault Refusal :=
  .next (if (s.abortable io comm).any s.restLocked then s else s.abortCollectives io comm)

end Sys2Proof.Machine
end

