-- ==== Sys2Proof/Machine/Engines.lean ====
section
/-!
DEFINITION. Sys2Proof/Machine/Engines.lean: sending a command (XCMD, QPUSH), its acceptance, start, work, deadline and
completion (11_engines R206 to R218, 10_event_channels R186 to R188, 12_tiles R225 to R248).
-/
namespace Sys2Proof.Machine

/-! ## Acceptance (R208) -/

/-- The runs of addresses a command names. -/
def State.cmdRanges (s : State) (c : Cmd) : List (Nat × Nat) :=
  match c.eng with
  | .matrix _ => c.matrixRanges
  | .copy _ => s.copyRanges c
  | .ladle _ => c.ladleRanges
  | .collective _ => s.collectiveRanges c
  | .sdu _ | .stations => []

/-- The scratchpad tiles a command names (R135, R208). -/
def State.cmdSpads (s : State) (c : Cmd) : List Nat :=
  ((s.cmdRanges c).flatMap fun r => s.spadsOf c.accessor r.1 r.2).eraseDups

/-- A frame range is wholly populated die SRAM or LPDDR-6 (R315). -/
def frameRange (a n : Nat) : Bool :=
  (isSram a && isSram (a + n - 1)) ||
  (isLpddr a && isLpddr (a + n - 1) && a / 0x1000000000 == (a + n - 1) / 0x1000000000)

/-- The checks of a station command (R315). -/
def Cmd.stationCheck (c : Cmd) : Option Nat :=
  let w := fun n => (c.dw n).toNat
  let whole := bitAt (w 2) 38
  let count := fieldOf (c.dw 2) 0 32
  if w 2 / 2 ^ 39 ≠ 0 || w 3 / 2 ^ 48 ≠ 0 || w 4 / 2 ^ 48 ≠ 0 || w 5 ≠ 0 || c.flags ≠ 0 then some 5
  else if w 1 % 65536 ≠ 0 || w 3 % 65536 ≠ 0 || w 4 % 65536 ≠ 0 then some 2
  else if c.op = 2 then
    if whole || w 1 ≠ 0 || fieldOf (c.dw 2) 32 6 ≠ 0 || count = 0 then some 2
    else if frameRange (w 3) (count * 65536) && frameRange (w 4) (count * 65536) then none else some 2
  else if w 3 ≠ 0 || w 4 ≠ 0 then some 2
  else if whole then (if w 1 ≠ 0 || count ≠ 0 then some 2 else none)
  else if count = 0 then some 2 else none

/-- The checks of the command's own engine; those of SDCFG that R187 makes wait for its start. A short command sent by QPUSH, to
which R210 gives no body, has its argument in doubleword 1, and its FLAGS and doublewords 2 to 5 are not reserved: DESIGN
CHOICE (log 36). -/
def State.ownCheck (s : State) (c : Cmd) : Option Nat :=
  match c.eng with
  | .matrix _ => s.matrixCheck c
  | .copy _ => c.copyCheck
  | .ladle _ => c.ladleCheck
  | .collective _ => s.collectiveCheck c
  | .sdu _ =>
    if c.op = 0 then (if sdcfgReserved c.body || c.flags ≠ 0 then some 5 else none)
    else if (c.dw 1).toNat / 512 ≠ 0 then some 5 else none
  | .stations => c.stationCheck

/-- Every check at acceptance (R208): the frame's, the command's own, then detail 8. -/
def State.acceptCheck (s : State) (c : Cmd) (op : Nat) : Option Nat :=
  (s.commonCheck c op).orElse fun _ => (s.ownCheck c).orElse fun _ => s.spadCheck (s.cmdSpads c)

/-- A command enters its engine's queue (R206, R208, R213): refused at once, or queued; a forced TREL acts now (R230), and
MZERO of no tile is finished now (R231). Its identity is the state's next one. -/
def State.acceptCmd (s : State) (tid : Nat) (t : Thread) (push : Bool) (body : List Word) (v : Nat) (eng : Eng) (op : Nat)
    (mfmt mscl : Word) (deadline : Nat) : State :=
  let h := body.getD 0 0
  let c : Cmd :=
    { id := s.nextId, eng := eng, op := fieldOf h 0 8, v := v, ctx := t.ctx, sup := t.sup, kernel := t.kernel, tid := tid
      push := push, cls := fieldOf h 11 2, body := body
      reg := if h.getLsbD 33 && fieldOf h 28 5 != 0 then some (BitVec.ofNat 5 (fieldOf h 28 5)) else none
      deadline := deadline, mfmt := mfmt, mscl := mscl, st := .queued, units := 0, code := none, detail := 0
      poison := false, spads := [], told := false, added := false, logical := t.logical }
  let s := { s with nextId := s.nextId + 1 }
  match s.acceptCheck c op with
  | some d => { s with cmds := s.cmds ++ [{ c with st := .completing, code := some 11, detail := d }] }
  | none =>
    let c := { c with spads := s.cmdSpads c }
    if eng.no = 0 && c.op = 8 && (c.dw 2).getLsbD 0 then
      let s := s.forceRelease c
      { s with cmds := s.cmds ++ [{ c with st := .completing }] }
    else if eng.no = 0 && c.op = 4 && c.dw 1 = 0 then { s with cmds := s.cmds ++ [{ c with st := .completing }] }
    else { s with cmds := s.cmds ++ [c] }

/-- Every engine a command must find room in (R248): its own, or every member's of an MTEAM. -/
def State.roomFor (s : State) (body : List Word) (v : Nat) (eng : Eng) : Bool :=
  let h := body.getD 0 0
  s.queueRoom eng && (eng.no != 0 || fieldOf h 0 8 != 9 ||
    (List.range 16).all fun p => !bitAt (body.getD 5 0).toNat p || s.queueRoom (.matrix (v / 16 * 16 + p)))

/-! ## XCMD and QPUSH (R209, R212) -/

/-- A register that awaits a command's reply (R71). -/
def Thread.await (t : Thread) (r : Reg) (id : Nat) : Thread :=
  if r = 0 then t else { t with empty := t.empty.set r.toNat (some id) }

/-- The command of a wait is accepted by its engine (R209, R212); its identity is the state's next one. -/
def State.acceptWait (s : State) (tid : Nat) (t : Thread) (w : PWait) : State :=
  match w.kind with
  | .place push body pv eng op mfmt mscl =>
    s.acceptCmd tid t push body pv eng op mfmt mscl (if eng = .stations then 2 ^ 64 else if push then (body.getD 7 0).toNat else w.deadline)
  | _ => s

/-- The wait of an accepted command ends (R209, R212): the reply register awaits command `v.val`, and QPUSH gives the
status. -/
def State.placeDone (s : State) (tid : Nat) (e : Entry) (w : PWait) (v : Verdict) : State :=
  match w.kind with
  | .place push body _ _ _ _ _ =>
    let s := s.updThr tid fun t => { t with run := .block, wait := none }
    let s := s.finish tid e (if push then [⟨w.rd, status v.code v.detail 0, false⟩] else [])
    let h := body.getD 0 0
    if h.getLsbD 33 then s.updThr tid fun t => t.await (BitVec.ofNat 5 (fieldOf h 28 5)) v.val.toNat else s
  | _ => s

/-- A command placed at once. -/
def State.placeNow (s : State) (tid : Nat) (t : Thread) (e : Entry) (w : PWait) : State :=
  (s.acceptWait tid t w).placeDone tid e w ⟨s.pt, 0, 0, 0, w64 s.nextId⟩

/-- The wait of a command ends at E with nothing sent (R209, R212): FULL; with no register it is a discarded reply. -/
def State.placeFull (s : State) (tid : Nat) (e : Entry) (w : PWait) : State :=
  let s := s.updThr tid fun t => { t with run := .block, wait := none }
  match w.kind with
  | .place push _ _ _ _ _ _ =>
    if push || w.rd ≠ 0 then s.finishX tid e w.rd (status 4 0 0) else (s.updThr tid fun t => t.dropReply s.ac).finish tid e []
  | _ => s

/-- A command presented to its engine (R209, R212): placed now where that is by E, FULL where it is not and E has come, else the
wait. -/
def State.presentCmd (s : State) (tid : Nat) (t : Thread) (e : Entry) (w : PWait) : State :=
  s.releasingWait tid t e (e.op 1) fun s =>
  match w.kind with
  | .place _ body v eng _ _ _ =>
    if s.roomFor body v eng && s.pt ≤ w.deadline then s.placeNow tid t e w
    else if w.deadline ≤ s.pt then s.placeFull tid e w else s.parkWait tid w
  | _ => s

/-- The body of a command in own TCM (R209): its alignment, its place, its check value; the thread's own stores are seen. -/
def State.tcmBody (s : State) (tid : Nat) (t : Thread) (a : Nat) : Except Trap (List Word) :=
  if a % 64 ≠ 0 then .error ⟨17, 2, w64 a⟩
  else if 0x20000 < a + 64 then .error ⟨18, 1, w64 a⟩
  else match s.ownWindow t.accessor a 64 with
    | some (.ok loc) =>
      if s.bad loc 64 then .error ⟨19, 1, w64 a⟩
      else
        let held := s.heldStores tid t []
        .ok ((List.range 8).map fun n => w64 (forwardRead held (fun x => (s.byteAt x).toNat) (loc + 8 * n) 8))
    | some (.error x) => .error x
    | none => .error ⟨18, 1, w64 a⟩

/-- The form of an XCMD (R35, R65): light threads reach neither the matrix unit nor the SDU. -/
def xcmdForm (no : Nat) (rd rs1 rs2 : Reg) (mark : Bool) : Form :=
  { waitForm [rs1, rs2] [rd] mark with light := no != 0 && no != 4 }

/-- XCMD (R209, R210). -/
def State.xcmd (s : State) (i : Instr) (no op : Nat) (short : Bool) (rd rs1 rs2 : Reg) (mark : Bool) :
    Host.Outcome State Fault Refusal :=
  s.threadOp i (xcmdForm no rd rs1 rs2 mark) (deferBody [rs1, rs2]) fun s tid t e =>
    let body := if short then .ok (shortBody op no (e.op 0)) else s.tcmBody tid t (e.op 0).toNat
    match body with
    | .error x => s.takeTrap tid x e.pc false
    | .ok b =>
      let h := setField (setField (stampHeader (b.getD 0 0) t) 28 5 rd.toNat) 33 1 (if rd = 0 then 0 else 1)
      let eng := engineOf no t.vcore
      let w := s.begunWait t e (.place false (b.set 0 h) t.vcore eng op t.mfmt t.mscl) rd (e.op 1)
      let w := { w with kind := .place false ((b.set 0 h).set 7 (w64 w.deadline)) t.vcore eng op t.mfmt t.mscl }
      s.presentCmd tid t e w

/-- The engine an inbox window belongs to (R211), none for any other address, and the vcore its commands' own addresses are relative
to: for the window of a collective engine, which names none, the first vcore its IO die serves: DESIGN CHOICE (log 38). -/
def windowOf (pa : Nat) : Option (Eng × Nat) :=
  let off := pa - 0xFF0000000000
  if pa = 0xFF0008000000 then some (.stations, 0)
  else if pa < 0xFF0000000000 then none
  else if off < 0x1000000 then
    let v := off / 0x1000
    let g := off % 0x1000 / 0x40
    if g = 0 || g = 1 || g = 2 || g = 4 then some (engineOf g v, v) else none
  else if off < 0x1000100 then some (.collective ((off - 0x1000000) / 0x40), 1024 * ((off - 0x1000000) / 0x40))
  else none

/-- The doublewords of a vector register. -/
def vecWords (v : Vec) : List Word := (List.range 4).map fun n => w64 (laneOf v 64 n)

/-- QPUSH (R212). -/
def execQpush (rd rs1 rs2 rs3 : Reg) (mark : Bool) (s : State) : Host.Outcome State Fault Refusal :=
  s.threadOp (.qpush rd rs1 rs2 rs3 mark)
    { waitForm [rs1, rs3] [rd] mark with light := false, vreads := [rs2, nextReg rs2] }
    (fun _ _ t e => ({ e with ops := [t.readX rs1, t.readX rs3], vops := [t.readV rs2, t.readV (nextReg rs2)] }, t.pc + 4))
    fun s tid t e =>
      let va := (e.op 0).toNat
      let stop := s.refuseWait tid t e .light rd (e.op 1) 11 9
      if va % 64 ≠ 0 then s.takeTrap tid ⟨17, 0, e.op 0⟩ e.pc false
      else match s.locate t.accessor (stationOf t.vcore) va 64 .write 1 with
        | .error x => s.takeTrap tid x e.pc false
        | .ok pa => match windowOf pa with
          | none => stop
          | some (eng, v) =>
            let b := vecWords (e.vop 0) ++ vecWords (e.vop 1)
            let b := (b.set 0 (stampHeader (b.getD 0 0) t)).set 7
              (w64 (State.deadline { s with pt := e.ti s.pt } (b.getD 7 0) (s.ceil t)).1)
            let w := s.begunWait t e (.place true b v eng 0 t.mfmt t.mscl) rd (e.op 1)
            (s.touchTlb t va .write).presentCmd tid t e w

/-- MMA (R237), sent by XCMD. -/
def execMma (rd rs1 rs2 : Reg) (mark : Bool) (s : State) : Host.Outcome State Fault Refusal :=
  s.xcmd (.mma rd rs1 rs2 mark) 0 0 false rd rs1 rs2 mark

/-- MMA.BS (R238), sent by XCMD. -/
def execMmaBs (rd rs1 rs2 : Reg) (mark : Bool) (s : State) : Host.Outcome State Fault Refusal :=
  s.xcmd (.mmaBs rd rs1 rs2 mark) 0 1 false rd rs1 rs2 mark

/-- MLUT (R239), sent by XCMD. -/
def execMlut (rd rs1 rs2 : Reg) (mark : Bool) (s : State) : Host.Outcome State Fault Refusal :=
  s.xcmd (.mlut rd rs1 rs2 mark) 0 2 false rd rs1 rs2 mark

/-- MBIN (R240), sent by XCMD. -/
def execMbin (rd rs1 rs2 : Reg) (mark : Bool) (s : State) : Host.Outcome State Fault Refusal :=
  s.xcmd (.mbin rd rs1 rs2 mark) 0 3 false rd rs1 rs2 mark

/-- MZERO (R231), sent by XCMD. -/
def execMzero (rd rs1 rs2 : Reg) (mark : Bool) (s : State) : Host.Outcome State Fault Refusal :=
  s.xcmd (.mzero rd rs1 rs2 mark) 0 4 true rd rs1 rs2 mark

/-- MLDA (R242), sent by XCMD. -/
def execMlda (rd rs1 rs2 : Reg) (mark : Bool) (s : State) : Host.Outcome State Fault Refusal :=
  s.xcmd (.mlda rd rs1 rs2 mark) 0 5 false rd rs1 rs2 mark

/-- MSTA (R242), sent by XCMD. -/
def execMsta (rd rs1 rs2 : Reg) (mark : Bool) (s : State) : Host.Outcome State Fault Refusal :=
  s.xcmd (.msta rd rs1 rs2 mark) 0 6 false rd rs1 rs2 mark

/-- TCFG (R229), sent by XCMD. -/
def execTcfg (rd rs1 rs2 : Reg) (mark : Bool) (s : State) : Host.Outcome State Fault Refusal :=
  s.xcmd (.tcfg rd rs1 rs2 mark) 0 7 false rd rs1 rs2 mark

/-- TREL (R230), sent by XCMD. -/
def execTrel (rd rs1 rs2 : Reg) (mark : Bool) (s : State) : Host.Outcome State Fault Refusal :=
  s.xcmd (.trel rd rs1 rs2 mark) 0 8 false rd rs1 rs2 mark

/-- MTEAM (R247), sent by XCMD. -/
def execMteam (rd rs1 rs2 : Reg) (mark : Bool) (s : State) : Host.Outcome State Fault Refusal :=
  s.xcmd (.mteam rd rs1 rs2 mark) 0 9 false rd rs1 rs2 mark

/-- COPY1 (R222), sent by XCMD. -/
def execCopy1 (rd rs1 rs2 : Reg) (mark : Bool) (s : State) : Host.Outcome State Fault Refusal :=
  s.xcmd (.copy1 rd rs1 rs2 mark) 1 0 false rd rs1 rs2 mark

/-- COPY2 (R222), sent by XCMD. -/
def execCopy2 (rd rs1 rs2 : Reg) (mark : Bool) (s : State) : Host.Outcome State Fault Refusal :=
  s.xcmd (.copy2 rd rs1 rs2 mark) 1 1 false rd rs1 rs2 mark

/-- COPYX (R222), sent by XCMD. -/
def execCopyx (rd rs1 rs2 : Reg) (mark : Bool) (s : State) : Host.Outcome State Fault Refusal :=
  s.xcmd (.copyx rd rs1 rs2 mark) 1 2 false rd rs1 rs2 mark

/-- CFILL (R222), sent by XCMD. -/
def execCfill (rd rs1 rs2 : Reg) (mark : Bool) (s : State) : Host.Outcome State Fault Refusal :=
  s.xcmd (.cfill rd rs1 rs2 mark) 1 3 false rd rs1 rs2 mark

/-- QNT8 (R223), sent by XCMD. -/
def execQnt8 (rd rs1 rs2 : Reg) (mark : Bool) (s : State) : Host.Outcome State Fault Refusal :=
  s.xcmd (.qnt8 rd rs1 rs2 mark) 2 0 false rd rs1 rs2 mark

/-- QS2P (R223), sent by XCMD. -/
def execQs2p (rd rs1 rs2 : Reg) (mark : Bool) (s : State) : Host.Outcome State Fault Refusal :=
  s.xcmd (.qs2p rd rs1 rs2 mark) 2 1 false rd rs1 rs2 mark

/-- DQNT (R223), sent by XCMD. -/
def execDqnt (rd rs1 rs2 : Reg) (mark : Bool) (s : State) : Host.Outcome State Fault Refusal :=
  s.xcmd (.dqnt rd rs1 rs2 mark) 2 2 false rd rs1 rs2 mark

/-- CRED (R224), sent by XCMD. -/
def execCred (rd rs1 rs2 : Reg) (mark : Bool) (s : State) : Host.Outcome State Fault Refusal :=
  s.xcmd (.cred rd rs1 rs2 mark) 3 0 false rd rs1 rs2 mark

/-- CBCAST (R224), sent by XCMD. -/
def execCbcast (rd rs1 rs2 : Reg) (mark : Bool) (s : State) : Host.Outcome State Fault Refusal :=
  s.xcmd (.cbcast rd rs1 rs2 mark) 3 1 false rd rs1 rs2 mark

/-- CAGATH (R224), sent by XCMD. -/
def execCagath (rd rs1 rs2 : Reg) (mark : Bool) (s : State) : Host.Outcome State Fault Refusal :=
  s.xcmd (.cagath rd rs1 rs2 mark) 3 2 false rd rs1 rs2 mark

/-- SDCFG (R186), sent by XCMD. -/
def execSdcfg (rd rs1 rs2 : Reg) (mark : Bool) (s : State) : Host.Outcome State Fault Refusal :=
  s.xcmd (.sdcfg rd rs1 rs2 mark) 4 0 false rd rs1 rs2 mark

/-- SDRST (R188), sent by XCMD. -/
def execSdrst (rd rs1 rs2 : Reg) (mark : Bool) (s : State) : Host.Outcome State Fault Refusal :=
  s.xcmd (.sdrst rd rs1 rs2 mark) 4 1 true rd rs1 rs2 mark

/-! ## Start and work (R213 to R216) -/

/-- A collective with an earlier one on its communicator that is not Done: it completes after that one, unless E comes
first (R224, R215). -/
def State.heldBack (s : State) (c : Cmd) : Bool :=
  match c.eng with
  | .collective _ => c.code.isNone && decide (s.pt < c.deadline) &&
      (s.before c).any fun x => x.eng == c.eng && x.comm == c.comm && x.code != some 11
  | _ => false

/-- The kernel of a command is ending after a fault: no queued command of it starts (R287, R385). -/
def State.faulting (s : State) (c : Cmd) : Bool := (c.kernel.bind s.kern).any fun k => k.st == .faulting

/-- A queued command's turn in an engine that starts them in order (R213): a place is free, no earlier one of its class waits, and
no class-0 one where it is of another. -/
def State.turnComes (s : State) (c : Cmd) : Bool :=
  let mine := fun (x : Cmd) => x.id != c.id && x.eng == c.eng
  decide ((s.cmds.filter fun x => mine x && x.active).length < c.eng.parallel) &&
  !((s.before c).any fun x => mine x && x.st == .queued && x.cls == c.cls) &&
  (c.cls == 0 || !(s.cmds.any fun x => mine x && x.st == .queued && x.cls == 0))

/-- A queued command may start now (R213, R225); the stations start theirs themselves (R315). -/
def State.mayStart (s : State) (c : Cmd) : Bool :=
  match c.eng with
  | .matrix _ => s.matrixMayStart c && !s.faulting c
  | .stations => false
  | _ => s.turnComes c && !s.faulting c

/-- A command refused when it starts (R187, R188, R229). -/
def Cmd.refuse (c : Cmd) (d : Nat) : Cmd := { c with st := .completing, code := some 11, detail := d, spads := [] }

/-- The units of a command, none where it defines none (R215). -/
def State.cmdUnits (s : State) (c : Cmd) : Nat :=
  match c.eng with
  | .matrix _ => c.matrixUnits
  | .copy _ => c.copyUnits
  | .ladle _ => c.ladleUnits
  | .collective _ => s.collectiveUnits c
  | .sdu _ | .stations => 0

/-- A command leaves the queue (R214): TCFG, TREL and MZERO act at their start; the SDU's checks are made (R187, R188); a
compute command becomes the one mprog describes (R243). -/
def State.startCmd (s : State) (c : Cmd) : State :=
  let put := fun (s : State) (x : Cmd) => s.updCmd c.id fun _ => x
  let go := { c with st := .running }
  match c.eng with
  | .sdu v =>
    let u := s.sdu v
    let stop := if c.op = 0 then u.sdcfgCheck c.ctx c.body else if u.owner.isSome && u.owner != some c.ctx then some 4 else none
    match stop with
    | some d => put s (c.refuse d)
    | none => put s go
  | .matrix _ =>
    if c.op = 7 then
      match s.declareTiles c with
      | some s' => put s' { go with st := .completing }
      | none => put s (c.refuse 3)
    else if c.op = 8 then put (s.freeTiles c.accTiles) { go with st := .completing }
    else if c.op = 4 then put (s.zeroTiles c.accTiles) { go with st := .completing }
    else
      let s := if c.computes then s.updThr c.tid fun t => { t with mprogOf := some c.id } else s
      let go := if s.cmdUnits c = 0 then { go with st := .completing } else go
      put (s.noteProgress go false false) go
  | _ => put s (if s.cmdUnits c = 0 then { go with st := .completing } else go)

/-- SDCFG or SDRST once its ranges are quiet (R187, R188): the checks again, then the change. -/
def State.sduUnit (s : State) (c : Cmd) (v : Nat) : State :=
  let put := fun (s : State) (x : Cmd) => s.updCmd c.id fun _ => x
  let u := s.sdu v
  if c.op = 0 then
    if !s.rangeQuiet v (fieldOf (c.dw 1) 0 3) then s
    else match u.refuses c.ctx c.body with
      | some d => put s (c.refuse d)
      | none => put (s.updSdu v fun u => u.configure c.ctx c.body) { c with st := .completing }
  else
    let mask := fieldOf (c.dw 1) 0 8
    if !((bitList mask 8).all fun r => s.rangeQuiet v r) then s
    else if u.owner.isSome && u.owner != some c.ctx then put s (c.refuse 4)
    else put (s.updSdu v fun u => u.clear mask ((c.dw 1).getLsbD 8)) { c with st := .completing }

/-- One unit of a command's own work. -/
def State.oneUnit (s : State) (c : Cmd) : Except EngStop (State × Cmd) :=
  match c.eng with
  | .matrix _ => s.matrixUnit c
  | .copy _ => s.copyUnit c
  | .ladle _ => s.ladleUnit c
  | .collective _ => s.collectiveUnit c
  | .sdu _ | .stations => .ok (s, c)

/-- Up to `n` units of a running command (R215, R216): a translation not present pauses it and is reported, any other fault
ends its kernel, a locked line or full ring leaves it waiting; after its last unit it is Completing. -/
def State.runUnits (s : State) (id n : Nat) : Host.Outcome State Fault Refusal :=
  match n with
  | 0 => .next s
  | n + 1 =>
    match s.cmds.find? fun c => c.id == id && c.st == .running with
    | none => .next s
    | some c =>
      match s.oneUnit c with
      | .ok (s', c') =>
        let c' := if s'.cmdUnits c' ≤ c'.units then { c' with st := .completing } else c'
        (((s'.noteProgress c' false false).updCmd id fun x => if x.st = .running then c' else x)).runUnits id n
      | .error (.pause va) =>
        let c' := { c with st := .paused va }
        let s := if c.eng.no = 0 && c.computes then { s with locks := s.locks ++ s.sliceLocks c c.units } else s
        .next (State.report ((s.noteProgress c' true false).updCmd id fun _ => c') ⟨3, 1, c.v, 0, c.ctx, 0, w64 va, s.pt⟩)
      | .error (.fault va) => .next (s.engineFault c va false)
      | .error (.foreign va) => .next (s.engineFault c va true)
      | .error .locked => .next s
      | .error (.device pa) => .fault (.deviceWindow pa)

/-- The vcores whose unit a command works on: a Ladle is its cluster's (R223). -/
def Cmd.units_ (c : Cmd) : List Nat :=
  match c.eng with
  | .ladle k => (List.range 16).map fun i => 16 * k + i
  | _ => c.members

/-- The power-gated engines a command works on wake (R351). -/
def State.wakeUnit (s : State) (c : Cmd) : State :=
  c.units_.foldl (fun s v =>
    if (s.vc v).powerGated.contains (c.eng.no + 1) then
      s.updVc v fun x => { x with powerGated := setErase x.powerGated (c.eng.no + 1) }
    else s) s

/-- COMMAND_START (R214): a queued command starts where the order and its deadline allow; a running one does up to `n` of its
units. A command of a moving vcore waits (R306). -/
def execCommandStart (id n : Nat) (s : State) : Host.Outcome State Fault Refusal :=
  match s.cmds.find? fun c => c.id == id with
  | none => .next s
  | some c =>
    if s.stalled || (c.members.any fun v => s.vcoreMoving v) || c.deadline < s.pt || !s.detGate c.ctx (s.cmdKey c) then .next s
    else match c.st with
      | .queued => if s.mayStart c then .next ((s.wakeUnit c).startCmd c) else .next s
      | .running => match c.eng with
        | .sdu v => .next (s.sduUnit c v)
        | .stations => .next s
        | _ => s.runUnits id n
      | .paused _ | .completing => .next s

/-- COMMAND_DEADLINE (R215): at E a command that is not finished stops with TIMEOUT; the stations use no deadline (R315). -/
def execCommandDeadline (id : Nat) (s : State) : Host.Outcome State Fault Refusal :=
  match s.cmds.find? fun c => c.id == id with
  | some c => if c.deadline ≤ s.pt && c.st != .completing && c.eng != .stations then .next (s.stopCmd c 1) else .next s
  | none => .next s

/-! ## Completion (R217) -/

/-- A command is Done (R214): its entry is free, the reply leaves, and fences see it. -/
def State.endCmd (s : State) (c : Cmd) : State :=
  let old := s
  let s := s.unlock fun l => l.2.1 == c.id
  let s := { s with cmds := s.cmds.filter fun x => x.id != c.id }
  let s : State := match c.reg with
    | some r => { s with replies := s.replies ++ [Reply.mk c.id c.tid r (status c.endCode c.endDetail c.aux)] }
    | none => s
  s.seeFences old

/-- The status word a collective writes at STATUSA (R224). -/
def State.statusWrite (s : State) (c : Cmd) : Except EngStop State :=
  match c.eng with
  | .collective _ =>
    if c.dw 4 = 0 || c.code = some 11 then .ok s
    else s.engWrite c (c.dw 4).toNat ((bytesOf (status c.endCode c.endDetail c.aux).toNat 8).map fun b => (b, false))
  | _ => .ok s

/-- The completion add (R217): none for REFUSED or INC 0. Its page needs E and W (R311). -/
def State.completionAdd (s : State) (c : Cmd) : Except EngStop State :=
  if c.code = some 11 || c.inc = 0 then .ok s
  else match s.engLocs c c.counterVa 8 .ewrite with
    | .error x => .error x
    | .ok ls =>
      let loc := ls.headD 0
      if s.bad loc 8 then .error (.fault c.counterVa)
      else .ok ((s.engTouch c c.counterVa 8 .ewrite).machineAdd c.id c.kernel c.ctx c.v c.logical loc c.counterVa c.inc)

/-- The completion add of a command follows its writes to the same vcore, where all of them are held (R307, R400). -/
def State.addFollows (s : State) (c : Cmd) : Bool :=
  c.code != some 11 && c.inc != 0 && match s.engLoc c c.counterVa .ewrite with
    | .ok loc => s.heldWith c.id loc
    | .error _ => false

/-- COMMAND_COMPLETION (R217): once the command's writes are performed, the status word, the completion add, and, when that too is
performed, the reply. R224 leaves the order of the status word and the add open, and R218 what E or a kill does to a command
whose CTRA or STATUSA does not translate: the word goes first, and the command waits for the pager without a bound: DESIGN
CHOICE (log 38). Any other failure ends the kernel and the add is not made (R216). -/
def execCommandCompletion (id : Nat) (s : State) : Host.Outcome State Fault Refusal :=
  match s.cmds.find? fun c => c.id == id with
  | none => .next s
  | some c =>
    if c.st ≠ .completing || (s.writesHeld c && (c.added || !s.addFollows c)) || s.heldBack c || !s.detGate c.ctx (s.cmdKey c) then
      .next s
    else if c.added then .next (s.endCmd c)
    else
      let r : Except EngStop State := match s.statusWrite c with
        | .error x => .error x
        | .ok s' => s'.completionAdd c
      match r with
      | .ok s' => .next (if s'.writesHeld c then s'.updCmd id fun c => { c with added := true } else s'.endCmd c)
      | .error (.pause va) =>
        if c.told then .next s
        else .next (State.report (s.updCmd id fun c => { c with told := true }) ⟨3, 1, c.v, 0, c.ctx, 0, w64 va, s.pt⟩)
      | .error .locked => .next s
      | .error (.device pa) => .fault (.deviceWindow pa)
      | .error (.fault va) => .next ((s.engineFault c va false).endCmd c)
      | .error (.foreign va) => .next ((s.engineFault c va true).endCmd c)

end Sys2Proof.Machine
end

