-- ==== Sys2Proof/Machine/Stations.lean ====
section
/-!
DEFINITION. Sys2Proof/Machine/Stations.lean: the stations' own commands and walks (18_pages R312 to R319).
-/
namespace Sys2Proof.Machine

/-- CTX, and whether an address lies in the range of a SHOOT or WAKE (R315). -/
def Cmd.pageCtx (c : Cmd) : Nat := fieldOf (c.dw 2) 32 6
def Cmd.covers (c : Cmd) (va n : Nat) : Bool :=
  (c.dw 2).getLsbD 38 ||
  (decide (va < (c.dw 1).toNat + fieldOf (c.dw 2) 0 32 * 65536) && decide ((c.dw 1).toNat < va + n))

/-- PAGE_WALK (R311, R312): a station walks a context's table; what R311 lets through is cached, nothing else. -/
def execPageWalk (st ctx va : Nat) (acc : Access) (s : State) : Host.Outcome State Fault Refusal :=
  .next (s.fillTlb st ctx va acc)

/-- A station command that runs, or whose turn has come to start (R213). -/
def State.stationCmd (s : State) (id op : Nat) : Option Cmd :=
  s.cmds.find? fun c =>
    c.id == id && c.eng == .stations && c.op == op && (c.st == .running || (c.st == .queued && s.turnComes c))

/-- A Sprue lock a paused command of the context holds on the range (R316 step 3), by the address it was fetched at. -/
def State.shotLock (s : State) (c : Cmd) (l : Nat × Nat × Nat) : Bool :=
  c.covers l.2.2 64 && s.cmds.any fun x => x.id == l.2.1 && x.ctx == c.pageCtx && match x.st with
    | .paused _ => true
    | _ => false

/-- Steps 1 to 3 of SHOOT (R316): translations, L1 lines and locks of paused commands dropped. The command keeps, in place of
the deadline it does not use (R315), the first identity given afterwards: the stores it waits for are older. -/
def State.shootDrop (s : State) (c : Cmd) : State :=
  let s := State.unlock { s with
    tlb := s.tlb.filter fun e => !(e.ctx == c.pageCtx && c.covers e.va e.size)
    l1 := s.l1.filter fun l => !(l.ctx == c.pageCtx && c.covers (l.va * 64) 64) } (s.shotLock c)
  let s := { s with nextId := s.nextId + 1 }
  s.updCmd c.id fun c => { c with st := .running, deadline := s.nextId }

/-- A store of the context on the range that its station pinned before an identity was given, and that has not been performed:
accepted, or still presented (R132, R316). -/
def State.pinnedBefore (s : State) (c : Cmd) (mark : Nat) : Bool :=
  (s.storeBuf.any fun p => p.ctx == c.pageCtx && c.covers p.va p.size && decide (p.pinned < mark)) ||
  s.threads.any fun e => e.2.ctx == c.pageCtx && match e.2.block with
    | h :: _ => match h.phase with
      | .presented p => decide (p.mark < mark) && h.stores.zipIdx.any fun x => (p.pins.getD x.2 none).isSome && c.covers x.1.va x.1.size
      | _ => false
    | [] => false

/-- SHOOT (R316): the drop, then its completion once every accepted store of the range has been performed. -/
def execShoot (id : Nat) (s : State) : Host.Outcome State Fault Refusal :=
  match s.stationCmd id 0 with
  | none => .next s
  | some c =>
    if c.st = .queued then .next (s.shootDrop c)
    else if s.pinnedBefore c c.deadline then .next s
    else .next (s.updCmd id fun c => { c with st := .completing })

/-- WAKE (R277, R317): every paused command of the context whose faulting page lies in the range runs again, and a queue
processor tries its translation again. -/
def execWake (id : Nat) (s : State) : Host.Outcome State Fault Refusal :=
  match s.stationCmd id 1 with
  | none => .next s
  | some c =>
    let hit := s.cmds.filter fun x => x.ctx == c.pageCtx && match x.st with
      | .paused va => c.covers (va / 65536 * 65536) 65536
      | _ => false
    let s := hit.foldl (fun s x => (s.updCmd x.id fun x => { x with st := .running }).noteProgress x false false) s
    let again := fun (q : Queue) => match q.told with
      | some va => if fieldOf (q.desc.getD 4 0) 4 6 = c.pageCtx && c.covers (va / 65536 * 65536) 65536 then { q with told := none } else q
      | none => q
    let s := { s with queues := s.queues.map fun (e : Nat × Queue) => (e.1, again e.2) }
    .next (s.updCmd id fun c => { c with st := .completing })

/-- The line a line of FROM becomes (R318). -/
def Cmd.movedLoc (c : Cmd) (loc : Nat) : Nat :=
  let a := (c.dw 3).toNat
  if a ≤ loc && loc < a + fieldOf (c.dw 2) 0 32 * 65536 then loc - a + (c.dw 4).toNat else loc

/-- A thread's registrations moved to the new frame (R318). -/
def Thread.moveRegs (t : Thread) (f : Nat → Nat) : Thread :=
  let t := t.mapWaits fun w => match w.kind with
    | .counter l va x => { w with kind := .counter (f l) va x }
    | .word l va x => { w with kind := .word (f l) va x }
    | _ => w
  { t with mon := t.mon.map fun m => match m with
      | .free => .free
      | .quiet l va => .quiet (f (l * 64) / 64) va
      | .written l va => .written (f (l * 64) / 64) va
      | .lost l va => .lost (f (l * 64) / 64) va }

/-- The monitor registrations a MOVE brings to another filter: thread, entry, and the location it watches then. -/
def State.movedMonitors (s : State) (c : Cmd) : List (Nat × Nat × Nat) :=
  s.threads.flatMap fun e => (List.range 4).filterMap fun n => match e.2.mon.getD n .free with
    | .quiet l _ | .written l _ =>
      if filterOf (c.movedLoc (l * 64)) = filterOf (l * 64) then none else some (e.1, n, c.movedLoc (l * 64))
    | _ => none

/-- One registration too many in the filter of a location evicts one that was there before (R157). -/
def State.evictOld (s : State) (new : List (Nat × Nat × Nat)) (loc : Nat) : State :=
  let rs := s.registrations (filterOf loc)
  if rs.length ≤ 16384 then s
  else
    let old := rs.filter fun r => !(new.any fun x => x.1 == r.1 && x.2.1 == r.2)
    let s' := { s with free := s.free + 1 }
    match old[Config.evictPick s.free]? with
    | some r => s'.evict r.1 r.2
    | none => s'

/-- MOVE (R318): wait and monitor registrations of FROM go to the same offsets in TO, subject to R157 there. -/
def execMove (id : Nat) (s : State) : Host.Outcome State Fault Refusal :=
  match s.stationCmd id 2 with
  | none => .next s
  | some c =>
    let new := s.movedMonitors c
    let s := s.mapThr fun _ t => t.moveRegs c.movedLoc
    let s := new.foldl (fun s x => s.evictOld new x.2.2) s
    let s := { s with queues := s.queues.map fun (e : Nat × Queue) => (e.1, { e.2 with preLoc := e.2.preLoc.map c.movedLoc }) }
    .next (s.updCmd id fun c => { c with st := .completing })

end Sys2Proof.Machine
end

