-- ==== Sys2Proof/Machine/Kernels.lean ====
section
/-!
DEFINITION. Sys2Proof/Machine/Kernels.lean: threads as they start, SPAWN and the light-thread pool, EXIT, and the end sequence
(16_kernels R280 to R289).
-/
namespace Sys2Proof.Machine

/-! ## Packets and shares (R275, R283) -/

/-- A field of a launch packet (R275). -/
def pkField (p : List Word) (dw lo w : Nat) : Nat := fieldOf (p.getD dw 0) lo w
def pkClass (p : List Word) : Nat := pkField p 0 32 2
def pkDies (p : List Word) : Nat := pkField p 0 48 16
def pkImage (p : List Word) : Nat := (p.getD 1 0).toNat
def pkLength (p : List Word) : Nat := pkField p 2 0 16
def pkThreads (p : List Word) : Nat := pkField p 2 16 16
def pkPerCore (p : List Word) : Nat := pkField p 2 32 3
def pkTcm (p : List Word) : Nat := pkField p 2 35 8 * 1024
def pkSpad (p : List Word) : Nat := pkField p 2 43 11
def pkPre (p : List Word) : Nat := (p.getD 3 0).toNat
def pkDone (p : List Word) : Nat := (p.getD 5 0).toNat
def pkInc (p : List Word) : Nat := pkField p 7 0 32

/-- A size rounded up to 1 KiB (R283). -/
def toKib (n : Nat) : Nat := (n + 1023) / 1024 * 1024

/-! ## Threads as they start (R284, R286) -/

/-- A thread at the start of its first block: registers 0 but those given, every empty bit clear, the CSRs at their reset
values, wceil and tmolim from its context (R62, R78, R79, R290, R294, R296). -/
def State.freshThread (s : State) (v sl ctx cls : Nat) (kernel : Option Nat) (light follow : Bool) (pc : Word)
    (args : List (Nat × Word)) : Thread :=
  let n := if light then 16 else 32
  { place := .slot v sl, run := .ready, shed := false, light := light, ctx := ctx, cls := cls, kernel := kernel
    follow := follow, pc := pc, x := (List.range n).map fun i => (mapGet? args i).getD 0
    v := if light then [] else List.replicate 32 0, m := if light then [] else List.replicate 8 0
    sup := ctx == 0, level := 0, vflags := 0, lutb := 0, mfmt := 0, mscl := 0, mprog := 0, mprogOf := none, sdcnt := 0
    sbstat := 0, rdrop := 0, tmocnt := 0, tmolim := w64 (s.ctxTmolim ctx), wceil := w64 (s.ctxCeil ctx), tvec := 0x2000000
    bank0 := ⟨0, 0, 0, 0⟩, bank1 := ⟨0, 0, 0, 0⟩, empty := List.replicate n none, winCount := 0, winIdx := s.pt / 1000000
    block := [], issued := 0, walking := false, snap := [], wait := none, susp := [], mon := List.replicate 4 .free
    moveSpur := false, streams := List.replicate 8 none, logical := 0, bpIgnore := none, preempt := false, migrate := none
    migrating := false, shedReq := if s.classShed cls then some s.pt else none, parkedAt := s.pt, reportedA := false, reportedB := false, stale := []
    saved := none, pcoreAt := s.pcore v, escDue := none, issuedAt := 0, hwAc := 0, hw := [], followTo := none, image := [], fences := [] }

/-- A thread put into a slot, under a fresh identity. -/
def State.startThread (s : State) (t : Thread) : State :=
  ({ s with nextId := s.nextId + 1 } : State).setThr s.nextId t

/-! ## SPAWN and the pool (R285, R286) -/

/-- The pool of a die has a Free entry (R286). -/
def State.poolRoom (s : State) (die : Nat) : Bool := decide ((s.pool die).length < 4096)

/-- An entry taken for a SPAWN (R285): it waits in its issuer's die's pool. -/
def State.spawnNow (s : State) (t : Thread) (flags arg : Word) : State :=
  let die := dieOf t.vcore
  s.setPool die (s.pool die ++
    [⟨fieldOf flags 0 32, arg, fieldOf flags 32 1 == 1, fieldOf flags 33 2, t.kernel, t.vcore, t.ctx⟩])

/-- AUX of a SPAWN that took an entry (R285): the Waiting entries, the new one among them. -/
def State.spawnAux (s : State) (t : Thread) : Nat := min ((s.pool (dieOf t.vcore)).length + 1) 65535

/-- ENTRY lies in the share of the issuer's kernel on its core (R285). -/
def State.entryInShare (s : State) (t : Thread) (entry : Nat) : Bool :=
  match (t.kernel.bind s.kern).bind fun k => k.cores.find? fun c => c.v == t.vcore with
  | some c => decide (0x2000000 ≤ entry) && decide (entry + 4 ≤ 0x2000000 + c.istSize)
  | none => false

/-- SPAWN (R285). -/
def execSpawn (rd rs1 rs2 rs3 : Reg) (mark : Bool) (s : State) : Host.Outcome State Fault Refusal :=
  s.threadOp (.spawn rd rs1 rs2 rs3 mark) (waitForm [rs1, rs2, rs3] [rd] mark) (deferBody [rs1, rs2, rs3]) fun s tid t e =>
    let f := e.op 0
    let w := s.newWait t (.spawn f (e.op 1)) rd (e.op 2)
    if fieldOf f 35 29 ≠ 0 || fieldOf f 0 32 % 4 ≠ 0 || !s.entryInShare t (fieldOf f 0 32) then
      s.refuseWait tid t e .light rd (e.op 2) 11 1
    else if fieldOf f 33 2 < t.cls || !s.permits t.ctx (fieldOf f 33 2) then s.refuseWait tid t e .light rd (e.op 2) 11 2
    else if s.poolRoom (dieOf t.vcore) then
      (s.spawnNow t f (e.op 1)).endWait tid e w ⟨s.pt, 0, 0, s.spawnAux t, 0⟩
    else if w.deadline ≤ s.pt then s.endWait tid e w ⟨s.pt, 4, 1, 0, 0⟩
    else s.parkWait tid w

/-- A kernel with a thread again is Running (R280). -/
def State.runKernel (s : State) (k : Option Nat) : State :=
  match k with
  | some k => s.updKern k fun kn => if kn.st = .draining then { kn with st := .running } else kn
  | none => s

/-- POOL_DISPATCH (R286): the entry is Free, and a light thread starts at ENTRY with x10 the argument. -/
def execPoolDispatch (die : Nat) (s : State) : Host.Outcome State Fault Refusal :=
  match s.poolNext die with
  | none => .next s
  | some (i, e, v, sl) =>
    let s := s.setPool die ((s.pool die).eraseIdx i)
    .next ((s.runKernel e.kernel).startThread (s.freshThread v sl e.ctx e.cls e.kernel true e.follow (w64 e.entry) [(10, e.arg)]))

/-! ## EXIT (R289) and the states of a kernel (R280) -/

/-- Some thread of a kernel is left, in a slot, a bank or a record. -/
def State.hasThreads (s : State) (k : Nat) : Bool := s.threads.any fun e => e.2.kernel == some k

/-- Some pool entry or engine command of a kernel is left (R288). -/
def State.hasWork (s : State) (k : Nat) : Bool :=
  (s.pools.any fun e => e.2.any fun p => p.kernel == some k) || s.cmds.any fun c => c.kernel == some k

/-- A running kernel whose last thread has gone is Draining, or Ending where no work of it is left (R280). -/
def State.drainKernel (s : State) (k : Option Nat) : State :=
  match k with
  | some k =>
    if s.hasThreads k then s
    else s.updKern k fun kn => if kn.st = .running then { kn with st := if s.hasWork k then .draining else .ending } else kn
  | none => s

/-- A thread ends (R64, R257, R289): it leaves its groups, its monitor entries and stream context are free, its slot is
Empty. -/
def State.endThread (s : State) (tid : Nat) : State :=
  match s.thr tid with
  | none => s
  | some t =>
    let s := (s.leaveAll tid).dropThr tid
    if t.placed then s.updVc t.vcore fun c => { c with resident := c.resident.filter fun x => x != t.slot } else s

/-- EXIT (R289). Appends of its streams are accepted first, as its stores are. -/
def execExit (rs1 : Reg) (mark : Bool) (s : State) : Host.Outcome State Fault Refusal :=
  s.threadOp (.exit rs1 mark) (deferredForm [rs1] [] mark) (deferBody [rs1]) fun s tid t e =>
    if t.buffered then s
    else
      let s := s.traceRecord 2 t.vcore t.slot t.ctx (fieldOf (e.op 0) 0 32)
      (s.endThread tid).drainKernel t.kernel

/-! ## The end sequence (R287) -/

/-- Every thread of a kind ends: slots and banks are Empty, save records discarded, without barriers completing, since their
groups go with them. -/
def State.dropThreads (s : State) (p : Nat → Thread → Bool) : State :=
  let gone := s.threads.filter fun e => p e.1 e.2
  let s := { s with threads := s.threads.filter fun e => !p e.1 e.2 }
  gone.foldl (fun s e => match e.2.place with
    | .slot v sl => s.updVc v fun c => { c with resident := c.resident.filter fun x => x != sl }
    | .bank v sl => s.updVc v fun c => { c with banks := c.banks.set sl .empty }
    | .record _ _ _ => { s with vcores := s.vcores.map fun (x : Nat × VCore) =>
        (x.1, { x.2 with banks := x.2.banks.map fun b => match b with
          | .filling tid _ => if tid = e.1 then .empty else b
          | b => b }) }) s

/-- Steps 1 to 3 of the end of a kernel (R287): its slots, pool entries, commands and groups. -/
def State.clearKernel (s : State) (k : Nat) : State :=
  let s := s.dropThreads fun _ t => t.kernel == some k
  let s := { s with pools := s.pools.map fun (e : Nat × List PoolEntry) => (e.1, e.2.filter fun p => p.kernel != some k) }
  (s.abortCmds fun c => c.kernel == some k).freeKernelGroups fun g => g.kernel == some k

/-- KERNEL_END_SEQUENCE (R287): after a program fault; its status is that of the first fault. -/
def execKernelEndSequence (kid : Nat) (s : State) : Host.Outcome State Fault Refusal :=
  match s.kern kid with
  | some kn => if kn.st = .faulting then .next ((s.clearKernel kid).updKern kid fun kn => { kn with st := .ending }) else .next s
  | none => .next s

end Sys2Proof.Machine
end

