-- ==== Sys2Proof/Machine/Waits.lean ====
section
/-!
DEFINITION. Sys2Proof/Machine/Waits.lean: how a parked wait is decided, returns, and expires (06_time_and_deadlines R105 to
R108).
-/
namespace Sys2Proof.Machine

/-- A verdict given to the wait of one order of registration. -/
def State.giveVerdict (s : State) (tid order : Nat) (v : Verdict) : State :=
  s.updThr tid fun t => t.mapWaits fun w => if w.order = order then { w with verdict := some v } else w

/-- A wait looked at now (R105): met at or before E, it takes what it waited for, and its verdict says whether its thread was
there (R107). Waits whose homes see every change are decided there, with the write or the completion that meets them; the home
of another package sees a wait once its registration has left (R325). -/
def State.decideWait (s : State) (tid : Nat) (w : PWait) : State :=
  match s.thr tid with
  | none => s
  | some t =>
    if w.verdict.isSome || w.deadline < s.pt then s else
    match w.kind with
    | .fence _ _ _ _ _ | .ifence _ =>
      match s.fenceVerdict tid t w with
      | some v => s.giveVerdict tid w.order v
      | none => s
    | .spawn flags arg =>
      if s.poolRoom (dieOf t.vcore) && s.detGate t.ctx t.detKey then
        (s.spawnNow t flags arg).giveVerdict tid w.order (s.success t (s.spawnAux t) 0)
      else s
    | .ttake n =>
      if (!s.owned.contains n || s.tileIdle n) && s.detGate t.ctx t.detKey then (s.takeTile n).giveVerdict tid w.order (s.success t 0 0) else s
    | .place _ body v eng _ _ _ =>
      if s.roomFor body v eng && s.detGate t.ctx t.detKey then
        (s.acceptWait tid t w).giveVerdict tid w.order (s.success t 0 (w64 s.nextId))
      else s
    | .counter loc _ _ | .word loc _ _ =>
      match (if isRemote loc && !s.unsent tid loc then s.testWait t w else none) with
      | some v => s.giveVerdict tid w.order v
      | none => s
    | .recv v _ => s.giveReceiver v
    | .barrier _ _ _ | .monitor | .evstep _ _ _ | .reply _ | .stream _ | .light => s

/-- A pool, a tile, a queue or an inbox whose waiters ask for room or a packet (R105): it has no list of them of its own here, and
in DET one may have to wait its turn (R364). -/
def WaitKind.wantsRoom (k : WaitKind) : Bool :=
  match k with
  | .spawn _ _ | .ttake _ | .place _ _ _ _ _ _ _ | .recv _ _ => true
  | _ => false

/-- A thread's wait put into a list by its order of registration. -/
def byOrder (l : List (Nat × PWait)) (x : Nat × PWait) : List (Nat × PWait) :=
  match l with
  | [] => [x]
  | y :: r => if x.2.order < y.2.order then x :: y :: r else y :: byOrder r x

/-- The waits for room that have no verdict yet, first registered first. -/
def State.roomWaits (s : State) : List (Nat × PWait) :=
  (s.threads.flatMap fun e =>
    (e.2.allWaits.filter fun w => w.verdict.isNone && w.kind.wantsRoom).map fun w => (e.1, w)).foldl byOrder []

/-- Every wait for room decided where its pool, tile or queue has some, its thread in its slot or out (R105, R107): done before
package time goes on, so that none met at or before E is lost. -/
def State.seeRoom (s : State) : State := s.roomWaits.foldl (fun s x => s.decideWait x.1 x.2) s

/-- A migration due takes the thread out of its barrier wait before the status is written (R271). -/
def State.migratesOut (s : State) (t : Thread) (w : PWait) : Bool :=
  match t.migrate, w.kind with
  | some (_, from_, false), .barrier _ _ _ => decide (from_ ≤ s.pt)
  | _, _ => false

/-- The return of the pending wait once it is decided (R105 to R107): its thread is in its slot and not shed, nor is it taken out
first (R271). -/
def State.returnWait (s : State) (tid : Nat) : State :=
  match s.thr tid with
  | none => s
  | some t =>
    if t.run ≠ .wait || t.absent ≠ 0 || !t.walking then s else
    match t.wait, t.block with
    | some w, e :: _ =>
      match w.verdict with
      | none => s
      | some v =>
        if s.migratesOut t w then s else
        match w.kind with
        | .monitor => s.endMonitor tid t e w v
        | .ifence _ => s.endIfence tid e w v
        | .place _ _ _ _ _ _ _ => if v.code = 4 then s.placeFull tid e w else s.placeDone tid e w v
        | _ => s.endWait tid e w v
    | _, _ => s

/-- WAIT_CONDITION_MET (R105, R107): the thread's waits are looked at, and the decided one returns OK or LATE. -/
def execWaitConditionMet (tid : Nat) (s : State) : Host.Outcome State Fault Refusal :=
  match s.thr tid with
  | none => .next s
  | some t => .next ((t.allWaits.foldl (fun s w => s.decideWait tid w) s).returnWait tid)

/-- WAIT_DEADLINE_EXPIRY (R105, R106, R269): at E an unmet wait performs its withdrawal and returns TIMEOUT, or what its
instruction gives in its place. -/
def execWaitDeadlineExpiry (tid : Nat) (s : State) : Host.Outcome State Fault Refusal :=
  .next ((s.expireThread tid).returnWait tid)

/-! ## Points at which a thread leaves or returns (R72, R107, R111) -/

/-- The thread is at a point of R72: at a block boundary, or parked in the walk on the last instruction of its block; a park on a
stream register is none (R179), and from one on an empty reply register it goes back to the boundary its block began at (log
38). -/
def Thread.atPoint (t : Thread) : Bool :=
  t.placed && !t.shed &&
  match t.run with
  | .ready => t.block.isEmpty && t.issued == 0
  | .block => false
  | .wait => t.wait.any fun w => match w.kind with
    | .stream _ => false
    | .reply _ => !t.walking
    | _ => if t.walking then t.block.length == 1 else t.block.isEmpty && t.issued == 0

/-- The thread leaves its slot (R107, R181): expired waits are decided, stream contexts drained, the timer stopped. -/
def State.leaveSlot (s : State) (tid : Nat) : State :=
  ((s.expireThread tid).drainStreams tid).updThr tid fun t => t.flipTimer s.pt

/-- The thread is back in a slot (R107, R157, R290): waits that expired while it was out are decided first; wceil is read
again; on another physical core a move SPUR is pending. A thread of a shed class is shed again, in a group at its next completion
or 1 ms after the decision (R259, R341). No record is kept for each
arming: every move makes one pending SPUR, and with an eviction one arming can see two (R157, log 38). -/
def State.returnTo (s : State) (tid v sl : Nat) : State :=
  let s := (s.expireThread tid).updThr tid fun t =>
    { t.flipTimer s.pt with
      place := .slot v sl, migrating := false, wceil := w64 (s.ctxCeil t.ctx)
      moveSpur := t.moveSpur || t.pcoreAt != s.pcore v, pcoreAt := s.pcore v
      shedReq := if !s.classShed t.cls then none else if (s.groupsOf tid).isEmpty then some s.pt else
        some (s.power.shedAt.getD t.cls 0 + 1000000) }
  (s.updThr tid s.monWait).dropL1 v

end Sys2Proof.Machine
end

