-- ==== Sys2Proof/Machine/Queues.lean ====
section
/-!
DEFINITION. Sys2Proof/Machine/Queues.lean: queues, launch packets, placement, loading and the end of an entry (15_queues R273
to R279, 16_kernels R280 to R284, R288, 07_memory_model R139).
-/
namespace Sys2Proof.Machine

/-! ## Descriptors and the queue processor's accesses (R273) -/

def Queue.dw (q : Queue) (n : Nat) : Nat := (q.desc.getD n 0).toNat
/-- 2^LDEPTH (R273). -/
def Queue.size (q : Queue) : Nat := 2 ^ bitsOf (q.dw 4) 0 4
def Queue.ctx (q : Queue) : Nat := bitsOf (q.dw 4) 4 6
def Queue.clmin (q : Queue) : Nat := bitsOf (q.dw 4) 10 2
/-- STALEDL in ns, 0 meaning 100,000 (R273). -/
def Queue.staleNs (q : Queue) : Nat := if bitsOf (q.dw 5) 0 32 = 0 then 100000 else bitsOf (q.dw 5) 0 32
/-- The address of the slot of the next packet (R273). -/
def Queue.slotVa (q : Queue) : Nat := q.dw 0 + q.taken % q.size * 64
/-- The number of the packet in Holding. -/
def Queue.heldNo (q : Queue) : Nat := q.taken - 1

/-- The key of a queue. -/
def queueKey (io q : Nat) : Nat := io * 64 + q
def State.queue (s : State) (io q : Nat) : Option Queue := mapGet? s.queues (queueKey io q)
def State.setQueue (s : State) (io q : Nat) (x : Queue) : State := { s with queues := mapSet s.queues (queueKey io q) x }
def State.updQueue (s : State) (io q : Nat) (f : Queue → Queue) : State :=
  match s.queue io q with
  | some x => s.setQueue io q (f x)
  | none => s

/-- An access of a queue processor for a context (R273, R311): in translated or fabric memory, and by its own IO die's routes
(R327). -/
def State.qpPlace (s : State) (io ctx va n : Nat) (acc : Access) (detail : Nat) : Except Trap Nat :=
  match misaligned va n with
  | some x => .error x
  | none =>
    if 0x10000000 ≤ va && va < 0x10000000000000 then
      inboxCheck (s.offCore ⟨1024 * io, ctx, ctx == 0, none, false⟩ (ioStation io false) va n acc detail) va
    else .error ⟨18, 1, w64 va⟩

/-- The station of the queue processor keeps a translation it used (R312). -/
def State.qpTouch (s : State) (io ctx va : Nat) (acc : Access) : State :=
  if inFabric va then s else s.fillTlb (ioStation io false) ctx va acc

/-- The report of a translation not present (R277, R293). -/
def State.qpReport (s : State) (ctx va : Nat) : State := State.report s ⟨3, 1, 0, 0, ctx, 0, w64 va, s.pt⟩

/-- A line a queue processor reads fails its check value there or on its way (R331, R332); `pick` says so. -/
def State.qpBad (s : State) (loc n : Nat) : Bool := s.bad loc n || s.pick == 2

/-- Where a queue processor's read goes; the target of another package's line may refuse it as a PTE would (R328). -/
def State.qpReadLoc (s : State) (io ctx va n : Nat) (acc : Access) : Except Trap Nat :=
  match s.qpPlace io ctx va n acc 0 with
  | .error x => .error x
  | .ok loc => if s.refusedThere loc then .error ⟨18, 4, w64 va⟩ else .ok loc

/-- The published count, where it can be read (R276). -/
def State.published (s : State) (io : Nat) (q : Queue) : Option Nat :=
  match s.qpReadLoc io q.ctx (q.dw 1) 8 .read with
  | .ok loc => if s.qpBad loc 8 then none else some (s.homeRead loc 8)
  | .error _ => none

/-- A status word a queue processor writes, or an add it makes (R277, R279), after the earlier stores of the same `agent`; where the
address does not translate, none is made. -/
def State.qpStore (s : State) (agent io ctx va val : Nat) (op : StoreOp) : State :=
  match s.qpPlace io ctx va 8 .write 1 with
  | .ok loc => (s.qpTouch io ctx va .write).machineStore agent none ctx (1024 * io) 0 loc va val op
  | .error ⟨1, _, _⟩ => s.qpReport ctx va
  | .error _ => s

/-! ## The end of an entry (R279) -/

/-- A host interrupt of a queue (R278). -/
def State.queueIrq (s : State) (io qn : Nat) (q : Queue) : State :=
  if bitAt (q.dw 4) 13 then s.interrupt (queueKey io qn) else s

/-- A halt that is due takes the queue where no packet is in Holding (R278). -/
def State.settleHalt (s : State) (io qn : Nat) : State :=
  match s.queue io qn with
  | some q =>
    if q.haltDue && (q.st = .idle || q.st = .reading) then
      (s.setQueue io qn { q with st := .halted, packet := [], haltDue := false }).queueIrq io qn q
    else s
  | none => s

/-- When the published count first exceeded the packets taken (R277), as far as the queue processor has learned. -/
def Queue.t0 (q : Queue) : Option Nat := (q.pubs.find? fun p => decide (q.taken < p.1)).map fun p => p.2

/-- Where a queue goes once nothing is in Holding (R278): Reading where a further packet is published, else Idle. -/
def Queue.after (q : Queue) : QSt := if q.t0.isSome then .reading else .idle

/-- The queue goes on after its packet in Holding was placed or received a final status (R277, R278).
`inst` is the registration the packet was taken under; a queue registered anew goes its own way. -/
def State.nextPacket (s : State) (io qn inst k : Nat) : State :=
  (s.updQueue io qn fun q =>
    if q.inst = inst && q.taken = k + 1 && q.st = .holding then
      { q with st := q.after, lastRead := none, translated := false, packet := [], preMet := false, preLoc := none, told := none }
    else q).settleHalt io qn

/-- The queue is neither Stale nor Halted. -/
def Queue.running (q : Queue) : Bool :=
  match q.st with
  | .stale _ | .halted => false
  | _ => true

/-- A queue as its registration makes it (R273, R278): Idle, no packet taken. -/
def Queue.fresh (desc : List Word) (inst : Nat) : Queue :=
  { desc := desc, st := .idle, taken := 0, pubs := [], lastRead := none, translated := false, packet := [], hold := 0
    preMet := false, preLoc := none, told := none, haltDue := false, inst := inst }

/-- The final status of packet `k` (R279): the status word, then the completion add, which follows it, then the queue's own halt (R278; a queue that
is Stale or Halted already is not halted by it: DESIGN CHOICE, log 36). `inst` and `desc` are the registration and the
descriptor its queue had. -/
def State.finishEntry (s : State) (io qn inst k : Nat) (desc packet : List Word) (code detail aux : Nat) : State :=
  let q := Queue.fresh desc inst
  let st := status code detail aux
  let agent := s.nextId
  let s := if q.dw 3 = 0 then s else s.qpStore agent io q.ctx (q.dw 3 + k % q.size * 8) st.toNat .write
  let s := if pkDone packet = 0 then s else s.qpStore agent io q.ctx (pkDone packet) (pkInc packet) .cadd
  let s := s.updQueue io qn fun x =>
    if x.inst = inst && x.running && code ≠ 0 && bitAt (q.dw 4) 12 then { x with haltDue := true } else x
  (s.nextPacket io qn inst k).settleHalt io qn

/-! ## Registration and states (R273, R278) -/

/-- The descriptor with its reserved fields zero (R3, R273). -/
def queueDesc (d : List Word) : List Word :=
  (List.range 8).map fun n =>
    let w := d.getD n 0
    if n = 4 then maskWord w 0x3FFF else if 6 ≤ n then 0 else w

/-- The packet in Holding has a kernel placed for it. -/
def State.placedFor (s : State) (q : Queue) : Bool := s.kernels.any fun e => e.2.inst == q.inst && e.2.k == q.heldNo

/-- A queue leaves the queue processor's service (R278, R279): a packet in Holding ends ABORTED, detail 2. -/
def State.disableQueue (s : State) (io qn : Nat) : State :=
  match s.queue io qn with
  | none => s
  | some q =>
    let s := if q.st = .holding && !s.placedFor q then s.finishEntry io qn q.inst q.heldNo q.desc q.packet 7 2 0 else s
    { s with queues := mapErase s.queues (queueKey io qn) }

/-- QUEUE_REGISTER (R273, R278): the descriptor is in the table; one that names a Resident context and an LDEPTH up to 12
registers the queue, Idle and with no packet taken, any other unregisters it. There are four queue processors of 64 queues; none
is registered before stage 3 (R367). -/
def execQueueRegister (io q : Nat) (desc : List Word) (s : State) : Host.Outcome State Fault Refusal :=
  if 4 ≤ io || 64 ≤ q || s.boot.stage < 3 || s.boot.stage = 15 then .next s else
  let d := queueDesc desc
  let s := s.disableQueue io q
  let x := Queue.fresh d s.nextId
  let s := { s with qtab := mapSet s.qtab (queueKey io q) d, nextId := s.nextId + 1 }
  if x.dw 0 ≠ 0 && bitsOf (x.dw 4) 0 4 ≤ 12 && s.resident x.ctx then
    let stage := if s.boot.stage = 3 then 4 else s.boot.stage
    .next (({ s with boot := { s.boot with stage := stage } } : State).setQueue io q x)
  else .next s

/-- The queue processor learns of the published count (R276): counts it had not seen are kept with their time. -/
def Queue.learn (q : Queue) (n pt : Nat) : Queue :=
  let seen := q.pubs.foldl (fun m p => max m p.1) q.taken
  { q with pubs := (q.pubs.filter fun p => decide (q.taken < p.1)) ++ (if seen < n then [(n, pt)] else []) }

/-- QUEUE_KICK (R276, R277): the count is read with an acquire; an Idle queue with a packet published is Reading. No kick
counts before stage 4 (R367). -/
def execQueueKick (io q : Nat) (s : State) : Host.Outcome State Fault Refusal :=
  match s.queue io q with
  | none => .next s
  | some x =>
    match s.published io x with
    | none => .next s
    | some n =>
      if s.boot.stage < 3 || s.boot.stage = 15 then .next s
      else
        let x := x.learn n s.pt
        let x := if x.st = .idle && x.taken < n then { x with st := .reading, lastRead := none, translated := false } else x
        .next ((s.qpTouch io x.ctx (x.dw 1) .read).setQueue io q x)

/-- The queue is Stale with a detail (R277, R278). -/
def State.goStale (s : State) (io qn : Nat) (q : Queue) (detail : Nat) : State :=
  (s.setQueue io qn { q with st := .stale detail, lastRead := none, translated := false, packet := [], haltDue := false }).queueIrq io qn q

/-- QUEUE_RESUME (R278): Stale goes back to Reading at the same packet, its times anew; Halted goes on. -/
def execQueueResume (io q : Nat) (s : State) : Host.Outcome State Fault Refusal :=
  match s.queue io q with
  | some x =>
    match x.st with
    | .stale _ => .next (s.setQueue io q { x with st := .reading, pubs := [(x.taken + 1, s.pt)], lastRead := none, translated := false,
                                                           packet := [], haltDue := false })
    | .halted => .next (s.setQueue io q { x with st := x.after, lastRead := none, translated := false, packet := [], haltDue := false })
    | _ => .next s
  | none => .next s

/-! ## Reading a packet (R274, R275, R277) -/

/-- One step of CRC-32C, reflected (R275). -/
def crcStep (c : Nat) : Nat := if c % 2 = 1 then (c / 2) ^^^ 0x82F63B78 else c / 2
/-- CRC-32C of bytes (R275): initial value all ones, final inversion. -/
def crc32c (bs : List Byte) : Nat :=
  (bs.foldl (fun c b => crcStep (crcStep (crcStep (crcStep (crcStep (crcStep (crcStep (crcStep (c ^^^ b.toNat)))))))))
    0xFFFFFFFF) ^^^ 0xFFFFFFFF

/-- The packet matches (R277): SEQ and CRC. -/
def packetMatches (p : List Word) (k : Nat) : Bool :=
  pkField p 0 0 32 == k % 2 ^ 32 && pkField p 7 32 32 == crc32c ((wordBytes p).take 60)

/-- The slot of the next packet as a read of it finds it: its words where the line passes its check. -/
def State.slotRead (s : State) (io : Nat) (q : Queue) : Except Trap (Option (List Word)) :=
  match s.qpReadLoc io q.ctx q.slotVa 64 .read with
  | .error x => .error x
  | .ok loc =>
    if s.qpBad loc 64 then .ok none else .ok (some ((List.range 8).map fun n => w64 (s.homeRead (loc + 8 * n) 8)))

/-- A queue has a packet of a class that would be taken now: one that has matched, or that a read would match. -/
def State.readyClass (s : State) (io : Nat) (q : Queue) : Option Nat :=
  if q.st ≠ .reading then none else if !q.packet.isEmpty then some (pkClass q.packet) else
  match s.slotRead io q with
  | .ok (some p) => if packetMatches p q.taken then some (pkClass p) else none
  | _ => none

/-- The classes of the packets that the other queues of an IO die would have taken now. -/
def State.otherClasses (s : State) (io qn : Nat) : List Nat :=
  (List.range 64).filterMap fun n => if n = qn then none else (s.queue io n).bind fun q => s.readyClass io q

/-- The queue processor serves another packet first (R274): a class-0 packet goes ahead of others, but not twice in a row
while another waits. -/
def State.yields (s : State) (io qn cls : Nat) : Bool :=
  let others := s.otherClasses io qn
  let last0 := mapGet s.qpTurn io 0 == 1
  if cls = 0 then last0 && others.any fun c => c != 0 else !last0 && others.any fun c => c == 0

/-- The number of one bits of a die mask. -/
def dieCount (m : Nat) : Nat := popcount m 16

/-- The first field of a packet outside its limits, by the Offset column of its layout (R275, R279, R281). -/
def badField (p : List Word) : Option Nat :=
  let per := pkPerCore p
  if pkDies p = 0 then some 0
  else if pkImage p % 64 ≠ 0 then some 8
  else if pkLength p % 4 ≠ 0 || pkLength p < 4 || 32768 < pkLength p || pkThreads p = 0 ||
      per * 256 * dieCount (pkDies p) < pkThreads p || (if pkClass p = 0 then per != 1 else per == 0 || decide (3 < per)) ||
      128 * 1024 < pkTcm p || 1024 < pkSpad p then some 16
  else if pkPre p % 8 ≠ 0 then some 24
  else if pkDone p % 8 ≠ 0 then some 40
  else none

/-- The field checks of a taken packet (R279, in the order of its table): detail and AUX of the refusal. -/
def State.packetCheck (s : State) (q : Queue) (p : List Word) : Option (Nat × Nat) :=
  if pkField p 0 40 8 ≠ 1 then some (1, 0)
  else if pkClass p < q.clmin || !s.permits q.ctx (pkClass p) then some (2, 0)
  else match badField p with
    | some off => some (3, off)
    | none =>
      if pkField p 0 34 6 ≠ 0 then some (4, 0)
      else if s.ctxCap q.ctx (pkClass p) < pkThreads p then some (5, 0)
      else none

/-- The hold deadline (R273, R277). -/
def State.holdUntil (s : State) (q : Queue) : Nat :=
  s.pt + (if bitsOf (q.dw 5) 32 32 = 0 then s.ctxCeil q.ctx else bitsOf (q.dw 5) 32 32 * 1000)

/-- A packet that matched is taken (R277): TAKEN advances; refused, or in Holding until h. -/
def State.takePacket (s : State) (io qn : Nat) (q : Queue) (p : List Word) : State :=
  let k := q.taken
  let s := { s with
    qpTurn := mapSet s.qpTurn io (if pkClass p = 0 && (s.otherClasses io qn).any fun c => c != 0 then 1 else 0) }
  let s := s.qpStore s.nextId io q.ctx (q.dw 2) 1 .cadd
  let q := { q with taken := k + 1, lastRead := none, translated := false, packet := p, hold := s.holdUntil q
                    preMet := false, preLoc := none, told := none }
  match s.packetCheck q p with
  | some (d, aux) => (s.setQueue io qn { q with st := .holding }).finishEntry io qn q.inst k q.desc p 11 d aux
  | none => s.setQueue io qn { q with st := .holding }

/-- PACKET_REREAD (R277): one whole read of the slot of packet k. A failed read is made again; the last one is the first after
STALEDL. A packet that has matched is kept, and taken when its turn comes (R274). -/
def execPacketReread (io q : Nat) (s : State) : Host.Outcome State Fault Refusal :=
  match s.queue io q with
  | none => .next s
  | some x =>
    let last := x.t0.getD s.pt + x.staleNs
    let ahead := match s.published io x with
      | some n => decide (x.size < n - x.taken)
      | none => false
    let done := match x.lastRead with
      | some r => decide (last < r)
      | none => false
    if x.st ≠ .reading then .next s
    else if !x.packet.isEmpty then
      .next (if s.yields io q (pkClass x.packet) then s else s.takePacket io q x x.packet)
    else if done then .next s
    else if x.lastRead.isNone && ahead then .next (s.goStale io q x 2)
    else match s.slotRead io x with
      | .error ⟨1, _, _⟩ => .next ((s.qpReport x.ctx x.slotVa).setQueue io q { x with lastRead := some s.pt })
      | .error _ => .next (s.goStale io q x 3)
      | .ok got =>
        let s := s.qpTouch io x.ctx x.slotVa .read
        match got with
        | some p =>
          if packetMatches p x.taken then
            .next (if s.yields io q (pkClass p) then s.setQueue io q { x with packet := p } else s.takePacket io q x p)
          else .next (s.setQueue io q { x with lastRead := some s.pt, translated := true })
        | none => .next (s.setQueue io q { x with lastRead := some s.pt, translated := true })

/-- QUEUE_STALE (R277): STALEDL has passed with no read that matched. -/
def execQueueStale (io q : Nat) (s : State) : Host.Outcome State Fault Refusal :=
  match s.queue io q with
  | none => .next s
  | some x =>
    if x.st = .reading && x.packet.isEmpty && x.lastRead.isSome && x.t0.getD s.pt + x.staleNs < s.pt then
      .next (s.goStale io q x (if x.translated then 1 else 3))
    else .next s

/-! ## The hold (R277) -/

/-- What the translations of a hold find (R277): all there; one not present, with the detail of its TIMEOUT; one refused, with
its AUX. -/
inductive HoldRes where
  | ok
  | absent (va detail : Nat)
  | refused (aux : Nat)
  deriving DecidableEq, Repr

/-- The pages of a run of bytes: the addresses at which they are entered. -/
def pagesOf (va n : Nat) : List Nat := (List.range ((va + n - 1) / 65536 + 1 - va / 65536)).map fun i => max va ((va / 65536 + i) * 65536)

/-- IMAGE's pages, PRE_ADDR and DONE_ADDR translated in turn (R277). -/
def State.holdCheck (s : State) (io : Nat) (q : Queue) : HoldRes :=
  let one := fun (va n : Nat) (acc : Access) (aux det : Nat) => match s.qpPlace io q.ctx va n acc 0 with
    | .ok _ => HoldRes.ok
    | .error ⟨1, _, _⟩ => .absent va det
    | .error _ => .refused aux
  let p := q.packet
  let image := (pagesOf (pkImage p) (pkLength p)).map fun va => if inFabric va then HoldRes.refused 8 else one va 1 .image 8 2
  let pre := if pkPre p = 0 then HoldRes.ok else one (pkPre p) 8 .read 24 1
  let done := if pkDone p = 0 then HoldRes.ok else one (pkDone p) 8 .write 40 2
  (image ++ [pre, done]).foldl (fun r x => if r = .ok then x else r) .ok

/-- The packet in Holding ends with a status. -/
def State.endHeld (s : State) (io qn : Nat) (q : Queue) (code detail aux : Nat) : State :=
  s.finishEntry io qn q.inst q.heldNo q.desc q.packet code detail aux

/-- What the precondition counter reads as in Holding (R277): its location and value; the status that ends the entry where it fails
its check value or its target refuses it; neither where its page has gone meanwhile. -/
def State.preRead (s : State) (io : Nat) (q : Queue) : Except (Option (Nat × Nat × Nat)) (Nat × Nat) :=
  match s.qpReadLoc io q.ctx (pkPre q.packet) 8 .read with
  | .error ⟨18, 4, _⟩ => .error (some (11, 3, 24))
  | .error _ => .error none
  | .ok loc => if s.qpBad loc 8 then .error (some (10, 2, 0)) else .ok (loc, s.homeRead loc 8)

/-- The precondition's target is reached (R277). -/
def Queue.reached (q : Queue) (n : Nat) : Bool := decide ((q.packet.getD 4 0).toNat ≤ n)

/-- What the hold's translations find, until they have all been made (R277). -/
def State.holdNow (s : State) (io : Nat) (q : Queue) : HoldRes := if q.translated then .ok else s.holdCheck io q

/-- PRECONDITION_MET (R277): the translations of the hold are tried until they are made, then the precondition; a condition met at h
counts. A counter whose home can register a waiter is registered there. -/
def execPreconditionMet (io q : Nat) (s : State) : Host.Outcome State Fault Refusal :=
  match s.queue io q with
  | none => .next s
  | some x =>
    if x.st ≠ .holding || s.placedFor x || x.preMet || x.told.isSome || x.hold < s.pt then .next s
    else match s.holdNow io x with
      | .absent va _ => .next ((s.qpReport x.ctx va).setQueue io q { x with told := some va })
      | .refused aux => .next (s.endHeld io q x 11 3 aux)
      | .ok =>
        let x := { x with translated := true }
        if pkPre x.packet = 0 then .next (s.setQueue io q { x with preMet := true })
        else match s.preRead io x with
          | .error none => .next (s.setQueue io q x)
          | .error (some (code, d, aux)) => .next (s.endHeld io q x code d aux)
          | .ok (loc, n) =>
            if x.reached n then .next (s.setQueue io q { x with preMet := true })
            else .next (s.setQueue io q { x with preLoc := if isHost loc || isReg loc then none else some loc })

/-- A precondition counter that no home watches satisfies the wait at the read that R146 asks for at or after h (log 15). -/
def State.lateRead (s : State) (io : Nat) (q : Queue) : Bool :=
  q.preLoc.isNone && match s.preRead io q with
    | .ok (_, n) => q.reached n
    | .error _ => false

/-- HOLD_DEADLINE (R146, R277): h has passed; the entry ends by what it still waited for. -/
def execHoldDeadline (io q : Nat) (s : State) : Host.Outcome State Fault Refusal :=
  match s.queue io q with
  | none => .next s
  | some x =>
    if x.st ≠ .holding || s.placedFor x || s.pt ≤ x.hold then .next s
    else if x.preMet then .next (s.endHeld io q x 1 2 0)
    else match s.holdNow io x with
      | .absent _ d => .next (s.endHeld io q x 1 d 0)
      | .refused aux => .next (s.endHeld io q x 11 3 aux)
      | .ok => .next (s.endHeld io q x 1 (if pkPre x.packet = 0 || s.lateRead io x then 2 else 1) 0)

/-! ## Placement (R281 to R283) -/

/-- A slot is held for a thread whose start message is still on its way (R281). -/
def State.reserved (s : State) (v sl : Nat) : Bool :=
  s.kernels.any fun e => e.2.cores.any fun c => c.v == v && !c.started && c.slots.any fun x => x.1 == sl

/-- A slot a kernel may take. -/
def State.slotFree (s : State) (v sl : Nat) : Bool := (s.inSlot v sl).isNone && !s.reserved v sl

/-- The shares a packet's kernel would hold on a core (R283, R298), where they are free: I-store base and TCM base. Class 0
takes the top, the others the bottom above the stub. -/
def State.shares (s : State) (p : List Word) (v : Nat) : Option (Nat × Nat) :=
  let here : List KCore := s.kernels.flatMap fun e => e.2.cores.filter fun c => c.v == v
  let ist := toKib (pkLength p)
  let free := fun (top base size : Nat) (used : List (Nat × Nat)) =>
    decide (1024 ≤ base) && decide (base + size ≤ top) && used.all fun u => size == 0 || u.2 == 0 || !overlaps base size u.1 u.2
  let ib := if pkClass p = 0 then 0x8000 - ist else 1024
  let tb := if pkClass p = 0 then 0x20000 - pkTcm p else 1024
  if ist ≤ 0x8000 && free 0x8000 ib ist (here.map fun c => (c.istBase, c.istSize)) &&
      (pkTcm p == 0 || free 0x20000 tb (pkTcm p) (here.map fun c => (c.tcmBase, c.tcmSize))) then some (ib, tb)
  else none

/-- The scratchpad tiles of a cluster that kernels hold (R283). -/
def State.spadUsed (s : State) (cluster : Nat) : List (Nat × Nat) :=
  s.kernels.flatMap fun e => (e.2.runs.filter fun r => r.1 == cluster).map fun r => (r.2, pkSpad e.2.packet)

/-- The scratchpad run a packet's kernel would hold in a cluster (R283): the lowest free one, for class 0 the highest. -/
def State.spadRun (s : State) (p : List Word) (cluster : Nat) : Option Nat :=
  let n := pkSpad p
  let used := s.spadUsed cluster
  let fits := fun (b : Nat) => used.all fun u => !overlaps b n u.1 u.2
  let bases := (List.range (1025 - n)).filter fits
  if pkClass p = 0 then bases.getLast? else bases.head?

/-- What a placement has taken so far: cores with their slots, scratchpad runs. -/
structure Placing where
  cores : List KCore
  runs : List (Nat × Nat)
  deriving DecidableEq, Repr

/-- A core of the order of R282 taken where it is eligible (R281, R298) and cores are still needed. -/
def State.takeCore (s : State) (p : List Word) (need : Nat) (g : Placing) (v : Nat) : Placing :=
  if need ≤ g.cores.length then g else
  let zero := pkClass p = 0
  let slots := (if zero then [0] else [1, 2, 3]).filter fun sl => s.slotFree v sl
  let other := s.kernels.any fun e => (e.2.cores.any fun c => c.v == v) && (decide (e.2.cls = 0) == decide zero)
  let cl := clusterOf v
  let run : Option (Option Nat) :=
    if pkSpad p = 0 || (g.runs.any fun r => r.1 == cl) then some none else (s.spadRun p cl).map some
  if slots.length < pkPerCore p || other || (s.vc v).stubLost || s.vcoreMoving v then g
  else match s.shares p v, run with
    | some (ib, tb), some r =>
      let first := g.cores.length * pkPerCore p
      let count := min (pkPerCore p) (pkThreads p - first)
      let mine := (List.range count).filterMap fun i => (slots[i]?).map fun sl => (sl, first + i)
      ⟨g.cores ++ [⟨v, mine, ib, toKib (pkLength p), tb, pkTcm p, false⟩],
        match r with
        | some b => g.runs ++ [(cl, b)]
        | none => g.runs⟩
    | _, _ => g

/-- The vcores of a die set in the order of R282. -/
def placeOrder (dies : Nat) : List Nat :=
  (List.range 16).flatMap fun n => (List.range 16).flatMap fun c =>
    (List.range 16).filterMap fun d => if bitAt dies d then some (d * 256 + c * 16 + n) else none

/-- The cores and runs a packet's kernel gets (R281): all it needs, or none. -/
def State.findCores (s : State) (p : List Word) : Option Placing :=
  let need := (pkThreads p + pkPerCore p - 1) / pkPerCore p
  let g := (placeOrder (pkDies p)).foldl (fun g v => s.takeCore p need g v) ⟨[], []⟩
  if g.cores.length = need then some g else none

/-- The full threads a context's kernels of a class hold (R290 CAPc). -/
def State.threadsHeld (s : State) (ctx cls : Nat) : Nat :=
  let kernelOk := fun (k : Kernel) => k.ctx == ctx && k.cls == cls
  (s.threads.filter fun e => !e.2.light && ((e.2.kernel.bind s.kern).map kernelOk).getD false).length +
  ((s.kernels.filter fun e => kernelOk e.2).map fun e =>
    ((e.2.cores.filter fun c => !c.started).map fun c => c.slots.length).sum).sum

/-- KERNEL_PLACEMENT (R281, R341): every core at once or none; not while its class is shed. The third case of R139 asks
nothing more here: a completion add is made only after every store of its kernel was performed. -/
def execKernelPlacement (io q : Nat) (s : State) : Host.Outcome State Fault Refusal :=
  match s.queue io q with
  | none => .next s
  | some x =>
    let p := x.packet
    if x.st ≠ .holding || s.placedFor x || !x.preMet || x.hold < s.pt || s.classShed (pkClass p) ||
        s.ctxCap x.ctx (pkClass p) < s.threadsHeld x.ctx (pkClass p) + pkThreads p then .next s
    else match s.findCores p with
      | none => .next s
      | some g =>
        let kn : Kernel :=
          { ctx := x.ctx, cls := pkClass p, st := .loading, packet := p, desc := x.desc, io := io, q := q, inst := x.inst, k := x.heldNo
            cores := g.cores, runs := g.runs, imageLoaded := false, status := none, cause := 0, out := 0 }
        .next { s with kernels := mapSet s.kernels s.nextId kn, nextId := s.nextId + 1 }

/-! ## Loading and starting (R283, R284) -/

/-- The bytes of an image, or why they cannot be read (R284): each 64-byte line through the station. -/
def State.imageBytes (s : State) (kn : Kernel) : Except Trap (List Byte × Bool) :=
  let n := pkLength kn.packet
  (List.range ((n + 63) / 64)).foldr (fun i r =>
    let va := pkImage kn.packet + 64 * i
    match s.qpReadLoc kn.io kn.ctx va 64 .image, r with
    | .error x, _ => .error x
    | .ok _, .error x => .error x
    | .ok loc, .ok (bs, bad) => .ok ((List.range (min 64 (n - 64 * i))).map (fun j => s.byteAt (loc + j)) ++ bs, bad || s.qpBad loc 64))
    (.ok ([], false))

/-- A core's share zeroed and its image stored (R283, R284). -/
def State.loadCore (s : State) (bs : List Byte) (c : KCore) : State :=
  let s := if c.tcmSize = 0 then s else s.zero (tcmLoc c.v c.tcmBase) c.tcmSize
  s.writeBytes (istLoc c.v c.istBase) bs

/-- A scratchpad run zeroed, its tiles the threads' (R283). -/
def State.clearRun (s : State) (n : Nat) (r : Nat × Nat) : State :=
  let first := r.1 * 1024 + r.2
  let s := s.zero (spadLoc r.1 (r.2 * 4096)) (n * 4096)
  { s with owned := s.owned.filter fun t => !(decide (first ≤ t) && decide (t < first + n)) }

/-- A kernel has Ended (R280, R288): its shares, slots and tiles are free, its groups Free, its inboxes closed. -/
def State.endedKernel (s : State) (k : Nat) : State :=
  let s := (s.freeKernelGroups fun g => g.kernel == some k).endKernelInboxes k
  { s with kernels := mapErase s.kernels k }

/-- IMAGE_LOAD (R284): the shares and runs are zeroed and the image copied, and the packet is placed; a failing check value
ends the entry POISON. -/
def execImageLoad (kid : Nat) (s : State) : Host.Outcome State Fault Refusal :=
  match s.kern kid with
  | none => .next s
  | some kn =>
    if kn.st ≠ .loading || kn.imageLoaded then .next s
    else
      let stop := fun (code detail aux : Nat) =>
        Host.Outcome.next ((s.endedKernel kid).finishEntry kn.io kn.q kn.inst kn.k kn.desc kn.packet code detail aux)
      match s.imageBytes kn with
      | .error ⟨1, _, va⟩ =>
        match s.queue kn.io kn.q with
        | some x =>
          if x.inst ≠ kn.inst || x.hold < s.pt then stop 1 2 0
          else if x.told.isSome then .next s
          else .next ((s.qpReport kn.ctx va.toNat).setQueue kn.io kn.q { x with told := some va.toNat })
        | none => stop 1 2 0
      | .error ⟨19, _, _⟩ => stop 10 1 0
      | .error _ => stop 11 3 8
      | .ok (bs, bad) =>
        if bad then stop 10 1 0
        else
          let s := kn.cores.foldl (fun s c => s.loadCore bs c) (kn.runs.foldl (fun s r => s.clearRun (pkSpad kn.packet) r) s)
          let s := s.updKern kid fun kn => { kn with imageLoaded := true }
          .next (s.nextPacket kn.io kn.q kn.inst kn.k)

/-- START_MESSAGE (R137, R284): a core's threads begin at 0x0200_0000 with ARGS, their number and THREADS; the last message
makes the kernel Running. -/
def execStartMessage (kid core : Nat) (s : State) : Host.Outcome State Fault Refusal :=
  match s.kern kid with
  | none => .next s
  | some kn =>
    match kn.cores.find? fun c => c.v == core && !c.started with
    | none => .next s
    | some c =>
      if kn.st ≠ .loading || !kn.imageLoaded then .next s
      else
        let p := kn.packet
        let cores := kn.cores.map fun x => if x.v = core then { x with started := true } else x
        let st : KSt := if cores.all fun x => x.started then .running else .loading
        let s := s.updKern kid fun kn => { kn with cores := cores, st := st }
        .next (c.slots.foldl (fun s x => s.startThread (s.freshThread core x.1 kn.ctx kn.cls (some kid) false false 0x2000000
          [(10, p.getD 6 0), (11, w64 x.2), (12, w64 (pkThreads p))])) (s.dropL1 core))

/-! ## The end of a kernel (R139, R280, R288) -/

/-- The line of a kernel's completion counter has its home outside the die set, or cannot be found (R139). -/
def State.doneOutside (s : State) (kn : Kernel) : Bool :=
  if pkDone kn.packet = 0 then false
  else match s.qpPlace kn.io kn.ctx (pkDone kn.packet) 8 .write 1 with
    | .ok loc => kn.outside loc
    | .error _ => false

/-- The stores of a kernel that its end waits for (R139): those homed in its die set, and every one where the flush is due. -/
def State.endWaits (s : State) (k : Nat) (kn : Kernel) : Bool :=
  let flush := pkDone kn.packet != 0 && (kn.out != 0 || s.doneOutside kn)
  s.storeBuf.any fun p => p.kernel == some k && (flush || !kn.outside p.loc)

/-- The fault a kernel's completion add would raise (R144): an overflow, or a failing check value of the counter's line. -/
def State.doneTrap (s : State) (kn : Kernel) : Option Trap :=
  let va := pkDone kn.packet
  if va = 0 then none
  else match s.qpPlace kn.io kn.ctx va 8 .write 1 with
    | .ok loc =>
      if s.bad loc 8 then some ⟨19, 1, w64 va⟩
      else if (counterAdd (s.read loc 8) (pkInc kn.packet)).2 then some ⟨20, 0, w64 va⟩ else none
    | .error _ => none

/-- The status a kernel ends with (R144, R279, R287): that of its first fault, or of the fault its completion add raises,
which is recorded, or OK. -/
def State.lastStatus (s : State) (kid : Nat) (kn : Kernel) : Word × State :=
  match kn.status, s.doneTrap kn with
  | none, some x =>
    (status 7 1 x.cause, s.faultRecord kn.ctx
      [recordHead 1 x.cause x.detail 0 0 kn.ctx, 0, x.val, w64 s.pt, 0, 0, s.packetWord (some kid), 0])
  | st, _ => (st.getD 0, s)

/-- KERNEL_ENDING (R139, R279, R280, R288): a kernel of which nothing remains is Ending; once its stores are performed and their
faults known the status is written, the completion add made, and the kernel has Ended. -/
def execKernelEnding (kid : Nat) (s : State) : Host.Outcome State Fault Refusal :=
  match s.kern kid with
  | none => .next s
  | some kn =>
    if s.hasThreads kid || s.hasWork kid then .next s
    else if kn.st = .running || kn.st = .draining then .next (s.updKern kid fun kn => { kn with st := .ending })
    else if kn.st ≠ .ending || s.endWaits kid kn || (s.posted.any fun x => x.1 == kid) then .next s
    else
      let (st, s) := s.lastStatus kid kn
      let s := s.endedKernel kid
      .next (s.finishEntry kn.io kn.q kn.inst kn.k kn.desc kn.packet (fieldOf st 0 8) (fieldOf st 8 8) (fieldOf st 16 16))

end Sys2Proof.Machine
end

