-- ==== Sys2Proof/Machine/Contexts.lean ====
section
/-!
DEFINITION. Sys2Proof/Machine/Contexts.lean: context descriptors, slot control, the chrysalis bank, kills, reports and vcore
moves (17_contexts R290 to R307).
-/
namespace Sys2Proof.Machine

/-! ## Context descriptors (R290, R291) -/

/-- Bits of each doubleword of a context descriptor that hold a field; KILL is not kept (R3, R290). -/
def ctxMask (dw : Nat) : Nat :=
  match dw with
  | 0 | 6 => 0xFFFFFFFFFFFF
  | 1 | 2 | 5 => 0xFFFFFFFFFFFFFFFF
  | 3 => 0x7D
  | 4 => 0xFFFFFFFFFFFF
  | _ => 0

/-- Some kernel, queue or thread of a context exists (R291). -/
def State.ctxBusy (s : State) (c : Nat) : Bool :=
  (s.kernels.any fun e => e.2.ctx == c) || (s.queues.any fun e => e.2.ctx == c) || s.threads.any fun e => e.2.ctx == c

/-- CONTEXT_DESCRIPTOR_WRITE (R290, R291): a Free context takes the word, and is Resident with VALID = 1; a Resident one takes
only KILL, or VALID := 0 when nothing of it is left. The supervisor, which writes it, runs from stage 3 (R367). -/
def execContextDescriptorWrite (ctx dw : Nat) (val : Word) (s : State) : Host.Outcome State Fault Refusal :=
  let x : Context := (mapGet? s.ctxs ctx).getD ⟨List.replicate 8 0, false⟩
  let valid := fieldOf (x.desc.getD 3 0) 0 1 == 1
  if 64 ≤ ctx || 8 ≤ dw || s.boot.stage < 3 || s.boot.stage = 15 then .next s
  else if !valid then
    .next { s with ctxs := mapSet s.ctxs ctx { x with desc := x.desc.set dw (maskWord val (ctxMask dw)) } }
  else if dw ≠ 3 || x.killing then .next s
  else if val.getLsbD 1 then .next { s with ctxs := mapSet s.ctxs ctx { x with killing := true } }
  else if val.getLsbD 0 || s.ctxBusy ctx then .next s
  else .next { s with ctxs := mapErase s.ctxs ctx }

/-! ## The chrysalis bank (R300 to R303) -/

/-- The state of a slot's bank. -/
def State.bank (s : State) (v sl : Nat) : BankSt := (s.vc v).banks.getD sl .empty
def State.setBank (s : State) (v sl : Nat) (b : BankSt) : State :=
  s.updVc v fun c => { c with banks := c.banks.set sl b }

/-- The save record a slot's control register names (R302). -/
def State.recordPa (s : State) (v sl : Nat) : Nat := ((s.vc v).saveAddr.getD sl 0).toNat

/-- An address is a record of a context's save area (R290, R302). -/
def State.inCsa (s : State) (ctx pa : Nat) : Bool :=
  let csa := fieldOf (s.ctxWord ctx 5) 0 48
  pa % 2048 == 0 && isSram pa && decide (csa ≤ pa) && decide (pa + 2048 ≤ csa + fieldOf (s.ctxWord ctx 5) 48 16 * 2048)

/-- The level bank of a thread's handler holds a migration trap. -/
def Thread.migratesNow (t : Thread) : Bool :=
  (t.level == 1 && t.bank0.cause == 4) || (2 ≤ t.level && t.bank1.cause == 4)

/-- CSWAP (R181, R301): the thread goes into its slot's bank and the bank's thread into the slot, unless the moult engine is at
work there; appends of its streams are accepted first. A light slot has no bank. -/
def execCswap (mark : Bool) (s : State) : Host.Outcome State Fault Refusal :=
  s.threadOp (.cswap mark) { deferredForm [] [] mark with closes := true } (deferBody []) fun s tid t e =>
    let v := t.vcore
    let sl := t.slot
    let idle := match s.bank v sl with
      | .spilling _ _ | .filling _ _ => false
      | _ => true
    if 4 ≤ sl || !idle then s.finish tid e []
    else if t.buffered then s
    else
      let next := s.inBank v sl
      let s := ((s.finish tid e []).leaveSlot tid).updThr tid fun t =>
        { t with place := .bank v sl, migrating := t.migratesNow, saved := none }
      let s := s.setBank v sl .unsaved
      match next with
      | some (tid', _) => s.returnTo tid' v sl
      | none => s

/-- SPILL (R300, R302): an Unsaved bank is written to the named record of its context's save area. -/
def execSpill (v sl : Nat) (s : State) : Host.Outcome State Fault Refusal :=
  match s.inBank v sl with
  | some (_, t) =>
    if s.bank v sl = .unsaved && s.inCsa t.ctx (s.recordPa v sl) then
      .next (s.setBank v sl (.spilling s.pt (s.recordPa v sl)))
    else .next s
  | none => .next s

/-- SPILL_DONE (R300): the record is written, once none of its lines is locked (R136), and the bank Saved; a context held only in
that record is lost. -/
def execSpillDone (v sl : Nat) (s : State) : Host.Outcome State Fault Refusal :=
  match s.bank v sl, s.inBank v sl with
  | .spilling _ pa, some (tid, t) =>
    if s.locked pa 2048 then .next s else
    let s := s.dropThreads fun n x => n != tid && match x.place with
      | .record _ _ p => p == pa
      | _ => false
    .next (((s.writeBytes pa t.saveRecord).setThr tid { t.imaged with saved := some pa }).setBank v sl .saved)
  | _, _ => .next s

/-- FILL (R300, R302): an Empty or Saved bank takes the context whose record is named; what it held lives in its record. -/
def execFill (v sl : Nat) (s : State) : Host.Outcome State Fault Refusal :=
  let pa := s.recordPa v sl
  let open_ := s.bank v sl = .empty || s.bank v sl = .saved
  let held := s.threads.find? fun e => match e.2.place with
    | .record _ _ p => p == pa
    | .bank w n => w == v && n == sl && e.2.saved == some pa
    | .slot _ _ => false
  match held with
  | some (tid, t) =>
    let busy := s.vcores.any fun e => e.2.banks.any fun b => match b with
      | .filling n _ => n == tid
      | _ => false
    if open_ && sl < 4 && !busy && s.inCsa t.ctx pa then
      let out := fun (_ : Nat) (x : Thread) =>
        if x.place = .bank v sl then { x with place := .record v sl (x.saved.getD 0) } else x
      .next ((s.mapThr out).setBank v sl (.filling tid s.pt))
    else .next s
  | none => .next s

/-- FILL_DONE (R300): the bank holds the context of its record and is Saved. -/
def execFillDone (v sl : Nat) (s : State) : Host.Outcome State Fault Refusal :=
  match s.bank v sl with
  | .filling tid _ =>
    match s.thr tid with
    | some t =>
      let pa := t.saved.getD 0
      .next ((s.setThr tid { s.loadRecord t pa with place := .bank v sl }).setBank v sl .saved)
    | none => .next (s.setBank v sl .empty)
  | _ => .next s

/-- SWAPIN (R302, R306): an Empty slot runs the context of its bank; not while its vcore moves. R302 asks nothing of the context's
class, so that slot 0, which R63 keeps for class 0, may take another class by FILL and SWAPIN: DESIGN CHOICE (log 36). -/
def execSwapin (v sl : Nat) (s : State) : Host.Outcome State Fault Refusal :=
  match s.inBank v sl with
  | some (tid, _) =>
    if s.slotFree v sl && (s.bank v sl = .unsaved || s.bank v sl = .saved) && !s.vcoreMoving v then
      .next (((s.setBank v sl .empty).updThr tid fun t => { t with saved := none }).returnTo tid v sl)
    else .next s
  | none => .next s

/-- A light thread released from the hold of R297: it goes on at its held PC, or in the wait the trap was taken from, its timer
running on, since it was not Ready between (R111). -/
def Thread.release (t : Thread) (pt : Nat) : Thread :=
  match t.susp with
  | u :: _ =>
    Thread.readReply { t with susp := [], run := .wait, wait := some u.wait, block := u.block, walking := !u.block.isEmpty
                              pc := if u.block.isEmpty then t.pc else t.pc + 4 }
  | [] => { t with run := .ready, wait := none, parkedAt := pt }

/-- RESUME (R297, R302). -/
def execResume (v sl : Nat) (s : State) : Host.Outcome State Fault Refusal :=
  match s.inSlot v sl with
  | some (tid, t) =>
    match t.wait with
    | some w => if t.run = .wait && w.kind = .light then .next (s.setThr tid (t.release s.pt)) else .next s
    | none => .next s
  | none => .next s

/-! ## Requests (R302, R305) -/

/-- PREEMPT (R302). -/
def execPreempt (v sl : Nat) (s : State) : Host.Outcome State Fault Refusal :=
  match s.inSlot v sl with
  | some (tid, t) => .next (s.setThr tid { t with preempt := true })
  | none => .next s

/-- MIGRATE (R305): with ATBAR at the thread's first barrier completion, and at the latest 1 ms from now. -/
def execMigrate (v sl : Nat) (atbar : Bool) (s : State) : Host.Outcome State Fault Refusal :=
  match s.inSlot v sl with
  | some (tid, t) => .next (s.setThr tid { t with migrate := some (0, if atbar then s.pt + 1000000 else s.pt, atbar) })
  | none => .next s

/-- A light thread is held by R297. -/
def Thread.heldLight (t : Thread) : Bool :=
  match t.wait with
  | some w => w.kind == .light
  | none => false

/-- A request's trap at a point of R72 (R295): taken from Parked-wait where the thread is parked. -/
def State.requestTrap (s : State) (tid : Nat) (t : Thread) (tr : Trap) : State :=
  let t' := t.rewound
  (s.setThr tid t').takeTrap tid tr t'.showPc (t'.run == .wait)

/-- PREEMPTION_TRAP (R302): cause 3. -/
def execPreemptionTrap (v sl : Nat) (s : State) : Host.Outcome State Fault Refusal :=
  match s.inSlot v sl with
  | some (tid, t) =>
    if t.preempt && t.atPoint && !t.heldLight then
      let t := { t with preempt := false }
      .next ((s.setThr tid t).requestTrap tid t ⟨3, 0, 0⟩)
    else .next s
  | none => .next s

/-- MIGRATION_TRAP (R305): cause 4, with detail 1 where a barrier completion brought it. -/
def execMigrationTrap (v sl : Nat) (s : State) : Host.Outcome State Fault Refusal :=
  match s.inSlot v sl with
  | some (tid, t) =>
    match t.migrate with
    | some (d, from_, false) =>
      if from_ ≤ s.pt && t.atPoint && !t.heldLight then
        let t := { t with migrate := none }
        .next ((s.setThr tid t).requestTrap tid t ⟨4, d, 0⟩)
      else .next s
    | _ => .next s
  | none => .next s

/-- MIGRATION_FORCE_EXPIRY (R305): 1 ms has passed with no barrier completion; the trap comes at the next point, detail 0. -/
def execMigrationForceExpiry (v sl : Nat) (s : State) : Host.Outcome State Fault Refusal :=
  match s.inSlot v sl with
  | some (tid, t) =>
    match t.migrate with
    | some (_, from_, true) => if from_ ≤ s.pt then .next (s.setThr tid { t with migrate := some (0, s.pt, false) }) else .next s
    | _ => .next s
  | none => .next s

/-! ## Killing a context (R304) -/

/-- Step 1 of a kill (R304): queues Disabled, kernels ending ABORTED with detail 2, threads, pool entries, groups, tiles,
SDUs and inboxes gone. -/
def State.killObjects (s : State) (c : Nat) : State :=
  let qs : List Nat := s.queues.filterMap fun (e : Nat × Queue) => if e.2.ctx = c then some e.1 else none
  let s := qs.foldl (fun s k => s.disableQueue (k / 64) (k % 64)) s
  let s := s.dropThreads fun _ t => t.ctx == c
  let s := { s with
    pools := s.pools.map fun (e : Nat × List PoolEntry) => (e.1, e.2.filter fun p => p.ctx != c)
    kernels := s.kernels.map fun (e : Nat × Kernel) =>
      if e.2.ctx = c && e.2.st != KSt.ending then
        (e.1, { e.2 with st := .faulting, status := some (e.2.status.getD (status 7 2 0)) }) else e }
  let s := s.freeKernelGroups fun g => g.ctx == c
  let s := s.freeTiles (s.tiles.filterMap fun e => if e.2.ctx = c then some e.1 else none)
  s.killChannels c

/-- The valid communicators of a context, by IO die times 256 plus number (R292). -/
def State.commsOf (s : State) (c : Nat) : List Nat :=
  s.comms.filterMap fun e => if s.commValid (e.1 / 256) (e.1 % 256) && s.commCtx (e.1 / 256) (e.1 % 256) = c then some e.1 else none

/-- CONTEXT_KILL (R304): steps 1 to 3 at once, also for what appears meanwhile; once its commands and kernels have ended and
its accepted stores are performed, the stations drop its translations and the context is Free. A vcore move ends first. -/
def execContextKill (ctx : Nat) (s : State) : Host.Outcome State Fault Refusal :=
  match mapGet? s.ctxs ctx with
  | none => .next s
  | some x =>
    if !x.killing || s.moving.isSome then .next s
    else
      let s := s.killObjects ctx
      let s := s.abortCmds fun c => c.ctx == ctx && !c.isCollective
      let s := if s.cmds.any fun c => c.ctx == ctx && c.isCollective && s.restLocked c then s else
        ((s.commsOf ctx).foldl (fun s k => s.abortCollectives (k / 256) (k % 256)) s).abortCmds fun c => c.ctx == ctx
      if (s.cmds.any fun c => c.ctx == ctx) || (s.kernels.any fun e => e.2.ctx == ctx) ||
          (s.storeBuf.any fun p => p.ctx == ctx) then .next s
      else
        .next { s with
          tlb := s.tlb.filter fun e => e.ctx != ctx
          l1 := s.l1.filter fun l => l.ctx != ctx
          ctxs := mapErase s.ctxs ctx }

/-! ## Reports (R293) -/

/-- A list in the order a number names, as it picks one element after the other. -/
def permute (n : Nat) (l : List α) : Nat → List α
  | 0 => []
  | k + 1 => (l[n % l.length]?).toList ++ permute (n / l.length) (l.eraseIdx (n % l.length)) k

/-- The record of a report (R293, R297): its values, one in each doubleword, in an order that the spec leaves open (log 6). -/
def Report.words (r : Report) : List Word :=
  permute Config.reportOrder [w64 r.kind, w64 r.cause, w64 r.v, w64 r.slot, w64 r.ctx, r.pc, r.val, w64 r.time] 8

/-- REPORT_POST (R293): the oldest report waiting enters the ring where it has room. -/
def execReportPost (s : State) : Host.Outcome State Fault Refusal :=
  match s.reportsDue with
  | [] => .next s
  | r :: rest =>
    let p := s.read 0xFF0007000000 8
    if 4096 ≤ p - s.read 0xFF0007000008 8 then .next s
    else
      let s := { s with reportsDue := rest }
      .next ((s.writeBytes (0xFF0006000000 + p % 4096 * 64) (wordBytes r.words)).write 0xFF0007000000 8 (counterAdd p 1).1)

/-! ## Vcore moves (R306, R307) -/

/-- REMAP_GO (R306): a write of remap. -/
def execRemapGo (val : Word) (s : State) : Host.Outcome State Fault Refusal := .next (s.writeRemap val)

/-- The vcores rebound (R15, R306): exchanged, or moved to the spare. -/
def State.rebind (s : State) (m : Move) : State :=
  let pa := s.position m.va
  match m.vb with
  | some vb => { s with bind := mapSet (mapSet s.bind m.va (s.position vb)) vb pa }
  | none => { s with bind := mapSet s.bind m.va ((s.sparePos m.va).getD pa) }

/-- A deferred access held at a moving vcore, performed by its own meaning. -/
def State.performHeld (s : State) (tid : Nat) : State :=
  match s.thr tid with
  | none => s
  | some t =>
    match t.block with
    | [] => s
    | e :: _ =>
      let s' := { s with cur := (t.vcore, t.slot) }
      let r : Host.Outcome State Fault Refusal := match e.ins with
        | .lda a b c d => execLda a b c d s'
        | .cadd a b c d m => execCadd a b c d m s'
        | .aadd a b c d m => execAadd a b c d m s'
        | .aand a b c d m => execAand a b c d m s'
        | .aor a b c d m => execAor a b c d m s'
        | .axor a b c d m => execAxor a b c d m s'
        | .amin a b c d m => execAmin a b c d m s'
        | .amax a b c d m => execAmax a b c d m s'
        | .aminu a b c d m => execAminu a b c d m s'
        | .amaxu a b c d m => execAmaxu a b c d m s'
        | .aswap a b c d m => execAswap a b c d m s'
        | .acasV a b c d m => execAcasV a b c d m s'
        | .acasS a b c d m => execAcasS a b c d m s'
        | .cwait a b c d m => execCwait a b c d m s'
        | .lwait a b c d m => execLwait a b c d m s'
        | _ => .next s
      match r with
      | .next s'' => { s'' with cur := s.cur }
      | _ => s

/-- One held access performed at the target (R307): a store that may not pass an earlier one of its agent waits for it in the buffer
(R120, R126); a load that has been out for LTB is a bus error (R70). -/
def State.settleHeld (s : State) (h : Held) : State :=
  match h with
  | .store id =>
    match s.storeBuf.find? fun p => p.id == id with
    | some p =>
      if (s.storesAhead p).isEmpty then State.performStore { s with storeBuf := s.storeBuf.filter fun x => x.id != id } p
      else { s with storeBuf := s.storeBuf.map fun x => if x.id = id then { x with st := .out } else x }
    | none => s
  | .load tid idx =>
    match s.thr tid with
    | some t => match t.block[idx]? with
      | some e =>
        if e.overdue s.pt then s.setThr tid (t.setEntry idx (e.fail (e.loadTrap 19 2 none)))
        else if e.st = .sent then s.answerLoad tid t idx e false else s
      | none => s
    | none => s
  | .deferred tid => s.performHeld tid

/-- REMAP_MOVE_COMPLETE (R203, R306, R307): once the SDUs have settled, the rebinding, then the held accesses in the order they
arrived. All state of a vcore is kept by its number, so only the binding and the physical core's own L1 change. -/
def execRemapMoveComplete (s : State) : Host.Outcome State Fault Refusal :=
  match s.moving with
  | none => .next s
  | some m =>
    if s.moveWaits m then .next s else
    let held := s.held
    let old := s
    let s := { s.rebind m with
      moving := none, held := [], remap := setField s.remap 32 1 0
      l1 := s.l1.filter fun l => !(l.v == m.va || some l.v == m.vb) }
    .next (State.seeFences (held.foldl State.settleHeld s) old)

end Sys2Proof.Machine
end

