-- ==== Sys2Proof/Machine/Links.lean ====
section
/-!
DEFINITION. Sys2Proof/Machine/Links.lean: the clock stall, the Jorrax ports, accesses from other packages and from the host,
and time across packages (19_links R322 to R334).
-/
namespace Sys2Proof.Machine

/-! ## The arithmetic clock (R19, R322) -/

/-- A rate the arithmetic clock can have (R19). -/
def legalMhz (mhz : Nat) : Bool := decide (400 ≤ mhz) && decide (mhz ≤ 1000) && mhz % 25 == 0

/-- RING_CLOCK_CHANGE (R322): the stall request; no core issues and no engine goes on until the change is complete. -/
def execRingClockChange (mhz : Nat) (s : State) : Host.Outcome State Fault Refusal :=
  if legalMhz mhz && s.clockChange.isNone then .next { s with clockChange := some (mhz, s.pt) } else .next s

/-- CLOCK_STALL_COMPLETE (R322): the PLL is at the new rate and every die resumes. -/
def execClockStallComplete (s : State) : Host.Outcome State Fault Refusal :=
  match s.clockChange with
  | some (mhz, _) => .next { s with mhz := mhz, clockChange := none }
  | none => .next s

/-! ## Versions (R333) -/

/-- The version two sides agree: min of the highest, at least max of the lowest. -/
def agreedVersion (lowA highA lowB highB : Nat) : Option Nat :=
  let v := min highA highB
  if max lowA lowB ≤ v then some v else none

/-- The device offers its current version and the two below it, none below 1; every current version is 1. -/
def offered : Nat × Nat := (1, 1)

/-! ## Jorrax ports (R323 to R327) -/

def State.port (s : State) (p : Nat) : Port := s.ports.getD p .reset
def State.setPort (s : State) (p : Nat) (x : Port) : State := { s with ports := s.ports.set p x }

/-- JORRAX_PORT_UP (R323, R326, R333, R367): training and version agreement succeed; both key slots of both directions hold
fresh keys, and SEQ starts at 0. -/
def execJorraxPortUp (port : Nat) (far : FarEnd) (offer : Offer) (s : State) : Host.Outcome State Fault Refusal :=
  let p := s.port port
  if 12 ≤ port || p.up || s.boot.stage = 0 || 4 < s.boot.stage || !(p.txKeys ++ p.rxKeys).all (fun k => k.isSome) then .next s
  else match agreedVersion offered.1 offered.2 offer.lo offer.hi with
    | none => .next { s with log := s.log ++ [.versionFailure 1] }
    | some v =>
      let p' : Port := { Port.reset with
        up := true, ver := v, peer := far.package, peerPort := far.port, txKeys := p.txKeys, rxKeys := p.rxKeys }
      .next { s.setPort port p' with lastUp := s.pt }

/-- The routes without a port (R327). -/
def dropRoutes (routes : AMap Nat) (port : Nat) : AMap Nat :=
  (routes.map fun e => (e.1, if bitAt e.2 port then e.2 - 2 ^ port else e.2)).filter fun e => e.2 != 0

/-- The deferred access a thread has asked another package for at a location: its walk's, and its address (R67, R327). -/
def State.askedAt (s : State) (tid loc : Nat) : Option Entry :=
  match s.thr tid with
  | some t => t.block.head?.filter fun e =>
      t.walking && e.asked && !e.timed && match s.place t (e.op 0).toNat 8 .read 0 with
        | .ok l => l == loc
        | .error _ => false
  | none => none

/-- The sent loads and the deferred access of a thread whose request was in a flit that a port lost (R327). -/
def State.failLoads (s : State) (tid loc size : Nat) : State :=
  match s.askedAt tid loc with
  | some e => s.takeTrap tid ⟨19, 2, e.op 0⟩ e.pc false
  | none =>
    s.updThr tid fun t =>
      { t with block := t.block.map fun e =>
          if e.st == .sent && (s.sentLocs t e).any (fun x => x.2.1 == loc && x.2.2 == size) then e.fail (e.loadTrap 19 2 none) else e }

/-- An accepted store that can no longer be performed (R327): it ends its kernel, detail 3, and is never performed. -/
def State.loseStore (s : State) (id : Nat) : State :=
  match s.storeBuf.find? fun p => p.id == id with
  | some p => State.postFault { s with storeBuf := s.storeBuf.filter fun x => x.id != id } p ⟨19, 3, w64 p.va⟩
  | none => s

/-- A message in a flit whose port went Down before its acknowledgement (R327). -/
def State.loseMsg (s : State) (m : JMsg) : State :=
  match m with
  | .store id => s.loseStore id
  | .read who loc size => s.failLoads who loc size
  | .answer _ _ | .refusal => s

/-- A message that was still waiting at a port that went Down (R327): it leaves by another one, where one reaches its package. -/
def State.rerouteMsg (s : State) (m : JMsg) : State :=
  match m with
  | .store id =>
    match s.storeBuf.find? fun p => p.id == id with
    | some p => match s.portFor (dieOf p.v) p.loc with
      | some n => State.postMsg { s with storeBuf := s.storeBuf.map fun x => if x.id = id then { x with st := .sent n } else x }
          (dieOf p.v) p.loc m
      | none => s.loseStore id
    | none => s
  | .read who loc size =>
    match s.thr who with
    | some t => if (s.portFor (dieOf t.vcore) loc).isSome then s.postMsg (dieOf t.vcore) loc m else s.failLoads who loc size
    | none => s
  | .answer _ _ | .refusal => s

/-- A port goes Down (R327): its keys are erased, its routes removed; the requests of its unacknowledged flits fail, those
that waited take another port, and accepted stores to a package that no port reaches any more end their kernels. -/
def State.portDown (s : State) (port : Nat) : State :=
  let p := s.port port
  let s := State.setPort { s with routes := dropRoutes s.routes port, lastUp := s.pt, log := s.log ++ [.portDown port] } port .reset
  let s := p.replay.foldl (fun s f => s.loseMsg f.msg) s
  let s := p.outq.foldl State.rerouteMsg s
  (s.storeBuf.filter fun x => isRemote x.loc && x.st == .buffered && !s.reachable (dieOf x.v) (packageOf x.loc)).foldl
    (fun s x => s.loseStore x.id) s

/-- JORRAX_PORT_DOWN (R323, R327): the peer is lost. -/
def execJorraxPortDown (port : Nat) (s : State) : Host.Outcome State Fault Refusal :=
  if (s.port port).up then .next (State.seeFences (s.portDown port) s) else .next s

/-- Of two 40-bit sequence numbers, `seq` acknowledges `x` (R324, R325). -/
def acknowledges (seq x : Nat) : Bool := decide ((seq + 2 ^ 40 - x % 2 ^ 40) % 2 ^ 40 < 2 ^ 39)

/-- The sender's old key is erased once no flit under it is left to replay (R326). -/
def Port.settleRoll (p : Port) : Port :=
  if p.rolling && !(p.replay.any fun f => f.flit.slot.toNat != p.txSlot) then
    { p with txKeys := p.txKeys.set (1 - p.txSlot) none, rolling := false }
  else p

/-- A flit an acknowledgement frees. -/
def Sent.freed (f : Sent) (seq : Nat) : Bool := acknowledges seq f.flit.seq.toNat

/-- An acknowledgement frees the flits up to its SEQ (R325): the stores in them have reached their package, and waiting messages
are sent. -/
def State.acked (s : State) (port seq : Nat) : State :=
  let p := s.port port
  let got := p.replay.filter fun f => f.freed seq
  if got.isEmpty then s
  else
    let s := s.setPort port (Port.settleRoll { p with replay := p.replay.filter fun f => !f.freed seq, fails := 0 })
    State.pumpPort { s with
      storeBuf := s.storeBuf.map fun x => if got.any fun f => f.msg == .store x.id then { x with st := .delivered } else x } port

/-- The sender resends from its oldest unacknowledged flit (R325), byte for byte as it stands in the buffer; after 16 replays
of one flit that failed the port goes Down (R323). -/
def State.resend (s : State) (port : Nat) : State :=
  let p := s.port port
  if p.replay.isEmpty then s
  else if 16 ≤ p.fails then State.seeFences (s.portDown port) s
  else s.setPort port { p with fails := p.fails + 1, replay := p.replay.map fun f => { f with at_ := s.pt } }

/-- JORRAX_ACK (R325). -/
def execJorraxAck (port seq : Nat) (s : State) : Host.Outcome State Fault Refusal :=
  if (s.port port).up then .next (s.acked port seq) else .next s

/-- JORRAX_NAK (R325). -/
def execJorraxNak (port seq : Nat) (s : State) : Host.Outcome State Fault Refusal :=
  if (s.port port).up then .next ((s.acked port seq).resend port) else .next s

/-- JORRAX_REPLAY_TIMEOUT (R325): a flit has gone 1 µs without acknowledgement. -/
def execJorraxReplayTimeout (port : Nat) (s : State) : Host.Outcome State Fault Refusal :=
  let p := s.port port
  if p.up && p.replay.any fun f => decide (f.at_ + 1000 ≤ s.pt) then .next (s.resend port) else .next s

/-- The ACK or NAK a receiver answers with (R324, R325): sealed like any flit, ACKSEQ the SEQ of the last flit it accepted; it is not
replayed, so its own SEQ is none that a data flit takes (log 24). -/
def Port.answer (p : Port) (pkg : BitVec 16) (no : Nat) (type : BitVec 8) : Port :=
  let f := sealFlit p.txKey pkg no
    ⟨type, BitVec.ofNat 1 p.txSlot, BitVec.ofNat 8 p.ver, BitVec.ofNat 40 (p.rxSeq + 2 ^ 40 - 1), BitVec.ofNat 64 (2 ^ 63 + p.ctlSeq),
      Config.jorraxPayload []⟩
  { p with ctl := p.ctl ++ [f], ctlSeq := p.ctlSeq + 1 }

/-- The key under which a flit is authentic (R324 to R326): its version is the agreed one, its slot holds a key, and its tag is good
under it. -/
def Port.opens (p : Port) (f : Flit) : Option Nat :=
  match p.rxKeys.getD f.slot.toNat none with
  | some k =>
    if f.ver.toNat == p.ver && Config.gcmTag k (nonceOf p.peer p.peerPort f.seq) (flitHeader f.toFlitText) f.payload == f.tag then some k
    else none
  | none => none

/-- The key under which a data flit is accepted (R325): its SEQ is next, and it is authentic. -/
def Port.accepts (p : Port) (f : Flit) : Option Nat := if f.seq.toNat = p.rxSeq then p.opens f else none

/-- A port answers a flit (R325). -/
def State.answerFlit (s : State) (no : Nat) (p : Port) (type : BitVec 8) : State :=
  s.setPort no (p.answer (BitVec.ofNat 16 s.boot.package) no type)

/-- JORRAX_FLIT_RECEIVE (R324 to R326): a data flit that is accepted is delivered in clear and acknowledged, an authentic ACK or NAK
is acted on, and any other is dropped and answered NAK. The first data flit under the new slot erases the old key. -/
def execJorraxFlitReceive (port : Nat) (text : FlitText) (tag : BitVec 128) (s : State) : Host.Outcome State Fault Refusal :=
  let p := s.port port
  let flit : Flit := ⟨text, tag⟩
  if !p.up then .next s
  else match flit.type.toNat with
    | 1 =>
      match p.accepts flit with
      | some k =>
        let slot := flit.slot.toNat
        let p' : Port := { p with
          rxSeq := p.rxSeq + 1, rxSlot := slot, rxRolling := p.rxRolling && slot == p.rxSlot
          rxKeys := if slot = p.rxSlot then p.rxKeys else p.rxKeys.set p.rxSlot none }
        .next { s.answerFlit port p' 2 with
          jorraxIn := s.jorraxIn ++ [Config.gcmOpen k (nonceOf p.peer p.peerPort flit.seq) flit.payload] }
      | none => .next (s.answerFlit port p 3)
    | 2 => if (p.opens flit).isSome then execJorraxAck port flit.ackSeq.toNat s else .next (s.answerFlit port p 3)
    | 3 => if (p.opens flit).isSome then execJorraxNak port flit.ackSeq.toNat s else .next (s.answerFlit port p 3)
    | 4 => .next (if (p.opens flit).isSome then s else s.answerFlit port p 3)
    | _ => .next s

/-- A key slot holds a key its sender may need (R326): the slot in use, one that a flit to be replayed names, and at the receiver
the new key of a rollover that has not come into use. -/
def Port.needsKey (p : Port) (tx : Bool) (slot : Nat) : Bool :=
  p.up && (if tx then (p.txKeys.getD slot none).isSome && (slot == p.txSlot || p.replay.any fun f => f.flit.slot.toNat == slot)
    else (p.rxKeys.getD slot none).isSome && (slot == p.rxSlot || p.rxRolling))

/-- KEY_SLOT_WRITE (R326): a new key into a slot not in use; refused, with BUSY shown, where the sender may need the old one. -/
def execKeySlotWrite (port : Nat) (tx : Bool) (slot key : Nat) (s : State) : Host.Outcome State Fault Refusal :=
  let p := s.port port
  if 12 ≤ port || 2 ≤ slot then .next s
  else if p.needsKey tx slot then .next (s.setPort port { p with busy := true })
  else if tx then .next (s.setPort port { p with txKeys := p.txKeys.set slot (some key), busy := false })
  else .next (s.setPort port { p with rxKeys := p.rxKeys.set slot (some key), rxRolling := p.up, busy := false })

/-- KEY_SWITCH (R326): new data flits use the other slot, which holds a key. -/
def execKeySwitch (port : Nat) (s : State) : Host.Outcome State Fault Refusal :=
  let p := s.port port
  if p.up && !p.rolling && (p.txKeys.getD (1 - p.txSlot) none).isSome then
    .next (s.setPort port (Port.settleRoll { p with txSlot := 1 - p.txSlot, rolling := true }))
  else .next s

/-! ## Accesses from outside (R328, R330) -/

/-- The location a table entry in R328's layout maps an offset of its page to, where it permits the access. -/
def importLoc (e : Word) (off : Nat) (reads writes : Bool) : Option Nat :=
  let loc := pteFrame e + off % 65536
  if pteBit e 0 && (!reads || pteBit e 1) && (!writes || pteBit e 2) && (isSram loc || isLpddr loc) then some loc else none

/-- Import entries permit a source package, 0xFFFF every one (R328). -/
def importSrc (e : Word) (src : Nat) : Bool := fieldOf e 48 16 == src || fieldOf e 48 16 == 0xFFFF

/-- The links serve other agents: not once the boot chain has failed (R368), nor in a thermal trip (R352). -/
def State.serves (s : State) : Bool := s.boot.stage != 15 && !s.power.trip

/-- The die whose IO die answers for a location: its home, or the first of the four an IO die serves. -/
def dieAt (loc : Nat) : Nat := (homeDie loc).getD (4 * ioOf loc)

/-- A message back to another package, by a port that reaches it (R328). -/
def State.tellPackage (s : State) (src die : Nat) (m : JMsg) : State := s.postMsg die (0x400000000000 + src * 2 ^ 30) m

/-- The answer to an access of another package (R328); a line that fails its check value is not sent, but logged, and the answer
poisoned (R331, R332). -/
def State.answerTo (s : State) (src loc n val : Nat) : State :=
  let bad := (linesOf loc n).filter fun l => s.poison.contains l
  State.tellPackage { s with log := s.log ++ bad.map .egress } src (dieAt loc)
    (.answer (!bad.isEmpty) (if bad.isEmpty then val else 0))

/-- An atomic or counter add of another package at its home (R128, R143, R149): the new value is written and the old one
answered. A posted one is answered only where its line fails or it overflows, which ends its kernel there (log 24). -/
def State.remoteAtomic (s : State) (src loc : Nat) (val : Word) (posted ovf : Bool) : State :=
  let old := s.read loc 8
  let s := if s.bad loc 8 then s else s.write loc 8 val.toNat
  if posted && !ovf && !s.bad loc 8 then s else s.answerTo src loc 8 old

/-- The bytes of a remote access: the doubleword of an atomic, else as many as it names. -/
def remoteBytes (op : RemoteOp) (size : Nat) : Nat :=
  match op with
  | .load | .store => size
  | .cadd _ | .atomic _ _ | .acas _ => 8

/-- A remote access reads its location: it returns a value (R328). -/
def remoteReads (op : RemoteOp) : Bool :=
  match op with
  | .load | .acas _ => true
  | .store => false
  | .cadd posted | .atomic _ posted => !posted

/-- REMOTE_ACCESS (R128, R136, R151, R328): an access of another package within one page of the import table, performed at its home
here where the table permits it, answered where it returns a value, and refused to its source where the table does not permit
it; the check value of what it stores is made here (R331). -/
def execRemoteAccess (src : BitVec 16) (off : Nat) (op : RemoteOp) (size val : Nat) (s : State) : Host.Outcome State Fault Refusal :=
  let e := mapGet s.imports (bitsOf off 16 14) 0
  let writes := op ≠ .load
  let n := remoteBytes op size
  if !s.serves || n = 0 || 65536 < off % 65536 + n then .next s
  else match (if importSrc e src.toNat then importLoc e off (remoteReads op) writes else none) with
  | none => .next (s.tellPackage src.toNat (off / 2 ^ 28 * 4) .refusal)
  | some loc =>
    if writes && s.locked loc n then .next s
    else
      let old := s.read loc 8
      match op with
      | .load => .next (s.answerTo src.toNat loc n (s.read loc n))
      | .store => .next (s.write loc n val)
      | .cadd posted => .next (s.remoteAtomic src.toNat loc (w64 (counterAdd old val).1) posted (counterAdd old val).2)
      | .atomic k posted => .next (s.remoteAtomic src.toNat loc (atomicNew k (w64 old) (w64 val)) posted false)
      | .acas expect =>
        .next (if w64 old = expect then s.remoteAtomic src.toNat loc (w64 val) false false else s.answerTo src.toNat loc 8 old)

/-- COUNTER_WINDOW_WRITE (R144, R330, R367): an aligned 8-byte host write of n to a bound doorbell adds n to its counter; any
other, and any before stage 4, is discarded and logged, and so is an add whose counter cannot be reached. -/
def execCounterWindowWrite (off size : Nat) (val : Word) (s : State) : Host.Outcome State Fault Refusal :=
  let drop := Host.Outcome.next ({ s with log := s.log ++ [.counterDiscarded off] } : State)
  match mapGet? s.doorbells (off / 8) with
  | none => drop
  | some d =>
    let ctx := fieldOf (d.getD 0 0) 0 6
    let va := (d.getD 1 0).toNat
    if s.boot.stage < 3 || !s.serves || size ≠ 8 || off % 8 ≠ 0 || 65536 ≤ off || fieldOf (d.getD 0 0) 8 1 = 0 || !s.resident ctx then drop
    else match s.qpPlace 0 ctx va 8 .write 1 with
      | .error _ => drop
      | .ok loc =>
        if isReg loc || s.bad loc 8 then drop
        else
          let s := if (counterAdd (s.read loc 8) val.toNat).2 then { s with log := s.log ++ [.hostOverflow off] } else s
          .next ((s.qpTouch 0 ctx va .write).machineAdd s.nextId none ctx 0 0 loc va val.toNat)

/-- The location of one byte of the device memory window (R330). -/
def State.apertureLoc (s : State) (off : Nat) (write : Bool) : Option Nat :=
  importLoc (mapGet s.apertures (off / 65536) 0) off (!write) write

/-- What a host read is answered, none a poisoned completion (R330). -/
def State.hostAnswer (s : State) (v : Option Nat) : State := { s with hostReads := s.hostReads ++ [v] }

/-- A host read of a counter by its doorbell (R330): a failing line leaves as a poisoned completion and is logged (R332); where no
counter is bound or it cannot be reached the value is open (log 7). -/
def State.counterRead (s : State) (off : Nat) : State :=
  let none_ := let r := s.freeValue 9; r.2.hostAnswer (some r.1.toNat)
  match mapGet? s.doorbells (off / 8) with
  | none => none_
  | some d =>
    let ctx := fieldOf (d.getD 0 0) 0 6
    match (if fieldOf (d.getD 0 0) 8 1 = 1 && s.resident ctx then s.qpPlace 0 ctx (d.getD 1 0).toNat 8 .read 0 else .error ⟨0, 0, 0⟩) with
    | .error _ => none_
    | .ok loc =>
      if s.bad loc 8 then State.hostAnswer { s with log := s.log ++ [.egress (lineOf loc)] } none
      else s.hostAnswer (some (s.homeRead loc 8))

/-- A host read through the device memory window (R330): the bytes of pages with no entry that permits it are open (log 7). -/
def State.windowRead (s : State) (off n : Nat) : State :=
  let locs : List (Option Nat) := (List.range n).map fun i => s.apertureLoc (off + i) false
  let bad := (locs.filterMap id).filter fun l => s.bad l 1
  if !bad.isEmpty then State.hostAnswer { s with log := s.log ++ ((bad.map lineOf).eraseDups.map LogEntry.egress) } none
  else
    let r := s.freeValue 9
    r.2.hostAnswer (some (ofBytes (locs.zipIdx.map fun x => match x.1 with
      | some l => s.byteAt l
      | none => BitVec.ofNat 8 (r.1.toNat / 256 ^ x.2))))

/-- A host write through the device memory window (R136, R330): a byte with no entry that permits it is not written. -/
def State.windowWrite (s : State) (off : Nat) (bs : List Byte) : State :=
  let bytes : List (Nat × Byte) := bs.zipIdx.filterMap fun x => (s.apertureLoc (off + x.2) true).map fun l => (l, x.1)
  if bytes.any fun x => s.locked x.1 1 then s else (byteRuns bytes).foldl (fun s r => s.writeBytes r.1 r.2) s

/-! ## Time across packages (R101, R334) -/

/-- TIME_SYNC_EXCHANGE (R334): a package that is not its own time source trims its tick rate towards it, at most 5 ppm; one more than 1 µs from
it has lost its sync until its next module reset. `diff` is the time source's PT less this package's, in ns. -/
def execTimeSyncExchange (port : Nat) (diff : Int) (s : State) : Host.Outcome State Fault Refusal :=
  if !((s.port port).up && s.ptSet) then .next s
  else
    let far := decide (1000 < diff.natAbs)
    .next { s with
      trim := if s.boot.timeSource = s.boot.package then 0 else max (-5000) (min 5000 (1000 * diff)), ptFree := false
      ptLost := s.ptLost || far, log := if far && !s.ptLost then s.log ++ [.syncLost] else s.log }

/-- TIME_SYNC_LOSS (R334): 100 ms with no Up port, and PT runs free. -/
def execTimeSyncLoss (s : State) : Host.Outcome State Fault Refusal :=
  if s.ptSet && !s.ptFree && !(s.ports.any fun p => p.up) && decide (s.lastUp + 100000000 < s.pt) then
    .next { s with ptFree := true, trim := 0, log := s.log ++ [.syncLost] }
  else .next s

end Sys2Proof.Machine
end

