-- ==== Sys2Proof/Machine/Power.lean ====
section
/-!
DEFINITION. Sys2Proof/Machine/Power.lean: the power controller: readings, target, sheds and restores, the slope limit, guards
and temperature (20_power R335 to R353).
-/
namespace Sys2Proof.Machine

/-! ## Registers and curves (R337, R338) -/

def Power.safe (p : Power) : Nat := fieldOf p.pcfg 0 16
def Power.cap (p : Power) : Nat := fieldOf p.pcfg 16 16
def Power.slope (p : Power) : Nat := fieldOf p.pcfg 32 16
def Power.fmax (p : Power) : Nat := fieldOf p.pfuse 0 16
def Power.migt (p : Power) : Nat := fieldOf p.ptherm 0 8
def Power.thrt (p : Power) : Nat := fieldOf p.ptherm 8 8
def Power.tripAt (p : Power) : Nat := fieldOf p.ptherm 16 8
def Power.hystt (p : Power) : Nat := fieldOf p.ptherm 24 8
/-- The nominal mains frequency in mHz (R337 NOMF). -/
def Power.nominal (p : Power) : Int := if fieldOf p.pcfg 48 1 = 1 then 60000 else 50000

/-- The points of the frequency curve: signed deviation and power. -/
def Power.fPoints (p : Power) : List (Int × Nat) := p.pfpt.map fun w => (sextNat w.toNat 32, fieldOf w 32 16)
/-- The points of the voltage curve. -/
def Power.vPoints (p : Power) : List (Int × Nat) := p.pvpt.map fun w => (Int.ofNat (fieldOf w 0 32), fieldOf w 32 16)

/-- The points rise strictly (R338). -/
def rising (l : List (Int × Nat)) : Bool :=
  match l with
  | a :: b :: r => decide (a.1 < b.1) && rising (b :: r)
  | _ => true

/-- A curve's value at x between its points (R338): the straight line, rounded down to a whole watt. -/
def lineAt (l : List (Int × Nat)) (x : Int) : Nat :=
  match l with
  | a :: b :: r =>
    if x ≤ a.1 then a.2
    else if x < b.1 then (Int.fdiv (Int.ofNat a.2 * (b.1 - a.1) + (x - a.1) * (Int.ofNat b.2 - Int.ofNat a.2)) (b.1 - a.1)).toNat
    else lineAt (b :: r) x
  | [a] => a.2
  | [] => 0

/-- A curve's value; CAP where its points are disordered (R338). -/
def Power.curve (p : Power) (l : List (Int × Nat)) (x : Int) : Nat := if rising l then lineAt l x else p.cap

/-- The target of a reading (R339). -/
def Power.targetOf (p : Power) (freq vbus : Nat) : Nat :=
  if fieldOf p.pcfg 49 1 = 0 then p.cap
  else min (min (p.curve p.fPoints (Int.ofNat freq - p.nominal)) (p.curve p.vPoints (Int.ofNat vbus))) p.cap

/-- pstat (R337). -/
def Power.pstat (p : Power) : Word :=
  BitVec.ofNat 64 (p.target % 2 ^ 16 + p.shed % 16 * 2 ^ 16 + (if p.tloss then 2 ^ 20 else 0) + (if p.overcap then 2 ^ 21 else 0) +
    (if p.trip then 2 ^ 22 else 0) + (if rising p.fPoints && rising p.vPoints then 0 else 2 ^ 23) + p.pmeas % 2 ^ 16 * 2 ^ 24)

/-- The power controller changed. -/
def State.updPower (s : State) (f : Power → Power) : State := { s with power := f s.power }

/-! ## The clock (R340, R346, R352) -/

/-- A change of the arithmetic clock by one 25 MHz step, where it may be made and none is in progress. -/
def State.stepClock (s : State) (up : Bool) : Option State :=
  let mhz := if up then s.mhz + 25 else s.mhz - 25
  if s.clockChange.isNone && legalMhz mhz then some { s with clockChange := some (mhz, s.pt) } else none

/-- One step down for the cap (R340, R346). -/
def State.capDown (s : State) : State :=
  match s.stepClock false with
  | some s' => s'.updPower fun p => { p with capDrop := p.capDrop + 1 }
  | none => s

/-- One step that the cap took off given back (R340). -/
def State.capUp (s : State) : State :=
  if s.power.capDrop = 0 then s
  else match s.stepClock true with
    | some s' => s'.updPower fun p => { p with capDrop := p.capDrop - 1 }
    | none => s

/-! ## Shedding (R340, R341) -/

/-- The metered power of the shed classes. -/
def Power.shedPower (p : Power) : Nat :=
  ([1, 2, 3].map fun c => if bitAt p.shed c then p.meter.getD c 0 else 0).sum

/-- A class shed (R341): its threads in no group at their next point, the others at a completion or 1 ms from now. -/
def State.shedClass (s : State) (c : Nat) : State :=
  let s := s.updPower fun p => { p with
    shed := p.shed ||| 2 ^ c, shedMeter := p.shedMeter.set c (p.meter.getD c 0), shedAt := p.shedAt.set c s.pt }
  s.mapThr fun tid t =>
    if t.cls = c && !t.shed then
      { t with shedReq := some (if (s.groupsOf tid).isEmpty then s.pt else s.pt + 1000000) }
    else t

/-- The classes shed one at a time until T is met (R340): 3, then 2, then 1. -/
def State.shedAs (s : State) (order : List Nat) : State :=
  match order with
  | [] => s
  | c :: r =>
    if s.power.pmeas ≤ s.power.target + s.power.shedPower then s
    else (if bitAt s.power.shed c then s else s.shedClass c).shedAs r

/-- The shed decision (R340, R343): a new one ends a restore in progress, whose class is shed again. -/
def State.shedDecision (s : State) : State :=
  let s' := s.shedAs [3, 2, 1]
  if s'.power.shed = s.power.shed then s'
  else
    let s' := match s'.power.restoring with
      | some c => if bitAt s'.power.shed c then s' else s'.shedClass c
      | none => s'
    s'.updPower fun p => { p with restoring := none, restoreSince := none, restThr := 0 }

/-- A thread whose shed is due and that is at a point of R72 becomes Shed, its stream context drained: appends of its streams are
accepted first (R181). -/
def State.forceShed (s : State) (tid : Nat) : State :=
  match s.thr tid with
  | none => s
  | some t =>
    match t.shedReq with
    | some d => if d ≤ s.pt && t.atPoint && t.appends.isEmpty then s.shedThread tid else s
    | none => s

/-- SHED_FORCE_EXPIRY (R341): every thread whose shed is due is taken at a point of R72. -/
def execShedForceExpiry (s : State) : Host.Outcome State Fault Refusal :=
  .next ((s.threads.map fun e => e.1).foldl State.forceShed s)

/-! ## Restoring (R343) -/

/-- The next class to restore: the lowest one shed. -/
def Power.nextRestore (p : Power) : Option Nat := [1, 2, 3].find? fun c => bitAt p.shed c

/-- A shed is still pending. -/
def State.shedPending (s : State) : Bool := s.threads.any fun e => e.2.shedReq.isSome && e.2.placed

/-- T leaves room for the next class now, with the margin (R343). -/
def Power.roomToRestore (p : Power) : Bool :=
  match p.nextRestore with
  | some c => decide (p.pmeas + p.shedMeter.getD c 0 + fieldOf p.prest 0 16 ≤ p.target)
  | none => false

/-- The time since which T has left room, which must be HOLD long (R343); a further full HOLD begins once a restore is over. -/
def State.noteRestore (s : State) : State :=
  if s.power.restoring.isSome then s
  else s.updPower fun p => { p with
    restoreSince := if p.roomToRestore then (p.restoreSince.orElse fun _ => some s.pt) else none }

/-- A thread back from Shed (R107, R108, R259): the waits that expired meanwhile are decided first. -/
def State.unshed (s : State) (tid : Nat) : State :=
  (s.expireThread tid).updThr tid fun t => if t.shed then { t.flipTimer s.pt with shed := false } else t

/-- RESTORE_HOLD_EXPIRY (R343): after HOLD, with no shed pending, the threads of the class return to the states they held. -/
def execRestoreHoldExpiry (s : State) : Host.Outcome State Fault Refusal :=
  match s.power.nextRestore, s.power.restoreSince with
  | some c, some t0 =>
    if s.power.restoring.isNone && !s.shedPending && s.power.roomToRestore && decide (t0 + fieldOf s.power.prest 16 16 * 1000000 ≤ s.pt) then
      let mine := (s.threads.filter fun e => e.2.cls == c).map fun e => e.1
      let s := mine.foldl State.unshed s
      let s := s.mapThr fun _ t => if t.cls = c then { t with shedReq := none } else t
      .next (s.updPower fun p => { p with shed := p.shed - 2 ^ c, restoring := some c, restoreSince := some s.pt, upFrac := 0 })
    else .next s
  | _, _ => .next s

/-! ## Readings (R335 to R340, R344) -/

/-- A little-endian field of a Waisar frame's payload (R335). -/
def frameField (f : WaisarFrame) (off n : Nat) : Nat := ofBytes ((f.payload.drop off).take n)
/-- A frame the port takes in (R335): the local experimental EtherType, and the 46 bytes of its payload. -/
def frameValid (f : WaisarFrame) : Bool := f.etherType == 0x88B5 && f.payload.length == 46

/-- The reading is accepted (R336). -/
def Power.accepts (p : Power) (f : WaisarFrame) : Bool :=
  let seq := frameField f 2 2
  let vbus := frameField f 8 4
  let seqOk := match p.lastSeq with
    | none => true
    | some l => p.tloss || (decide (1 ≤ (seq + 65536 - l) % 65536) && decide ((seq + 65536 - l) % 65536 ≤ 1000))
  frameValid f && p.waisarVer != 0 && frameField f 0 1 == p.waisarVer && frameField f 1 1 == 1 && seqOk &&
  decide ((Int.ofNat (frameField f 4 4) - p.nominal).natAbs ≤ 5000) && decide (30000 ≤ vbus) && decide (vbus ≤ 70000) &&
  (f.payload.drop 12).all fun b => b == 0

/-- The clock's step for a reading (R340): down where T is not met with classes 1 to 3 shed, up once P + 50 W ≤ T. -/
def State.readingClock (s : State) : State :=
  let p := s.power
  if p.shed = 14 && p.target + p.shedPower < p.pmeas then s.capDown
  else if p.pmeas + 50 ≤ p.target && !p.overcap then s.capUp else s

/-- WAISAR_READING (R336, R339, R340): the target and the decisions of an accepted reading; any other frame is counted. -/
def execWaisarReading (frame : WaisarFrame) (s : State) : Host.Outcome State Fault Refusal :=
  if s.power.accepts frame then
    let s := s.updPower fun p => { p with
      target := p.targetOf (frameField frame 4 4) (frameField frame 8 4), lastSeq := some (frameField frame 2 2)
      lastReading := s.pt, tloss := false }
    .next s.shedDecision.readingClock.noteRestore
  else .next (s.updPower fun p => { p with discarded := p.discarded + 1 })

/-- WAISAR_VERSION_OFFER (R333, R335): a frame of TYPE 2 with the shelf's lowest and highest versions; any other is counted. -/
def execWaisarVersionOffer (etherType : BitVec 16) (payload : List (BitVec 8)) (s : State) : Host.Outcome State Fault Refusal :=
  let frame : WaisarFrame := ⟨etherType, payload⟩
  if !frameValid frame || frameField frame 1 1 ≠ 2 then .next (s.updPower fun p => { p with discarded := p.discarded + 1 })
  else match agreedVersion offered.1 offered.2 (frameField frame 4 1) (frameField frame 5 1) with
  | some v => .next (s.updPower fun p => { p with waisarVer := v })
  | none => .next { s.updPower (fun p => { p with waisarVer := 0 }) with log := s.log ++ [.versionFailure 2] }

/-- T under telemetry loss in µW (R344): lowered towards SAFE at SLOPE, one W in a ms being one µW in a ns, from where it was last
followed; it stays where SAFE is above. -/
def Power.lossTarget (p : Power) (pt : Nat) : Nat :=
  if p.lossT ≤ p.safe * 1000000 then p.lossT else max (p.safe * 1000000) (p.lossT - p.slope * (pt - p.lossAt))

/-- T brought up to date under telemetry loss, in whole watts rounded up. -/
def Power.settleLoss (p : Power) (pt : Nat) : Power :=
  if p.tloss && decide (p.lossAt ≤ pt) then
    { p with lossT := p.lossTarget pt, lossAt := pt, target := (p.lossTarget pt + 999999) / 1000000 }
  else p

/-- T follows R344 while telemetry is lost, with sheds as needed. -/
def State.followLoss (s : State) : State :=
  if s.power.tloss then (s.updPower fun p => p.settleLoss s.pt).shedDecision else s

/-- TELEMETRY_LOSS (R344): 20 ms without an accepted reading. -/
def execTelemetryLoss (s : State) : Host.Outcome State Fault Refusal :=
  let p := s.power
  if p.lastReading + 20000000 ≤ s.pt then
    let s := if p.tloss then s else
      s.updPower fun p => { p with tloss := true, lossAt := p.lastReading + 20000000, lossT := p.target * 1000000 }
    .next s.followLoss.noteRestore
  else .next s

/-! ## The slope limit and ballast (R345, R346) -/

/-- The power P may not pass but for an excess (R346). -/
def Power.limit (p : Power) : Nat := min p.target p.fmax

/-- An excess may run (R346): one that has begun for 2 ms; a new one where none has run, or P has stayed at or below the limit for
2 ms since. -/
def Power.excessOpen (p : Power) (pt : Nat) : Bool :=
  if p.overcap then decide (pt < p.overSince + 2000000) else p.overEnd == 0 || decide (p.overEnd + 2000000 ≤ pt)

/-- The ballast of a window from the draw it adds to (R345, R346): what holds the slope, bounded by 5 % over FMAX while an
excess may run and by the limit otherwise; none after a trip, nor with the bus out of range. -/
def Power.ballastFor (p : Power) (draw pt : Nat) : Nat :=
  if p.trip || p.slopeFree then 0
  else
    let hold := p.pmeas - p.slope / 10 - draw
    if p.excessOpen pt then min hold (p.fmax + p.fmax / 20 - draw) else min hold (p.limit - draw)

/-- What a window's end makes of the excess (R346): its start is logged, its end starts the 2 ms in which none may begin. -/
def State.noteExcess (s : State) (pNow ballast : Nat) : State :=
  let p := s.power
  let beyond := decide (p.limit < pNow)
  if beyond && ballast != 0 then
    if p.overcap then s
    else { s.updPower (fun p => { p with overcap := true, overSince := s.pt }) with log := s.log ++ [.overcap] }
  else if p.overcap then s.updPower fun p => { p with overcap := false, overEnd := s.pt }
  else if beyond && p.overEnd != 0 then s.updPower fun p => { p with overEnd := s.pt }
  else s

/-- The ballast of the cluster pairs in a window (R347): within the limit. -/
def Power.pairBallastFor (p : Power) (draw : Nat) : Nat := min ((p.pairBallast.map fun e => e.2).sum) (p.limit - draw)

/-- What the issue throttle holds back of the class being restored (R343): its rise beyond UPSLOPE, of which a window takes `rise`;
a rise from any other cause is not limited. -/
def Power.heldBack (p : Power) (meter : List Nat) (rise : Nat) : Nat :=
  match p.restoring with
  | some c => meter.getD c 0 - (p.meter.getD c 0 + rise)
  | none => 0

/-- The ac of every 8 withheld while a class is restored (R343, log 28): one more after each window in which its rise had to be held,
at most 7, one less after any other. -/
def Power.nextRestThr (p : Power) (held : Nat) : Nat :=
  if p.restoring.isNone then 0 else if held = 0 then p.restThr - 1 else min 7 (p.restThr + 1)

/-- POWER_WINDOW_END (R343, R345 to R347): `watts` is what the module would draw without ballast and `meter` each class's part. While
a class is restored the throttle holds its rise to UPSLOPE, a tenth of it in each window; the restore is over once nothing is
held back. -/
def execPowerWindowEnd (watts : Nat) (meter : List Nat) (s : State) : Host.Outcome State Fault Refusal :=
  let p := s.power
  if s.pt / 100000 ≤ p.winAt then .next s
  else
    let up := max 1 (fieldOf p.prest 32 16) + p.upFrac
    let held := p.heldBack meter (up / 10)
    let bare := watts - held
    let pair := p.pairBallastFor bare
    let draw := bare + pair
    let ballast := p.ballastFor draw s.pt
    let now := draw + ballast
    let whole := match p.restoreSince with
      | some t0 => decide (t0 + 100000 ≤ s.pt)
      | none => true
    let beyond := p.restoring.isSome && whole && held == 0
    let s := s.noteExcess now ballast
    let s := s.updPower fun p => { p with
      pmeas := now, ballast := ballast, pairIn := pair, upFrac := if p.restoring.isSome then up % 10 else 0, winAt := s.pt / 100000
      meter := (List.range 4).map fun c => meter.getD c 0 - (if p.restoring = some c then held else 0)
      restThr := if beyond then 0 else p.nextRestThr held, restoring := if beyond then none else p.restoring, restoreSince := if beyond then none else p.restoreSince }
    let s := if s.power.overcap then s.capDown else s
    .next s.followLoss.noteRestore

/-- OVERCAP_END (R346): after 2 ms the cap wins over the slope. -/
def execOvercapEnd (s : State) : Host.Outcome State Fault Refusal :=
  let p := s.power
  if p.overcap && decide (p.overSince + 2000000 ≤ s.pt) then
    .next (s.updPower fun p => { p with overcap := false, overEnd := s.pt, ballast := min p.ballast (p.limit - (p.pmeas - p.ballast)) })
  else .next s

/-- RACK_BUS_OUT_OF_RANGE (R20, R345): outside 44 to 58 V the power falls without the slope limit; back inside, it holds. -/
def execRackBusOutOfRange (mv : Nat) (s : State) : Host.Outcome State Fault Refusal :=
  .next (s.updPower fun p => { p with slopeFree := decide (mv < 44000) || decide (58000 < mv) })

/-! ## Cluster pairs and guards (R347 to R351) -/

/-- Two currents are within 10 % (R347). -/
def balanced (a b : Nat) : Bool := decide (10 * (max a b - min a b) ≤ max a b)

/-- The ac of every 8 to withhold from the heavier cluster, of which `now` are withheld already (R347, R348): the fewest that
balance the pair, at most 7. -/
def throttleFor (heavy light now : Nat) : Nat :=
  ((List.range 8).find? fun n => decide (now ≤ n) &&
    (balanced (heavy * (8 - n) / (8 - now)) light || decide (heavy * (8 - n) / (8 - now) ≤ light))).getD 7

/-- An entry of a store of numbers, none where it is 0. -/
def mapPut (m : AMap Nat) (k n : Nat) : AMap Nat := if n = 0 then mapErase m k else mapSet m k n

/-- CLUSTER_PAIR_CURRENT_SAMPLE (R347): what balances a pair stays; where the pair is out of balance, what weighs on the heavier
cluster goes first, ballast or a throttle of the other; then ballast on the lighter cluster where that keeps P within the
limit, else the throttle on the heavier one. -/
def execClusterPairCurrentSample (die k ia ib : Nat) (s : State) : Host.Outcome State Fault Refusal :=
  let a := die * 16 + 2 * k
  let p := s.power
  if balanced ia ib then .next s
  else
    let heavy := if ia < ib then a + 1 else a
    let light := if ia < ib then a else a + 1
    let onHeavy := mapGet p.pairBallast heavy 0
    let need := (9 * max ia ib + 9) / 10 - min ia ib
    if onHeavy ≠ 0 then .next (s.updPower fun p => { p with pairBallast := mapPut p.pairBallast heavy (onHeavy - need) })
    else if mapGet p.throttle light 0 ≠ 0 then
      .next (s.updPower fun p => { p with throttle := mapPut p.throttle light (mapGet p.throttle light 0 - 1) })
    else if p.pmeas + need ≤ p.limit then
      .next (s.updPower fun p => { p with pairBallast := mapPut p.pairBallast light (mapGet p.pairBallast light 0 + need) })
    else
      .next (s.updPower fun p => { p with
        throttle := mapPut p.throttle heavy (throttleFor (max ia ib) (min ia ib) (min 7 (mapGet p.throttle heavy 0))) })

/-- The ac of every 8 that the issue throttle withholds from a cluster's cores (R343, R347, R348, R352): at most 7. -/
def Power.withheld (p : Power) (cluster : Nat) : Nat :=
  min 7 (max (mapGet p.throttle cluster 0) (max p.restThr (if p.hot.contains cluster then 4 else 0)))

/-- DROOP_DETECT (R349): the cluster's next cycle is stretched to twice its length, so that one ac of the package is lost to it; the
stretched cycle counts as one. -/
def execDroopDetect (cluster : Nat) (s : State) : Host.Outcome State Fault Refusal :=
  if mapGet s.power.stretch cluster 0 = s.ac + 1 then .next s
  else .next (s.updPower fun p => { p with
    stretch := mapSet p.stretch cluster (s.ac + 1), lag := mapSet p.lag cluster (mapGet p.lag cluster 0 + 1) })

/-- CANARY_WARNING (R350): 5 mV up, to at most 50 mV. -/
def execCanaryWarning (cluster : Nat) (s : State) : Host.Outcome State Fault Refusal :=
  .next (s.updPower fun p => { p with
    canary := mapSet p.canary cluster (min 50 (mapGet p.canary cluster 0 + 5)), canaryAt := mapSet p.canaryAt cluster s.pt })

/-- CANARY_STEP_DOWN (R350): 5 mV down for each ms with no warning. -/
def execCanaryStepDown (cluster : Nat) (s : State) : Host.Outcome State Fault Refusal :=
  let n := mapGet s.power.canary cluster 0
  if n ≠ 0 && mapGet s.power.canaryAt cluster 0 + 1000000 ≤ s.pt then
    .next (s.updPower fun p => { p with
      canary := if n ≤ 5 then mapErase p.canary cluster else mapSet p.canary cluster (n - 5)
      canaryAt := mapSet p.canaryAt cluster s.pt })
  else .next s

/-- A unit has nothing to do (R351): 0 the core, else an engine by its number plus one, 7 the stream engine. A Ladle is one for its
cluster. -/
def State.unitIdle (s : State) (v unit : Nat) : Bool :=
  if unit = 0 then s.coreIdle v
  else if unit = 7 then (s.vc v).resident.isEmpty
  else !(s.cmds.any fun c => c.eng.no + 1 == unit && c.units_.contains v)

/-- A unit that is power-gated (R351): a core, matrix unit, copy engine, Ladle or stream engine. -/
def gateable (unit : Nat) : Bool := [0, 1, 2, 3, 7].contains unit

/-- POWER_GATE (R351, R113): an idle unit is gated where its predictor says that it pays, a core only once it is clock-gated; no
architectural state changes. -/
def execPowerGate (v unit : Nat) (s : State) : Host.Outcome State Fault Refusal :=
  if gateable unit && s.unitIdle v unit && (unit != 0 || (s.vc v).clockGated) && Config.gateWorth v unit s.pt then
    .next (s.updVc v fun c => { c with powerGated := setInsert c.powerGated unit })
  else .next s

/-! ## Temperature (R352) -/

/-- SENSOR_READ (R352): the thresholds applied to a core's temperature in °C. From a trip on every arithmetic clock stands and
LPDDR-6 is in self-refresh, until a module reset. -/
def execSensorRead (v temp : Nat) (s : State) : Host.Outcome State Fault Refusal :=
  let p := s.power
  let before := mapGet p.temps v 0
  let temps := mapSet p.temps v temp
  let cool := temps.all fun e => decide (e.2 + p.hystt < p.thrt)
  let hot := if p.thrt ≤ temp then setInsert p.hot (clusterOf v) else if cool then [] else p.hot
  let s := s.updPower fun p => { p with temps := temps, hot := hot }
  let s := if p.migt ≤ temp && before < p.migt then State.report s ⟨2, 0, v, 0, 0, 0, w64 temp, s.pt⟩ else s
  if p.tripAt ≤ temp && !p.trip then
    .next (State.interrupt { s.updPower (fun p => { p with trip := true }) with log := s.log ++ [.trip v] } 256)
  else .next s

/-- THERMAL_CLOCK_STEP (R352): one 25 MHz step per 100 µs, down while any sensor is at or above THRT, back up once every one
is below THRT − HYSTT. -/
def execThermalClockStep (s : State) : Host.Outcome State Fault Refusal :=
  let p := s.power
  if s.pt < p.thermAt + 100000 then .next s
  else if p.temps.any fun e => decide (p.thrt ≤ e.2) then
    match s.stepClock false with
    | some s' => .next (s'.updPower fun p => { p with thermDrop := p.thermDrop + 1, thermAt := s.pt })
    | none => .next s
  else if p.hot.isEmpty && p.thermDrop ≠ 0 then
    match s.stepClock true with
    | some s' => .next (s'.updPower fun p => { p with thermDrop := p.thermDrop - 1, thermAt := s.pt })
    | none => .next s
  else .next s

end Sys2Proof.Machine
end

