-- ==== Sys2Proof/Machine/Debug.lean ====
section
/-!
DEFINITION. Sys2Proof/Machine/Debug.lean: the issue arbiter of a core (04_threads R75), trace marks and the sampling pulse
(21_debug R354 to R360).
-/
namespace Sys2Proof.Machine

/-! ## The arbiter (R75) -/

/-- A request is due at a thread that is at a point of R72 (R302, R305, R341): it goes before the thread's next issue. -/
def State.requestDue (s : State) (t : Thread) : Bool :=
  t.atPoint && !t.heldLight &&
  (t.preempt || (match t.migrate with
    | some (_, from_, false) => decide (from_ ≤ s.pt)
    | _ => false) || match t.shedReq with
    | some d => decide (d ≤ s.pt)
    | none => false)

/-- A thread may be given an ac: Ready, not shed, no request due, its kernel not ending (R64, R72, R287). -/
def State.eligible (s : State) (t : Thread) : Bool :=
  t.run == .ready && !t.shed && !s.requestDue t && match t.kernel.bind s.kern with
    | some kn => kn.st != .faulting && kn.st != .ending
    | none => true

/-- The slots of a core that may issue, in increasing order. -/
def State.readySlots (s : State) (v : Nat) : List (Nat × Thread) :=
  (List.range 8).filterMap fun sl => match s.inSlot v sl with
    | some (_, t) => if s.eligible t then some (sl, t) else none
    | none => none

/-- The first slot of an increasing list after another one, going round. -/
def nextAfter (l : List Nat) (last : Nat) : Option Nat := (l.find? fun x => decide (last < x)).orElse fun _ => l.head?

/-- Class-0 issues by priority in the current window of 8 ac (R75). -/
def VCore.prioUsed (c : VCore) (ac : Nat) : Nat := if c.prioWin = ac / 8 then c.prioCount else 0

/-- The slot a core issues from next, and whether it wins by priority (R75). -/
def State.pickSlot (s : State) (v : Nat) : Option (Nat × Bool) :=
  let ready := s.readySlots v
  let zero := (ready.filter fun x => x.2.cls == 0).map fun x => x.1
  let c := s.vc v
  if !zero.isEmpty && c.prioUsed s.ac < 4 then (nextAfter zero c.prioLast).map fun x => (x, true)
  else (nextAfter (ready.map fun x => x.1) c.rrLast).map fun x => (x, false)

/-- The arbiter after a slot has won (R75). A round-robin win of a class-0 slot does not move the turn of the priority wins: DESIGN
CHOICE (log 36). -/
def State.noteWin (s : State) (v : Nat) (w : Nat × Bool) : State :=
  s.updVc v fun c =>
    if w.2 then { c with prioLast := w.1, prioWin := s.ac / 8, prioCount := c.prioUsed s.ac + 1 } else { c with rrLast := w.1 }

/-- The slot that issued in the current ac of a core. -/
def State.issuedIn (s : State) (v : Nat) : Option Nat :=
  match mapGet? s.dbg.issuedNow v with
  | some n => if n / 8 = s.ac then some (n % 8) else none
  | none => none

/-! ## Trace marks (R359) -/

/-- TMARK (R359): a record of KIND 1 where the trace is enabled. -/
def execTmark (rs1 : Reg) (mark : Bool) (s : State) : Host.Outcome State Fault Refusal :=
  s.threadOp (.tmark rs1 mark) (deferredForm [rs1] [] mark) (deferBody [rs1]) fun s tid t e =>
    (s.traceRecord 1 t.vcore t.slot t.ctx (fieldOf (e.op 0) 0 32)).finish tid e []

/-! ## The sampling pulse (R356 to R358) -/

/-- An imago entry (R357). -/
def imagoEntry (t : Thread) (sl state : Nat) : Nat :=
  let ipc := bitsOf (t.showPc - 0x2000000).toNat 2 13
  ipc + sl * 2 ^ 13 + state * 2 ^ 16 + (if state = 4 then t.waitClass * 2 ^ 20 else 0) + t.ctx % 64 * 2 ^ 24 + t.cls % 4 * 2 ^ 30

/-- The state of an occupied slot as item 3 of R356 shows it. -/
def Thread.imagoState (t : Thread) : Nat :=
  if t.shed then 5 else match t.run with
    | .ready => 2
    | .block => 3
    | .wait => 4

/-- The thread of a slot's bank, one being filled counted (R356). -/
def State.bankThread (s : State) (v sl : Nat) : Option Thread :=
  match (s.vc v).banks.getD sl .empty with
  | .filling tid _ => s.thr tid
  | _ => (s.inBank v sl).map fun x => x.2

/-- The entry of a core at a pulse, none where its slots and banks are empty (R356); while the clock is stalled none issues. -/
def State.coreEntry (s : State) (v : Nat) : Option Nat :=
  let first : Option (Nat × Thread) := (List.range 8).findSome? fun sl => (s.inSlot v sl).map fun x => (sl, x.2)
  let slotThread := fun (sl : Nat) => (s.inSlot v sl).map fun x => x.2
  match first with
  | none => (List.range 4).findSome? fun sl => (s.bankThread v sl).map fun t => imagoEntry t sl 6
  | some (sl3, t3) =>
    if (s.vc v).clockGated || (s.vc v).powerGated.contains 0 then some (imagoEntry t3 sl3 7)
    else match (if s.stalled then none else s.issuedIn v).bind fun sl => (slotThread sl).map fun t => (sl, t) with
      | some (sl, t) => some (imagoEntry t sl 1)
      | none => match (s.pickSlot v).bind fun w => (slotThread w.1).map fun t => (w.1, t) with
        | some (sl, t) => some (imagoEntry t sl 2)
        | none => some (imagoEntry t3 sl3 t3.imagoState)

/-- Bytes of a number. -/
def numBytes (n val : Nat) : List Byte := bytesOf val n

/-- A die record (R358). -/
def State.dieRecord (s : State) (pt die : Nat) : List Byte :=
  let es : List (Option Nat) := (List.range 256).map fun n => s.coreEntry (die * 256 + n)
  let present := es.filterMap id
  let map := (List.range 256).foldl (fun m n => if (es.getD n none).isSome then m + 2 ^ n else m) 0
  numBytes 8 pt ++ numBytes 2 die ++ numBytes 2 present.length ++ numBytes 20 0 ++ numBytes 32 map ++
    present.flatMap (numBytes 4)

/-- A package record (R358); every die is present. -/
def State.packageRecord (s : State) (pt seq : Nat) : List Byte :=
  numBytes 8 pt ++ numBytes 8 seq ++ numBytes 48 0xFFFF ++ (List.range 16).flatMap fun d => s.dieRecord pt d

/-- A record into the imago ring, dropped and counted where no slot is free (R355, R358). -/
def State.imagoRecord (s : State) (pt seq : Nat) : State :=
  let base := fieldOf s.dbg.dimago 6 42 * 64
  let slots := fieldOf s.dbg.dimago 48 8
  let p := s.read base 8
  if slots = 0 then s
  else if slots ≤ p - s.read (base + 8) 8 then { s with dbg := { s.dbg with idrop := min (s.dbg.idrop + 1) 0xFFFFFFFF } }
  else (s.writeBytes (base + 64 + p % slots * 32768) (s.packageRecord pt seq)).write base 8 (counterAdd p 1).1

/-- The PT of the next pulse, none while pulses are off (R356). -/
def Debug.nextPulse (d : Debug) : Option Nat :=
  let per := fieldOf d.dsamp 0 32 * 1000
  if per = 0 then none else some ((d.lastPulse / per + 1) * per)

/-- A pulse fires (R356): the entries of the ac that holds it. -/
def State.firePulse (s : State) (at_ : Nat) : State :=
  let s' := s.imagoRecord at_ s.dbg.pulses
  { s' with dbg := { s'.dbg with pulses := s.dbg.pulses + 1, lastPulse := at_ } }

/-- A class-0 thread of a core is Ready and has not issued in the last 7 ac, so that no ac is withheld from it (R348). -/
def State.classZeroDue (s : State) (v : Nat) : Bool :=
  (s.readySlots v).any fun x => x.2.cls == 0 && (x.2.issuedAt == 0 || decide (x.2.issuedAt + 6 < s.ac))

/-- The power controller withholds this ac from a core: the issue throttle its first ones in every 8 (R348, log 28), a droop the
one that a stretched cycle takes (R349). -/
def State.withholds (s : State) (v : Nat) : Bool :=
  let c := clusterOf v
  (decide (s.ac % 8 < s.power.withheld c) && !s.classZeroDue v) || (s.ac != 0 && mapGet s.power.stretch c 0 == s.ac)

/-- A core has no issue left in this ac: it has issued, or none may. -/
def State.coreDone (s : State) (v : Nat) : Bool :=
  s.stalled || (s.issuedIn v).isSome || s.withholds v || (s.pickSlot v).isNone

/-- No core has an issue left in this ac. -/
def State.acDone (s : State) : Bool := s.threads.all fun e => !e.2.placed || s.coreDone e.2.vcore

/-- SAMPLING_PULSE (R356): at each PT that is a multiple of PERIOD × 1,000 ns, one after the other, the issues of the ac that holds it
being made first. -/
def execSamplingPulse (s : State) : Host.Outcome State Fault Refusal :=
  match s.dbg.nextPulse with
  | some p => if p < s.pt || (p = s.pt && s.acDone) then .next (s.firePulse p) else .next s
  | none => .next s

/-- The cycle that holds a PT on the way to a later one. -/
def State.acAt (s : State) (p pt ac : Nat) : Nat := s.ac + (p - s.pt) * (ac - s.ac) / (pt - s.pt)

/-- The pulses before a later PT, fired as time passes to it with nothing else happening on the way, each with the cycle that holds it
(R356). -/
def State.pulsesUntil (s : State) (pt ac : Nat) : State :=
  let per := fieldOf s.dbg.dsamp 0 32 * 1000
  if per = 0 then s
  else (List.range ((pt - 1) / per - s.dbg.lastPulse / per)).foldl (fun s _ => match s.dbg.nextPulse with
    | some p => { State.firePulse { s with ac := s.acAt p pt ac } p with ac := s.ac }
    | none => s) s

end Sys2Proof.Machine
end

