-- ==== Sys2Proof/Machine/Bringup.lean ====
section
/-!
DEFINITION. Sys2Proof/Machine/Bringup.lean: module reset and the boot chain, attestation, and soft errors (22_bringup R367 to
R372, 19_links R331).
-/
namespace Sys2Proof.Machine

/-! ## Module reset (R367) -/

/-- A location of the crash area (R298): the last 16 KiB of each die's SRAM. -/
def isCrash (loc : Nat) : Bool := isSram loc && decide (0x4000000 - 0x4000 ≤ loc % 0x4000000)

/-- A location whose bytes a module reset leaves (R298, R367): the crash area and LPDDR-6, unless power was off; what is not
this module's. -/
def keptByReset (powerOn : Bool) (loc : Nat) : Bool :=
  isRemote loc || isHost loc || (!powerOn && (isCrash loc || isLpddr loc))

/-- MODULE_RESET (R367): stage 0. The fuses stay; everything else is at its reset value. -/
def execModuleReset (powerOn : Bool) (s : State) : Host.Outcome State Fault Refusal :=
  .next { State.reset with
    mem := s.mem.filter fun c => keptByReset powerOn c.1
    poison := s.poison.filter fun l => keptByReset powerOn (l * 64)
    boot := { Boot.reset with
      minsvn := s.boot.minsvn, rootKey := s.boot.rootKey, idIndex := s.boot.idIndex, harvest := s.boot.harvest }
    agenda := s.agenda, cur := s.cur, pick := s.pick, free := s.free, nextId := s.nextId }

/-! ## The boot chain (R367 to R369) -/

/-- The body of an image as numbers: everything the chain takes from it (R368, R369). -/
def FirmImage.body (img : FirmImage) : List Nat :=
  let bytes := fun (l : List Byte) => l.length :: l.map fun b => b.toNat
  img.supKeyHash :: img.vcore :: bytes img.stub ++ bytes img.tcmStub ++ (img.desc.map fun w => w.toNat) ++ bytes img.code

/-- Header and body, which the signature covers (R368). -/
def FirmImage.signed (img : FirmImage) : List Nat := [img.magic, img.svn.toNat, img.length] ++ FirmImage.body img

/-- Why an image is not accepted (R368, R369, R370): 3 its header, `sig` its key or signature, 2 its SVN. -/
def FirmImage.error (img : FirmImage) (key minsvn sig : Nat) : Option Nat :=
  if !Config.headerOk img.magic img.length (FirmImage.body img) then some 3
  else if Config.sha256 [img.pubKey] ≠ key || !Config.lmsValid img.pubKey (FirmImage.signed img) img.signature then some sig
  else if img.svn.toNat < minsvn then some 2 else none

/-- The boot chain has failed (R368, R369): STAGE 15. -/
def State.bootFail (s : State) (err : Nat) : State :=
  { s with boot := { s.boot with stage := 15, err := err }, log := s.log ++ [.bootFailed err] }

/-- FIRMWARE_VERIFY (R367, R368): stage 1, slot 0 and then slot 1. -/
def execFirmwareVerify (slot : Nat) (img : FirmImage) (s : State) : Host.Outcome State Fault Refusal :=
  let b := s.boot
  if b.stage ≠ 0 || slot ≠ b.tried then .next s
  else match Sys2Proof.Machine.FirmImage.error img b.rootKey b.minsvn 1 with
    | none =>
      .next { s with boot := { b with
        stage := 1, err := 0, slot := slot, fwsvn := img.svn.toNat, supKey := img.supKeyHash
        fwHash := Config.sha256 (FirmImage.signed img) } }
    | some e =>
      if slot = 0 then .next { s with boot := { b with tried := 1, err := e } } else .next (s.bootFail e)

/-- The time source of a package (R334): the lowest-numbered package among itself and those it can reach. -/
def LinkInfo.timeSource (info : LinkInfo) : Nat := (info.reach.map fun p => p.toNat).foldl min info.package.toNat

/-- The PT a package begins with (R101, R334): a neighbour's where it is not its own time source and a port is Up, else the
reference count as it stands. -/
def State.firstPt (s : State) (info : LinkInfo) : Nat :=
  if LinkInfo.timeSource info = info.package.toNat || !(s.ports.any fun p => p.up) then s.pt
  else (info.startPt.map fun w => w.toNat).getD s.pt

/-- LINK_BRINGUP (R101, R333, R334, R367): stage 2; the versions are agreed, the numbers assigned and PT is established. -/
def execLinkBringup (info : LinkInfo) (s : State) : Host.Outcome State Fault Refusal :=
  if s.boot.stage ≠ 1 then .next s
  else if !info.trained then .next (s.bootFail 4)
  else match agreedVersion offered.1 offered.2 info.hostLo info.hostHi, agreedVersion offered.1 offered.2 info.waisarLo info.waisarHi with
    | some h, some w =>
      let pt := s.firstPt info
      .next { s with
        pt := pt, ptSet := true, lastUp := pt
        boot := { s.boot with
          stage := 2, package := info.package.toNat, waisarNode := info.node, hostVer := h, timeSource := LinkInfo.timeSource info }
        power := { s.power with waisarVer := w, lastReading := pt, thermAt := pt, winAt := pt / 100000 } }
    | h, _ => .next (State.bootFail { s with log := s.log ++ [.versionFailure (if h.isNone then 0 else 2)] } 5)

/-- The stub in the first 1 KiB of the I-store and of the TCM of every core (R298). -/
def State.loadStubs (s : State) (img : FirmImage) : State :=
  (List.range 4096).foldl
    (fun s v => (s.writeBytes (istLoc v 0) (img.stub.take 1024)).writeBytes (tcmLoc v 0) (img.tcmStub.take 1024)) s

/-- SUPERVISOR_VERIFY (R367, R369): stage 3; the stubs are loaded, and the supervisor starts in context 0. -/
def execSupervisorVerify (img : FirmImage) (s : State) : Host.Outcome State Fault Refusal :=
  if s.boot.stage ≠ 2 then .next s
  else match Sys2Proof.Machine.FirmImage.error img s.boot.supKey s.boot.minsvn 6 with
    | some e => .next (s.bootFail e)
    | none =>
      let s := s.loadStubs img
      let desc := (List.range 8).map fun n => maskWord (img.desc.getD n 0) (ctxMask n)
      let s := { s with
        ctxs := mapSet s.ctxs 0 ⟨desc, false⟩, boot := { s.boot with stage := 3, supHash := Config.sha256 (FirmImage.signed img) } }
      .next (s.startThread (s.freshThread img.vcore 0 0 0 none false false 0x2000000 []))

/-! ## Attestation and soft errors (R331, R371, R372) -/

/-- Identity signatures left (R370, R371). -/
def Boot.sigLeft (b : Boot) : Nat := 32768 - b.idIndex

/-- bstat (R370). -/
def Boot.bstat (b : Boot) : Word :=
  BitVec.ofNat 64 (b.stage % 16 + b.err % 256 * 2 ^ 4 + b.slot % 2 * 2 ^ 12 + b.fwsvn % 65536 * 2 ^ 16 +
    b.minsvn % 65536 * 2 ^ 32 + min b.sigLeft 0xFFFF * 2 ^ 48)

/-- ATTESTATION_REQUEST (R371, R372): the index advances, then the report is signed with it by the boot ROM's
routine, at any stage; REFUSED once it is exhausted. -/
def execAttestationRequest (nonce : BitVec 256) (s : State) : Host.Outcome State Fault Refusal :=
  let b := s.boot
  if b.sigLeft = 0 then .next { s with boot := { b with refused := true, attest := none } }
  else
    let harvest := b.harvest.foldl (fun m n => m ||| 2 ^ n) 0
    let report := [nonce.toNat, 0x7740, isaver.toNat, b.fwsvn, b.minsvn, b.fwHash, b.supHash, harvest, s.power.pfuse.toNat,
      fieldOf s.power.pfuse 32 8, b.idIndex]
    .next { s with boot := { b with
      idIndex := b.idIndex + 1, refused := false, attest := some (report ++ [Config.attestSign report]) } }

/-- SOFT_ERROR (R331): a stored line of the module fails its check value from now on; nothing is written. -/
def execSoftError (line : Nat) (s : State) : Host.Outcome State Fault Refusal :=
  let loc := line * 64
  if isSpad loc || isIst loc || isTcm loc || isSram loc || isLpddr loc then
    .next { s with poison := setInsert s.poison line }
  else .next s

end Sys2Proof.Machine
end

