-- ==== Sys2Proof/Machine/Registers.lean ====
section
/-!
DEFINITION. Sys2Proof/Machine/Registers.lean: writes of device and management registers (17_contexts R292, R302, 19_links R328,
R330, 20_power R337, 21_debug R354, R361), and the acceptance of stores, which may write them (04_threads R68).
-/
namespace Sys2Proof.Machine

/-! ## The supervisor's windows -/

/-- The state an event leaves; where it has none, the state before. -/
def State.run (s : State) (f : State → Host.Outcome State Fault Refusal) : State :=
  match f s with
  | .next s' => s'
  | _ => s

/-- A write of a slot control register (R302): each command bit asks for its step. -/
def State.slotCommand (s : State) (v sl : Nat) (w : Word) : State :=
  let on := fun (n : Nat) (f : State → Host.Outcome State Fault Refusal) (s : State) => if w.getLsbD n then s.run f else s
  on 6 (execResume v sl) (on 5 (execSwapin v sl) (on 4 (execFill v sl) (on 3 (execSpill v sl)
    (on 1 (execMigrate v sl (w.getLsbD 2)) (on 0 (execPreempt v sl) s)))))

/-- A table with one doubleword of an entry written. -/
def tableSet (m : AMap (List Word)) (k size n : Nat) (w : Word) : AMap (List Word) :=
  mapSet m k (((List.range size).map fun i => tableWord m k i).set n w)

/-- Bits of a communicator entry's first doubleword that hold a field (R3, R292). -/
def commMask : Nat := 0xFFFF013F

/-- A doubleword written to a device register (R3, R292, R302, R328, R330, R361); none where no rule gives the address
contents. A queue is registered when the last doubleword of its descriptor is written. -/
def State.regWrite (s : State) (pa : Nat) (w : Word) : Option State :=
  let off := pa % 0x1000000
  let dw := pa / 8 % 8
  if (s.regRead pa).isNone then none
  else match pa / 0x1000000 with
  | 0xFF0002 =>
    let v := off / 0x100
    let sl := off % 0x100 / 16
    if off % 16 = 0 then some (s.slotCommand v sl w)
    else some (s.updVc v fun c => { c with saveAddr := c.saveAddr.set sl w })
  | 0xFF0003 => some (s.run (execContextDescriptorWrite (off / 64) dw w))
  | 0xFF0004 =>
    let k := off / 0x4000 * 256 + off % 0x4000 / 64
    some { s with comms := tableSet s.comms k 8 dw (if dw = 0 then maskWord w commMask else w) }
  | 0xFF0005 =>
    let io := off / 0x1000
    let q := off % 0x1000 / 64
    let s := { s with qtab := tableSet s.qtab (io * 64 + q) 8 dw ((queueDesc (List.replicate 8 w)).getD dw 0) }
    if dw = 7 then some (s.run (execQueueRegister io q (mapGet s.qtab (io * 64 + q) []))) else some s
  | 0xFF0009 => some { s with imports := mapSet s.imports (off / 8) (maskWord w 0xFFFFFFFFFFFF0007) }
  | 0xFF000A =>
    let n := off / 8 % 2
    some { s with doorbells := tableSet s.doorbells (off / 16) 2 n (if n = 0 then maskWord w 0x13F else w) }
  | 0xFF000B =>
    let v := off / 0x80
    let n := off % 0x80 / 8
    if n < 4 then some (s.updVc v fun c => { c with bps := c.bps.set n (maskWord w 0x3FFFFFFC) })
    else some (s.updVc v fun c => { c with steps := c.steps.set (n - 8) (maskWord w 1) })
  | _ => none

/-- A store of `n` bytes to a device register: the other bytes of its doubleword keep what they read as. -/
def State.devWrite (s : State) (pa n val : Nat) : Option State :=
  let a := pa - pa % 8
  match s.regRead a with
  | none => none
  | some old => s.regWrite a (setField old (8 * (pa % 8)) (8 * n) val)

/-! ## The management window (R330, R337, R354, R370) -/

/-- A write of pcfg (R337): CAP and SLOPE clamp at the fuses. -/
def pcfgWrite (p : Power) (w : Word) : Word :=
  let w := maskWord w 0x3FFFFFFFFFFFF
  setField (setField w 16 16 (min (fieldOf w 16 16) p.fmax)) 32 16 (min (fieldOf w 32 16) (fieldOf p.pfuse 16 16))

/-- A write of prest (R337): HOLD in 1 to 1,000, UPSLOPE at least 1. -/
def prestWrite (w : Word) : Word :=
  let w := maskWord w 0xFFFFFFFFFFFF
  setField (setField w 16 16 (max 1 (min (fieldOf w 16 16) 1000))) 32 16 (max 1 (fieldOf w 32 16))

/-- A write of ptherm (R337): TRIP clamps at TRIPMAX. -/
def pthermWrite (p : Power) (w : Word) : Word :=
  let w := maskWord w 0xFFFFFFFF
  setField w 16 8 (min (fieldOf w 16 8) (fieldOf p.pfuse 32 8))

/-- A write at an offset of the power controller's registers (R337). -/
def Power.write (p : Power) (off : Nat) (w : Word) : Power :=
  if off = 0 then { p with pcfg := pcfgWrite p w }
  else if off = 0x10 then { p with prest := prestWrite w }
  else if off = 0x18 then { p with ptherm := pthermWrite p w }
  else if 0x40 ≤ off && off < 0x80 then { p with pfpt := p.pfpt.set ((off - 0x40) / 8) (maskWord w 0xFFFFFFFFFFFF) }
  else if 0x80 ≤ off && off < 0xC0 then { p with pvpt := p.pvpt.set ((off - 0x80) / 8) (maskWord w 0xFFFFFFFFFFFF) }
  else p

/-- A write at an offset of the debug registers (R354); pulses of a new period count from now. -/
def Debug.write (d : Debug) (off : Nat) (w : Word) (pt : Nat) : Debug :=
  if off = 0 then
    let p := fieldOf w 0 32
    { d with dsamp := w64 (if 1 ≤ p && p ≤ 9 then 10 else p), lastPulse := pt }
  else if off = 8 then { d with dimago := maskWord w 0xFFFFFFFFFFFFC0 }
  else if off = 0x10 then
    let w := maskWord w 0x1FFFFFFFFFFFC0
    { d with dtrace := setField w 48 4 (min (fieldOf w 48 4) 12) }
  else d

/-- The model's own addresses of tables whose management-window offsets the spec does not give (log 11). -/
def routeBase : Nat := 2 ^ 48
def minsvnAddr : Nat := 2 ^ 48 + 2 ^ 20
def apertureBase : Nat := 2 ^ 49
def queueBase : Nat := 2 ^ 50
def portBase : Nat := 2 ^ 51
def logBase : Nat := 2 ^ 52

/-- REGISTER_WRITE (R3, R292, R327, R330, R337, R354, R368): a write with no step of its own stores its value, clamped as its
map states; registers that only read, and addresses of no register, are unchanged. T under telemetry loss is brought up to date
by the registers as they were (R344). -/
def execRegisterWrite (addr : Nat) (val : Word) (s : State) : Host.Outcome State Fault Refusal :=
  if 0x100000 ≤ addr && addr < 0x200000 then .next (s.updPower fun p => (p.settleLoss s.pt).write (addr - 0x100000) val)
  else if 0x200000 ≤ addr && addr < 0x300000 then .next { s with dbg := s.dbg.write (addr - 0x200000) val s.pt }
  else if isReg addr && addr % 8 = 0 then .next ((s.regWrite addr val).getD s)
  else if apertureBase ≤ addr && addr < apertureBase + 16777216 then
    .next { s with apertures := mapSet s.apertures (addr - apertureBase) (maskWord val 0xFFFFFFFFFFFF0007) }
  else if addr = minsvnAddr then .next { s with boot := { s.boot with minsvn := max s.boot.minsvn (fieldOf val 0 16) } }
  else if routeBase ≤ addr && addr < routeBase + 4 * 65536 then
    .next { s with routes := mapSet s.routes (addr - routeBase) (fieldOf val 0 12) }
  else .next s

/-- A queue's state and detail as the management window shows them (R278, log 11): Disabled 0, then the states in the table's order;
the detail of Stale from bit 8. -/
def queueWord (q : Option Queue) : Word :=
  match q with
  | none => 0
  | some q => match q.st with
    | .idle => 1
    | .reading => 2
    | .holding => 3
    | .stale d => w64 (4 + 256 * d)
    | .halted => 5

/-- A port's state as the management window shows it (R323, R326, log 11): Up, BUSY, and the version from bit 8. -/
def Port.word (p : Port) : Word := w64 ((if p.up then 1 else 0) + (if p.busy then 2 else 0) + 256 * p.ver)

/-- An entry of the error and link logs as numbers (R330, log 11). -/
def LogEntry.nums (l : LogEntry) : List Nat :=
  match l with
  | .counterDiscarded off => [0, off]
  | .hostOverflow off => [1, off]
  | .egress line => [2, line]
  | .versionFailure what => [3, what]
  | .overcap => [4]
  | .trip v => [5, v]
  | .hangB v slot pc cls parked => [6, v, slot, pc.toNat, cls, parked]
  | .syncLost => [7]
  | .portDown port => [8, port]
  | .bootFailed err => [9, err]

/-- A doubleword of the model's own part of the management window: the queue table, the ports, and the log as its length and eight
doublewords for each entry (R278, R330, log 11). -/
def State.statusRead (s : State) (off : Nat) : Option Word :=
  if queueBase ≤ off && off < portBase then some (queueWord (mapGet? s.queues ((off - queueBase) / 8)))
  else if portBase ≤ off && off < portBase + 96 then some (s.port ((off - portBase) / 8)).word
  else if off = logBase then some (w64 s.log.length)
  else if logBase < off then
    let n := (off - logBase) / 8
    some (w64 (((s.log[n / 8 - 1]?.map LogEntry.nums).getD []).getD (n % 8) 0))
  else none

/-- The management-window register at an offset (R337, R354, R370); none where no rule places one. -/
def State.mgmtRead (s : State) (off : Nat) : Option Word :=
  let p := s.power
  if off = 0x100000 then some p.pcfg
  else if off = 0x100008 then some p.pfuse
  else if off = 0x100010 then some p.prest
  else if off = 0x100018 then some p.ptherm
  else if 0x100040 ≤ off && off < 0x100080 then some (p.pfpt.getD ((off - 0x100040) / 8) 0)
  else if 0x100080 ≤ off && off < 0x1000C0 then some (p.pvpt.getD ((off - 0x100080) / 8) 0)
  else if off = 0x100100 then some p.pstat
  else if off = 0x200000 then some s.dbg.dsamp
  else if off = 0x200008 then some s.dbg.dimago
  else if off = 0x200010 then some s.dbg.dtrace
  else if off = 0x200018 then some (w64 (s.dbg.idrop + s.dbg.tdrop * 2 ^ 32))
  else if off = 0x300000 then some s.boot.bstat
  else s.statusRead off

/-- A host read of the management window (R330): an aligned doubleword; where no rule places a register the value is open
(log 7). -/
def State.mgmtAnswer (s : State) (off : Nat) : State :=
  match s.mgmtRead (off - off % 8) with
  | some w => s.hostAnswer (some w.toNat)
  | none => let r := s.freeValue 9; r.2.hostAnswer (some r.1.toNat)

/-- HOST_MEMORY_ACCESS (R330, R332, R368, R370): a host access to the counter window, to device memory through the aperture table,
or to the management window, which alone answers once the boot chain has failed, and whose registers the host only reads
(R337, R354). -/
def execHostMemoryAccess (write : Bool) (addr : HostAddr) (size val : Nat) (s : State) : Host.Outcome State Fault Refusal :=
  let off := addr.off
  match addr.bar with
  | 0 => if write then execCounterWindowWrite off size (w64 val) s else .next (if s.serves then s.counterRead off else s)
  | 2 =>
    .next (if !s.serves then s
      else if write then s.windowWrite off (bytesOf val size) else s.windowRead off size)
  | 4 => .next (if write then s else s.mgmtAnswer off)
  | _ => .next s

/-! ## Stores at their homes (R68, R119, R120, R132, R136) -/

/-- A store, posted add or posted atomic on a device register (R143, R149); none where it has no contents. -/
def State.devPerform (s : State) (p : PStore) : Option State :=
  let old := s.homeRead p.loc p.size
  match p.op with
  | .write => s.devWrite p.loc p.size p.val
  | .cadd =>
    (s.devWrite p.loc 8 (counterAdd old p.val).1).map fun s =>
      if (counterAdd old p.val).2 then s.postFault p ⟨20, 0, w64 p.va⟩ else s
  | .atomic op => s.devWrite p.loc 8 (atomicNew op (w64 old) (w64 p.val)).toNat

/-- A store bound for another package goes to its port, its earlier ones all on their way (R120, R325) and those it may not pass
performed or sent before it. -/
def State.sendStore (s : State) (p : PStore) : State :=
  if !((s.storesAhead p).all fun x => isRemote x.loc && x.st != .buffered) then s
  else match s.portFor (dieOf p.v) p.loc with
    | some n =>
      State.postMsg { s with storeBuf := s.storeBuf.map fun x => if x.id = p.id then { x with st := .sent n } else x }
        (dieOf p.v) p.loc (.store p.id)
    | none => s.loseStore p.id

/-- A store performed at its home as its message arrives: refused by another package's import table (R328), its line failing on the
way (R331), or as it was sent; `pick` says which. -/
def State.atHome (s : State) (p : PStore) : Option State :=
  if s.refusedThere p.loc then some (s.postFault p ⟨18, 4, w64 p.va⟩)
  else if isReg p.loc then s.devPerform p
  else
    let fails := s.pick == 2 && homeDie p.loc != some (dieOf p.v)
    some (State.performStore (if fails then { s with poison := (linesOf p.loc p.size).foldl setInsert s.poison } else s) p)

/-- A store bound for another stop leaves by the ring (R120, R320), its earlier ones all on their way. -/
def State.rideStore (s : State) (p : PStore) : State :=
  if !(s.earlier p).all s.left then s
  else
    State.ringSend { s with storeBuf := s.storeBuf.map fun x => if x.id = p.id then { x with st := .out } else x }
      (.store p.id) p.v ((homeStop p.loc).getD 0) (s.agentClass p.tid) false

/-- STORE_PERFORM (R120, R122, R136, R143, R149, R307, R320, R325, R364): a store of a thread or command that has none ahead of it in
the buffer, nor any it may not pass, is performed at its home; sent where its home is at another stop, or in another package,
which acknowledges it first, held where its vcore moves, and waiting where its line is locked or the order of its context asks
it. Fences that waited for it see it. -/
def execStorePerform (id : Nat) (s : State) : Host.Outcome State Fault Refusal :=
  match s.storeBuf.find? fun p => p.id == id with
  | none => .next s
  | some p =>
    if !s.detGate p.ctx (s.storeKey p) then .next s
    else if isRemote p.loc && p.st == .buffered then .next (State.seeFences (s.sendStore p) s)
    else if rides p.v p.loc && p.st == .buffered then .next (s.rideStore p)
    else if s.riding (.store p.id) || !(s.storesAhead p).isEmpty then .next s
    else if s.isMoving p.loc then
      .next (if s.held.contains (.store p.id) then s else { s with held := s.held ++ [.store p.id] })
    else if !s.canPerform p then .next s
    else match State.atHome { s with storeBuf := s.storeBuf.filter fun x => x.id != p.id } p with
      | some s' => .next (s'.seeFences s)
      | none => .fault (.deviceWindow p.loc)

/-! ## Store acceptance (R68, R93, R136, R174, R329) -/

/-- A context's egress in bytes per µs (R290, R329, R373). -/
def State.egressRate (s : State) (ctx : Nat) : Nat := min (fieldOf (s.ctxWord ctx 4) 0 32) Config.egressCeiling

/-- The egress a context has used that counts in the current µs (R329): what a store took beyond one µs carries on. -/
def State.egressUsed (s : State) (ctx : Nat) : Nat :=
  match mapGet? s.egress ctx with
  | some (w, used) => used - (s.pt / 1000 - w) * s.egressRate ctx
  | none => 0

/-- The budget lets `n` bytes leave now. -/
def State.egressOk (s : State) (ctx n : Nat) : Bool :=
  n == 0 || (s.egressRate ctx != 0 && (s.egressUsed ctx == 0 || decide (s.egressUsed ctx + n ≤ s.egressRate ctx)))

/-- The bytes of a store's accesses that leave the package. -/
def egressBytes (l : List (StoreElem × Nat)) : Nat := ((l.filter fun r => isRemote r.2).map fun r => r.1.size).sum

/-- The context is charged for bytes that leave. -/
def State.chargeEgress (s : State) (ctx n : Nat) : State :=
  if n = 0 then s else { s with egress := mapSet s.egress ctx (s.pt / 1000, s.egressUsed ctx + n) }

/-- An access that is performed as it is accepted (R120, R121, R130): in a TCM, scratchpad or I-store, on a line homed on the
thread's own die, or on a device register. -/
def Thread.atOnce (t : Thread) (loc : Nat) : Bool := isTcm loc || isIst loc || isSpad loc || isReg loc || t.isLocal loc

/-- One access of an accepted store (R68, R93): performed at once, the thread's earlier stores having left the buffer, or pinned in
the buffer, where it is held for a vcore that moves (R307) once the earlier ones have left. -/
def State.putStore (s : State) (tid : Nat) (t : Thread) (pc : Word) (x : StoreElem) (loc : Nat) : Option State :=
  let s := s.touchTlb t x.va .write
  if s.isMoving loc then
    let s' := s.accept tid t pc x loc
    some (if s.storeBuf.all fun p => p.tid != tid || s.left p then { s' with held := s'.held ++ [.store s.nextId] } else s')
  else if isReg loc then
    let s := s.release tid
    (s.devPerform (s.pstore tid t pc x loc)).map fun s => s.countOut t.kernel loc
  else if t.atOnce loc then some ((s.performOwn tid t pc x loc).countOut t.kernel loc)
  else some (s.accept tid t pc x loc)

/-- The accesses of a store accepted in order; where one meets a device address of no contents, that address. -/
def State.putStores (s : State) (tid : Nat) (t : Thread) (pc : Word) (l : List (StoreElem × Nat)) : Except Nat State :=
  match l with
  | [] => .ok s
  | r :: rest => match s.putStore tid t pc r.1 r.2 with
    | some s' => s'.putStores tid t pc rest
    | none => .error r.2

/-- Nothing delays the acceptance of a store's accesses: no lock (R136), no egress budget (R329), no earlier store that must be
performed first (R120, R126), not the order of its context (R364). -/
def State.mayAccept (s : State) (tid : Nat) (t : Thread) (key : DetKey) (first : Bool) (l : List (StoreElem × Nat)) : Bool :=
  !(l.any fun r => s.locked r.2 r.1.size) && s.egressOk t.ctx (egressBytes l) && s.detGate t.ctx key &&
  (if first then s.canRelease tid t else s.canFlush tid || !l.any fun r => t.atOnce r.2 && !s.isMoving r.2)

/-- The head of a thread's walk is a store presented to its targets. -/
def Thread.presented (t : Thread) : Option Entry :=
  match t.run, t.walking, t.block with
  | .block, true, e :: _ => match e.phase with
    | .presented _ => some e
    | _ => none
  | _, _, _ => none

/-- The accesses of a presented store, each with where it goes: as its station pinned it (R316), else as its target answers now. -/
def State.placePinned (s : State) (t : Thread) (e : Entry) : List (StoreElem × Except Trap Nat) :=
  let pins := match e.phase with
    | .presented p => p.pins
    | _ => []
  e.stores.zipIdx.map fun x => (x.1, match pins.getD x.2 none with
    | some loc => .ok loc
    | none => s.placeStore t x.1)

/-- A store whose accesses are all checked before any is accepted (R174). -/
def twoSteps (i : Instr) : Bool :=
  match i with
  | .vst _ _ _ _ _ | .vsts _ _ _ _ _ _ | .vstx _ _ _ _ _ _ => true
  | _ => false

/-- A vector store that has passed the first step of R174: every access has its place for good; none where it had before. -/
def Entry.passed (e : Entry) (l : List (StoreElem × Nat)) : Option Entry :=
  match e.phase with
  | .presented p =>
    if twoSteps e.ins && !p.checked then
      some { e with phase := .presented { p with checked := true, pins := l.map fun r => some r.2 } }
    else none
  | _ => none

/-- What the targets answer a presented store (R68, R70, R174): the bus error past its bound, the one fault, or acceptance of every
access and its commit; while something delays it, a vector store passes its first step. Of one store's accesses those performed
at once come first. -/
def State.acceptStore (s : State) (tid : Nat) (t : Thread) (e : Entry) : Option (Host.Outcome State Fault Refusal) :=
  let rs := s.placePinned t e
  if s.storeOverdue t e then some (.next (s.takeTrap tid e.storeTrap e.pc false))
  else match pickError rs with
  | some x => some (.next (s.takeTrap tid x e.pc false))
  | none =>
    let l := okLocs rs
    let first := releasesFirst e.ins && !s.skipsRelease tid t e.ins
    let near := fun (r : StoreElem × Nat) => t.atOnce r.2 && !s.isMoving r.2
    if !s.mayAccept tid t t.detKey first l then (e.passed l).map fun e => .next (s.setHead tid e)
    else
      let s := if first then s.release tid else s
      let t' := s.releaser tid t e.ins
      match (s.chargeEgress t.ctx (egressBytes l)).putStores tid t' e.pc (l.filter near ++ l.filter fun r => !near r) with
      | .ok s => some (.next ((s.finish tid e e.xw).endFences tid e.stores.length))
      | .error pa => some (.fault (.deviceWindow pa))

/-- The old value of an atomic on a device register comes back (R143, R148, R151); an overflow of CADD traps (R144). -/
def State.endRmw (s : State) (tid : Nat) (t : Thread) (e : Entry) (rd : Reg) (old : Word) : State :=
  let past := match e.ins with
    | .cadd _ _ _ _ _ => (counterAdd old.toNat (e.op 1).toNat).2
    | _ => false
  let s := s.endFences tid 1
  if past then s.takeTrap tid ⟨20, 0, e.op 0⟩ e.pc false
  else if rd = 0 then s.finish tid e [] else (s.acquire t).finishX tid e rd old

/-- The answer to an atomic presented to a device register (R70, R126, R148, R151); none while something delays it. -/
def State.acceptRmw (s : State) (tid : Nat) (t : Thread) (e : Entry) (rd : Reg) (new : Word → Option Word) :
    Option (Host.Outcome State Fault Refusal) :=
  if s.storeOverdue t e then some (.next (s.takeTrap tid e.storeTrap e.pc false))
  else match s.place t (e.op 0).toNat 8 .rw 2 with
  | .error x => some (.next (s.takeTrap tid x e.pc false))
  | .ok loc =>
    if !s.canRelease tid t || !s.detGate t.ctx t.detKey then none
    else
      let s := s.release tid
      let old := w64 (s.homeRead loc 8)
      match (match new old with | some v => s.devWrite loc 8 v.toNat | none => some s) with
      | some s => some (.next (s.endRmw tid t e rd old))
      | none => some (.fault (.deviceWindow loc))

/-! ## Appended elements (R177, R179, R180) -/

/-- The address of element `e` of a write stream, its index read where it is indirect. -/
def State.appendAddr (s : State) (t : Thread) (x : Stream) (e : Nat) : Except Trap Nat :=
  if x.indirect then
    match s.streamRead t (x.elemAddr e).toNat 4 with
    | .error y => .error y
    | .ok i => .ok (x.base + w64 (i.2 * x.ty.size)).toNat
  else .ok (x.elemAddr e).toNat

/-- The accesses of an appended vector, each with where it goes. -/
def State.appendElems (s : State) (t : Thread) (x : Stream) (pos : Nat) (val : Vec) : List (StoreElem × Except Trap Nat) :=
  (List.range (min x.ty.lanes (x.total - pos))).map fun i =>
    let n := laneOf val (widthOf x.ty) i
    match s.appendAddr t x (pos + i) with
    | .error y => (⟨0, x.ty.size, n, .write⟩, .error y)
    | .ok va =>
      let el : StoreElem := ⟨va, x.ty.size, n, .write⟩
      match misaligned va x.ty.size with
      | some y => (el, .error y)
      | none => (el, s.placeStore t el)

/-- The oldest vector in a write stream's buffer accepted (R179, R180, R364): a translation not present leaves it waiting for the
pager; any other fault ends the kernel, and the vector is dropped. Fences that waited for it see it. -/
def State.acceptAppend (s : State) (tid : Nat) (t : Thread) (j : Nat) (x : Stream) : Host.Outcome State Fault Refusal :=
  match x.buf with
  | [] => .next s
  | (pos, val, pc, lg) :: rest =>
    let rs := s.appendElems t x pos val
    let shorter := fun (s : State) => s.updThr tid fun t => t.setStream j { x with buf := rest }
    match pickError rs with
    | some ⟨1, _, _⟩ => .next s
    | some f =>
      .next (State.seeFences (shorter (match t.kernel with
        | some k => { s with posted := s.posted ++ [(k, tid, f, pc)] }
        | none => s)) s)
    | none =>
      let l := okLocs rs
      let t' := { t with logical := lg, block := [] }
      if !s.mayAccept tid t' t'.detKey false l then .next s
      else match (State.wakeStream (s.chargeEgress t.ctx (egressBytes l)) t.vcore).putStores tid t' pc l with
        | .ok s' => .next ((shorter s').seeFences s)
        | .error pa => .fault (.deviceWindow pa)

/-- The oldest append of a thread's streams is presented (R180): of several streams the lowest-numbered one whose oldest append
does not wait for the pager. R180 orders the appends of one stream only: DESIGN CHOICE (log 38). -/
def State.nextAppend (s : State) (tid : Nat) (t : Thread) : Host.Outcome State Fault Refusal :=
  match (List.range 8).findSome? fun j => match t.streams.getD j none with
    | some x => match x.buf with
      | [] => none
      | b :: _ => match pickError (s.appendElems t x b.1 b.2.1) with
        | some ⟨1, _, _⟩ => none
        | _ => some (j, x)
    | none => none with
  | some (j, x) => s.acceptAppend tid t j x
  | none => .next s

/-- STORE_ACCEPTANCE (R68, R180): the answer to a presented store or atomic of a slot; with none presented, or one that is
delayed, to its stream engine's oldest append. -/
def execStoreAcceptance (v sl : Nat) (s : State) : Host.Outcome State Fault Refusal :=
  match s.inSlot v sl with
  | none => .next s
  | some (tid, t) =>
    let answer := t.presented.bind fun e => match e.stores, e.rmw with
      | [], some (rd, new) => s.acceptRmw tid t e rd new
      | _, _ => s.acceptStore tid t e
    match answer with
    | some o => o
    | none => s.nextAppend tid t

end Sys2Proof.Machine
end

