-- ==== Sys2Proof/Machine/Dispatch.lean ====
section
/-!
DEFINITION. Sys2Proof/Machine/Dispatch.lean: the meaning of each instruction and event, one arm per constructor of Instr.
-/
namespace Sys2Proof.Machine

def exec (i : Instr) (s : State) : Host.Outcome State Fault Refusal :=
  match i with
  | .lui rd imm mark => Sys2Proof.Machine.execLui rd imm mark s
  | .auipc rd imm mark => Sys2Proof.Machine.execAuipc rd imm mark s
  | .jal rd off mark => Sys2Proof.Machine.execJal rd off mark s
  | .jalr rd rs1 imm mark => Sys2Proof.Machine.execJalr rd rs1 imm mark s
  | .beq rs1 rs2 off mark => Sys2Proof.Machine.execBeq rs1 rs2 off mark s
  | .bne rs1 rs2 off mark => Sys2Proof.Machine.execBne rs1 rs2 off mark s
  | .blt rs1 rs2 off mark => Sys2Proof.Machine.execBlt rs1 rs2 off mark s
  | .bge rs1 rs2 off mark => Sys2Proof.Machine.execBge rs1 rs2 off mark s
  | .bltu rs1 rs2 off mark => Sys2Proof.Machine.execBltu rs1 rs2 off mark s
  | .bgeu rs1 rs2 off mark => Sys2Proof.Machine.execBgeu rs1 rs2 off mark s
  | .lb rd rs1 imm mark => Sys2Proof.Machine.execLb rd rs1 imm mark s
  | .lh rd rs1 imm mark => Sys2Proof.Machine.execLh rd rs1 imm mark s
  | .lw rd rs1 imm mark => Sys2Proof.Machine.execLw rd rs1 imm mark s
  | .ld rd rs1 imm mark => Sys2Proof.Machine.execLd rd rs1 imm mark s
  | .lbu rd rs1 imm mark => Sys2Proof.Machine.execLbu rd rs1 imm mark s
  | .lhu rd rs1 imm mark => Sys2Proof.Machine.execLhu rd rs1 imm mark s
  | .lwu rd rs1 imm mark => Sys2Proof.Machine.execLwu rd rs1 imm mark s
  | .sb rs2 rs1 imm mark => Sys2Proof.Machine.execSb rs2 rs1 imm mark s
  | .sh rs2 rs1 imm mark => Sys2Proof.Machine.execSh rs2 rs1 imm mark s
  | .sw rs2 rs1 imm mark => Sys2Proof.Machine.execSw rs2 rs1 imm mark s
  | .sd rs2 rs1 imm mark => Sys2Proof.Machine.execSd rs2 rs1 imm mark s
  | .addi rd rs1 imm mark => Sys2Proof.Machine.execAddi rd rs1 imm mark s
  | .slti rd rs1 imm mark => Sys2Proof.Machine.execSlti rd rs1 imm mark s
  | .sltiu rd rs1 imm mark => Sys2Proof.Machine.execSltiu rd rs1 imm mark s
  | .xori rd rs1 imm mark => Sys2Proof.Machine.execXori rd rs1 imm mark s
  | .ori rd rs1 imm mark => Sys2Proof.Machine.execOri rd rs1 imm mark s
  | .andi rd rs1 imm mark => Sys2Proof.Machine.execAndi rd rs1 imm mark s
  | .slli rd rs1 sh mark => Sys2Proof.Machine.execSlli rd rs1 sh mark s
  | .srli rd rs1 sh mark => Sys2Proof.Machine.execSrli rd rs1 sh mark s
  | .srai rd rs1 sh mark => Sys2Proof.Machine.execSrai rd rs1 sh mark s
  | .clz rd rs1 mark => Sys2Proof.Machine.execClz rd rs1 mark s
  | .ctz rd rs1 mark => Sys2Proof.Machine.execCtz rd rs1 mark s
  | .cpop rd rs1 mark => Sys2Proof.Machine.execCpop rd rs1 mark s
  | .addiw rd rs1 imm mark => Sys2Proof.Machine.execAddiw rd rs1 imm mark s
  | .slliw rd rs1 sh mark => Sys2Proof.Machine.execSlliw rd rs1 sh mark s
  | .srliw rd rs1 sh mark => Sys2Proof.Machine.execSrliw rd rs1 sh mark s
  | .sraiw rd rs1 sh mark => Sys2Proof.Machine.execSraiw rd rs1 sh mark s
  | .add rd rs1 rs2 mark => Sys2Proof.Machine.execAdd rd rs1 rs2 mark s
  | .sub rd rs1 rs2 mark => Sys2Proof.Machine.execSub rd rs1 rs2 mark s
  | .sll rd rs1 rs2 mark => Sys2Proof.Machine.execSll rd rs1 rs2 mark s
  | .slt rd rs1 rs2 mark => Sys2Proof.Machine.execSlt rd rs1 rs2 mark s
  | .sltu rd rs1 rs2 mark => Sys2Proof.Machine.execSltu rd rs1 rs2 mark s
  | .xor rd rs1 rs2 mark => Sys2Proof.Machine.execXor rd rs1 rs2 mark s
  | .srl rd rs1 rs2 mark => Sys2Proof.Machine.execSrl rd rs1 rs2 mark s
  | .sra rd rs1 rs2 mark => Sys2Proof.Machine.execSra rd rs1 rs2 mark s
  | .or rd rs1 rs2 mark => Sys2Proof.Machine.execOr rd rs1 rs2 mark s
  | .and rd rs1 rs2 mark => Sys2Proof.Machine.execAnd rd rs1 rs2 mark s
  | .orn rd rs1 rs2 mark => Sys2Proof.Machine.execOrn rd rs1 rs2 mark s
  | .andn rd rs1 rs2 mark => Sys2Proof.Machine.execAndn rd rs1 rs2 mark s
  | .mul rd rs1 rs2 mark => Sys2Proof.Machine.execMul rd rs1 rs2 mark s
  | .mulh rd rs1 rs2 mark => Sys2Proof.Machine.execMulh rd rs1 rs2 mark s
  | .mulhsu rd rs1 rs2 mark => Sys2Proof.Machine.execMulhsu rd rs1 rs2 mark s
  | .mulhu rd rs1 rs2 mark => Sys2Proof.Machine.execMulhu rd rs1 rs2 mark s
  | .div rd rs1 rs2 mark => Sys2Proof.Machine.execDiv rd rs1 rs2 mark s
  | .divu rd rs1 rs2 mark => Sys2Proof.Machine.execDivu rd rs1 rs2 mark s
  | .rem rd rs1 rs2 mark => Sys2Proof.Machine.execRem rd rs1 rs2 mark s
  | .remu rd rs1 rs2 mark => Sys2Proof.Machine.execRemu rd rs1 rs2 mark s
  | .min rd rs1 rs2 mark => Sys2Proof.Machine.execMin rd rs1 rs2 mark s
  | .minu rd rs1 rs2 mark => Sys2Proof.Machine.execMinu rd rs1 rs2 mark s
  | .max rd rs1 rs2 mark => Sys2Proof.Machine.execMax rd rs1 rs2 mark s
  | .maxu rd rs1 rs2 mark => Sys2Proof.Machine.execMaxu rd rs1 rs2 mark s
  | .sh1add rd rs1 rs2 mark => Sys2Proof.Machine.execSh1add rd rs1 rs2 mark s
  | .sh2add rd rs1 rs2 mark => Sys2Proof.Machine.execSh2add rd rs1 rs2 mark s
  | .sh3add rd rs1 rs2 mark => Sys2Proof.Machine.execSh3add rd rs1 rs2 mark s
  | .addw rd rs1 rs2 mark => Sys2Proof.Machine.execAddw rd rs1 rs2 mark s
  | .subw rd rs1 rs2 mark => Sys2Proof.Machine.execSubw rd rs1 rs2 mark s
  | .sllw rd rs1 rs2 mark => Sys2Proof.Machine.execSllw rd rs1 rs2 mark s
  | .srlw rd rs1 rs2 mark => Sys2Proof.Machine.execSrlw rd rs1 rs2 mark s
  | .sraw rd rs1 rs2 mark => Sys2Proof.Machine.execSraw rd rs1 rs2 mark s
  | .mulw rd rs1 rs2 mark => Sys2Proof.Machine.execMulw rd rs1 rs2 mark s
  | .divw rd rs1 rs2 mark => Sys2Proof.Machine.execDivw rd rs1 rs2 mark s
  | .divuw rd rs1 rs2 mark => Sys2Proof.Machine.execDivuw rd rs1 rs2 mark s
  | .remw rd rs1 rs2 mark => Sys2Proof.Machine.execRemw rd rs1 rs2 mark s
  | .remuw rd rs1 rs2 mark => Sys2Proof.Machine.execRemuw rd rs1 rs2 mark s
  | .ecall mark => Sys2Proof.Machine.execEcall mark s
  | .ebreak mark => Sys2Proof.Machine.execEbreak mark s
  | .xret mark => Sys2Proof.Machine.execXret mark s
  | .csrrw rd csr rs1 mark => Sys2Proof.Machine.execCsrrw rd csr rs1 mark s
  | .csrrs rd csr rs1 mark => Sys2Proof.Machine.execCsrrs rd csr rs1 mark s
  | .csrrc rd csr rs1 mark => Sys2Proof.Machine.execCsrrc rd csr rs1 mark s
  | .csrrwi rd csr z mark => Sys2Proof.Machine.execCsrrwi rd csr z mark s
  | .csrrsi rd csr z mark => Sys2Proof.Machine.execCsrrsi rd csr z mark s
  | .csrrci rd csr z mark => Sys2Proof.Machine.execCsrrci rd csr z mark s
  | .cwait rd rs1 rs2 rs3 mark => Sys2Proof.Machine.execCwait rd rs1 rs2 rs3 mark s
  | .lwait rd rs1 rs2 rs3 mark => Sys2Proof.Machine.execLwait rd rs1 rs2 rs3 mark s
  | .barw rd rs1 rs3 mark => Sys2Proof.Machine.execBarw rd rs1 rs3 mark s
  | .recv rd rs1 rs3 mark => Sys2Proof.Machine.execRecv rd rs1 rs3 mark s
  | .fencew scope rd rs1 rs3 mark => Sys2Proof.Machine.execFencew scope rd rs1 rs3 mark s
  | .mwait rd rs3 mark => Sys2Proof.Machine.execMwait rd rs3 mark s
  | .ifencew rd rs3 mark => Sys2Proof.Machine.execIfencew rd rs3 mark s
  | .barx rd rs1 rs3 mark => Sys2Proof.Machine.execBarx rd rs1 rs3 mark s
  | .spawn rd rs1 rs2 rs3 mark => Sys2Proof.Machine.execSpawn rd rs1 rs2 rs3 mark s
  | .acasV rd rs1 rs2 rs3 mark => Sys2Proof.Machine.execAcasV rd rs1 rs2 rs3 mark s
  | .acasS rd rs1 rs2 rs3 mark => Sys2Proof.Machine.execAcasS rd rs1 rs2 rs3 mark s
  | .ttake rd rs1 rs3 mark => Sys2Proof.Machine.execTtake rd rs1 rs3 mark s
  | .qpush rd rs1 rs2 rs3 mark => Sys2Proof.Machine.execQpush rd rs1 rs2 rs3 mark s
  | .evstep rd rs1 rs3 mark => Sys2Proof.Machine.execEvstep rd rs1 rs3 mark s
  | .cadd scope rd rs1 rs2 mark => Sys2Proof.Machine.execCadd scope rd rs1 rs2 mark s
  | .mona rd rs1 mark => Sys2Proof.Machine.execMona rd rs1 mark s
  | .mclr rs1 mark => Sys2Proof.Machine.execMclr rs1 mark s
  | .join rd rs1 mark => Sys2Proof.Machine.execJoin rd rs1 mark s
  | .leave rd rs1 mark => Sys2Proof.Machine.execLeave rd rs1 mark s
  | .gnew rd rs1 mark => Sys2Proof.Machine.execGnew rd rs1 mark s
  | .gfree rd rs1 mark => Sys2Proof.Machine.execGfree rd rs1 mark s
  | .bara rd rs1 mark => Sys2Proof.Machine.execBara rd rs1 mark s
  | .exit rs1 mark => Sys2Proof.Machine.execExit rs1 mark s
  | .lda scope rd rs1 mark => Sys2Proof.Machine.execLda scope rd rs1 mark s
  | .stl scope rs1 rs2 mark => Sys2Proof.Machine.execStl scope rs1 rs2 mark s
  | .tgive rs1 mark => Sys2Proof.Machine.execTgive rs1 mark s
  | .tmark rs1 mark => Sys2Proof.Machine.execTmark rs1 mark s
  | .cswap mark => Sys2Proof.Machine.execCswap mark s
  | .aadd scope rd rs1 rs2 mark => Sys2Proof.Machine.execAadd scope rd rs1 rs2 mark s
  | .aand scope rd rs1 rs2 mark => Sys2Proof.Machine.execAand scope rd rs1 rs2 mark s
  | .aor scope rd rs1 rs2 mark => Sys2Proof.Machine.execAor scope rd rs1 rs2 mark s
  | .axor scope rd rs1 rs2 mark => Sys2Proof.Machine.execAxor scope rd rs1 rs2 mark s
  | .amin scope rd rs1 rs2 mark => Sys2Proof.Machine.execAmin scope rd rs1 rs2 mark s
  | .amax scope rd rs1 rs2 mark => Sys2Proof.Machine.execAmax scope rd rs1 rs2 mark s
  | .aminu scope rd rs1 rs2 mark => Sys2Proof.Machine.execAminu scope rd rs1 rs2 mark s
  | .amaxu scope rd rs1 rs2 mark => Sys2Proof.Machine.execAmaxu scope rd rs1 rs2 mark s
  | .aswap scope rd rs1 rs2 mark => Sys2Proof.Machine.execAswap scope rd rs1 rs2 mark s
  | .vadd ty vd vs1 vs2 m mark => Sys2Proof.Machine.execVadd ty vd vs1 vs2 m mark s
  | .vsub ty vd vs1 vs2 m mark => Sys2Proof.Machine.execVsub ty vd vs1 vs2 m mark s
  | .vmul ty vd vs1 vs2 m mark => Sys2Proof.Machine.execVmul ty vd vs1 vs2 m mark s
  | .vmulh ty vd vs1 vs2 m mark => Sys2Proof.Machine.execVmulh ty vd vs1 vs2 m mark s
  | .vmadd ty vd vs1 vs2 m mark => Sys2Proof.Machine.execVmadd ty vd vs1 vs2 m mark s
  | .vmin ty vd vs1 vs2 m mark => Sys2Proof.Machine.execVmin ty vd vs1 vs2 m mark s
  | .vmax ty vd vs1 vs2 m mark => Sys2Proof.Machine.execVmax ty vd vs1 vs2 m mark s
  | .vand ty vd vs1 vs2 m mark => Sys2Proof.Machine.execVand ty vd vs1 vs2 m mark s
  | .vor ty vd vs1 vs2 m mark => Sys2Proof.Machine.execVor ty vd vs1 vs2 m mark s
  | .vxor ty vd vs1 vs2 m mark => Sys2Proof.Machine.execVxor ty vd vs1 vs2 m mark s
  | .vsll ty vd vs1 vs2 m mark => Sys2Proof.Machine.execVsll ty vd vs1 vs2 m mark s
  | .vsrl ty vd vs1 vs2 m mark => Sys2Proof.Machine.execVsrl ty vd vs1 vs2 m mark s
  | .vsra ty vd vs1 vs2 m mark => Sys2Proof.Machine.execVsra ty vd vs1 vs2 m mark s
  | .vcmpeq ty md vs1 vs2 m mark => Sys2Proof.Machine.execVcmpeq ty md vs1 vs2 m mark s
  | .vcmplt ty md vs1 vs2 m mark => Sys2Proof.Machine.execVcmplt ty md vs1 vs2 m mark s
  | .vcmple ty md vs1 vs2 m mark => Sys2Proof.Machine.execVcmple ty md vs1 vs2 m mark s
  | .vsel ty vd vs1 vs2 m mark => Sys2Proof.Machine.execVsel ty vd vs1 vs2 m mark s
  | .vcvt ty dty rm vd vs1 m mark => Sys2Proof.Machine.execVcvt ty dty rm vd vs1 m mark s
  | .vnrw ty rm vd vs1 m mark => Sys2Proof.Machine.execVnrw ty rm vd vs1 m mark s
  | .vwid ty vd vs1 m mark => Sys2Proof.Machine.execVwid ty vd vs1 m mark s
  | .vrsum ty vd vs1 m mark => Sys2Proof.Machine.execVrsum ty vd vs1 m mark s
  | .vrmax ty vd vs1 m mark => Sys2Proof.Machine.execVrmax ty vd vs1 m mark s
  | .vrmin ty vd vs1 m mark => Sys2Proof.Machine.execVrmin ty vd vs1 m mark s
  | .vperm ty vd vs1 vs2 m mark => Sys2Proof.Machine.execVperm ty vd vs1 vs2 m mark s
  | .vdot vd vs1 vs2 m mark => Sys2Proof.Machine.execVdot vd vs1 vs2 m mark s
  | .vpopc ty vd vs1 m mark => Sys2Proof.Machine.execVpopc ty vd vs1 m mark s
  | .vlut ty vd vs1 m mark => Sys2Proof.Machine.execVlut ty vd vs1 m mark s
  | .vabs ty vd vs1 m mark => Sys2Proof.Machine.execVabs ty vd vs1 m mark s
  | .vsplat ty vd rs1 m mark => Sys2Proof.Machine.execVsplat ty vd rs1 m mark s
  | .vext ty rd vs1 lane mark => Sys2Proof.Machine.execVext ty rd vs1 lane mark s
  | .vins ty vd rs1 lane mark => Sys2Proof.Machine.execVins ty vd rs1 lane mark s
  | .scmac ty vd rs1 rs2 m mark => Sys2Proof.Machine.execScmac ty vd rs1 rs2 m mark s
  | .vld ty vd rs1 m mark => Sys2Proof.Machine.execVld ty vd rs1 m mark s
  | .vst ty vs rs1 m mark => Sys2Proof.Machine.execVst ty vs rs1 m mark s
  | .vlds ty vd rs1 rs2 m mark => Sys2Proof.Machine.execVlds ty vd rs1 rs2 m mark s
  | .vsts ty vs rs1 rs2 m mark => Sys2Proof.Machine.execVsts ty vs rs1 rs2 m mark s
  | .vldx ty vd rs1 vk m mark => Sys2Proof.Machine.execVldx ty vd rs1 vk m mark s
  | .vstx ty vs rs1 vk m mark => Sys2Proof.Machine.execVstx ty vs rs1 vk m mark s
  | .vldb ty vd rs1 m mark => Sys2Proof.Machine.execVldb ty vd rs1 m mark s
  | .sbind ty n rs1 mark => Sys2Proof.Machine.execSbind ty n rs1 mark s
  | .sunb n mark => Sys2Proof.Machine.execSunb n mark s
  | .sstat rd n mark => Sys2Proof.Machine.execSstat rd n mark s
  | .mldm md rs1 mark => Sys2Proof.Machine.execMldm md rs1 mark s
  | .mstm ms rs1 mark => Sys2Proof.Machine.execMstm ms rs1 mark s
  | .mand md ma mb mark => Sys2Proof.Machine.execMand md ma mb mark s
  | .mor md ma mb mark => Sys2Proof.Machine.execMor md ma mb mark s
  | .mxor md ma mb mark => Sys2Proof.Machine.execMxor md ma mb mark s
  | .mnot md ma mark => Sys2Proof.Machine.execMnot md ma mark s
  | .mpopc rd ma mark => Sys2Proof.Machine.execMpopc rd ma mark s
  | .mfirst rd ma mark => Sys2Proof.Machine.execMfirst rd ma mark s
  | .mset md rs1 mark => Sys2Proof.Machine.execMset md rs1 mark s
  | .sdstep vs rs1 mark => Sys2Proof.Machine.execSdstep vs rs1 mark s
  | .evsend rd rs1 rs2 mark => Sys2Proof.Machine.execEvsend rd rs1 rs2 mark s
  | .mma rd rs1 rs2 mark => Sys2Proof.Machine.execMma rd rs1 rs2 mark s
  | .mmaBs rd rs1 rs2 mark => Sys2Proof.Machine.execMmaBs rd rs1 rs2 mark s
  | .mlut rd rs1 rs2 mark => Sys2Proof.Machine.execMlut rd rs1 rs2 mark s
  | .mbin rd rs1 rs2 mark => Sys2Proof.Machine.execMbin rd rs1 rs2 mark s
  | .mzero rd rs1 rs2 mark => Sys2Proof.Machine.execMzero rd rs1 rs2 mark s
  | .mlda rd rs1 rs2 mark => Sys2Proof.Machine.execMlda rd rs1 rs2 mark s
  | .msta rd rs1 rs2 mark => Sys2Proof.Machine.execMsta rd rs1 rs2 mark s
  | .tcfg rd rs1 rs2 mark => Sys2Proof.Machine.execTcfg rd rs1 rs2 mark s
  | .trel rd rs1 rs2 mark => Sys2Proof.Machine.execTrel rd rs1 rs2 mark s
  | .mteam rd rs1 rs2 mark => Sys2Proof.Machine.execMteam rd rs1 rs2 mark s
  | .copy1 rd rs1 rs2 mark => Sys2Proof.Machine.execCopy1 rd rs1 rs2 mark s
  | .copy2 rd rs1 rs2 mark => Sys2Proof.Machine.execCopy2 rd rs1 rs2 mark s
  | .copyx rd rs1 rs2 mark => Sys2Proof.Machine.execCopyx rd rs1 rs2 mark s
  | .cfill rd rs1 rs2 mark => Sys2Proof.Machine.execCfill rd rs1 rs2 mark s
  | .qnt8 rd rs1 rs2 mark => Sys2Proof.Machine.execQnt8 rd rs1 rs2 mark s
  | .qs2p rd rs1 rs2 mark => Sys2Proof.Machine.execQs2p rd rs1 rs2 mark s
  | .dqnt rd rs1 rs2 mark => Sys2Proof.Machine.execDqnt rd rs1 rs2 mark s
  | .cred rd rs1 rs2 mark => Sys2Proof.Machine.execCred rd rs1 rs2 mark s
  | .cbcast rd rs1 rs2 mark => Sys2Proof.Machine.execCbcast rd rs1 rs2 mark s
  | .cagath rd rs1 rs2 mark => Sys2Proof.Machine.execCagath rd rs1 rs2 mark s
  | .sdcfg rd rs1 rs2 mark => Sys2Proof.Machine.execSdcfg rd rs1 rs2 mark s
  | .sdrst rd rs1 rs2 mark => Sys2Proof.Machine.execSdrst rd rs1 rs2 mark s
  | .commandStart id n => Sys2Proof.Machine.execCommandStart id n s
  | .commandCompletion id => Sys2Proof.Machine.execCommandCompletion id s
  | .commandDeadline id => Sys2Proof.Machine.execCommandDeadline id s
  | .blockRetire v sl => Sys2Proof.Machine.execBlockRetire v sl s
  | .breakpointTrap v sl => Sys2Proof.Machine.execBreakpointTrap v sl s
  | .longResultReturn v sl idx stale => Sys2Proof.Machine.execLongResultReturn v sl idx stale s
  | .storeAcceptance v sl => Sys2Proof.Machine.execStoreAcceptance v sl s
  | .storePerform id => Sys2Proof.Machine.execStorePerform id s
  | .ltbExpiry v sl => Sys2Proof.Machine.execLtbExpiry v sl s
  | .replyArrival id => Sys2Proof.Machine.execReplyArrival id s
  | .waitConditionMet tid => Sys2Proof.Machine.execWaitConditionMet tid s
  | .waitDeadlineExpiry tid => Sys2Proof.Machine.execWaitDeadlineExpiry tid s
  | .timeoutWindowBoundary tid => Sys2Proof.Machine.execTimeoutWindowBoundary tid s
  | .hangReportA v sl => Sys2Proof.Machine.execHangReportA v sl s
  | .hangReportB v sl => Sys2Proof.Machine.execHangReportB v sl s
  | .coreWake v => Sys2Proof.Machine.execCoreWake v s
  | .followMove v sl => Sys2Proof.Machine.execFollowMove v sl s
  | .postedFaultReport id => Sys2Proof.Machine.execPostedFaultReport id s
  | .hostCounterPoll tid => Sys2Proof.Machine.execHostCounterPoll tid s
  | .streamDataReady v sl j => Sys2Proof.Machine.execStreamDataReady v sl j s
  | .streamDeadline v sl => Sys2Proof.Machine.execStreamDeadline v sl s
  | .streamContextDrain v => Sys2Proof.Machine.execStreamContextDrain v s
  | .evcfgWrite v sl => Sys2Proof.Machine.execEvcfgWrite v sl s
  | .eventPacketArrival id => Sys2Proof.Machine.execEventPacketArrival id s
  | .packetAck id => Sys2Proof.Machine.execPacketAck id s
  | .packetNack id => Sys2Proof.Machine.execPacketNack id s
  | .markerResend id => Sys2Proof.Machine.execMarkerResend id s
  | .stepMarkerSend v range => Sys2Proof.Machine.execStepMarkerSend v range s
  | .queueKick io q => Sys2Proof.Machine.execQueueKick io q s
  | .packetReread io q => Sys2Proof.Machine.execPacketReread io q s
  | .queueStale io q => Sys2Proof.Machine.execQueueStale io q s
  | .preconditionMet io q => Sys2Proof.Machine.execPreconditionMet io q s
  | .holdDeadline io q => Sys2Proof.Machine.execHoldDeadline io q s
  | .kernelPlacement io q => Sys2Proof.Machine.execKernelPlacement io q s
  | .imageLoad kid => Sys2Proof.Machine.execImageLoad kid s
  | .startMessage kid core => Sys2Proof.Machine.execStartMessage kid core s
  | .poolDispatch die => Sys2Proof.Machine.execPoolDispatch die s
  | .kernelEndSequence kid => Sys2Proof.Machine.execKernelEndSequence kid s
  | .kernelEnding kid => Sys2Proof.Machine.execKernelEnding kid s
  | .preemptionTrap v sl => Sys2Proof.Machine.execPreemptionTrap v sl s
  | .migrationTrap v sl => Sys2Proof.Machine.execMigrationTrap v sl s
  | .migrationForceExpiry v sl => Sys2Proof.Machine.execMigrationForceExpiry v sl s
  | .spillDone v sl => Sys2Proof.Machine.execSpillDone v sl s
  | .fillDone v sl => Sys2Proof.Machine.execFillDone v sl s
  | .illegalInstruction w => Sys2Proof.Machine.execIllegalInstruction w s
  | .contextKill ctx => Sys2Proof.Machine.execContextKill ctx s
  | .jorraxReplayTimeout port => Sys2Proof.Machine.execJorraxReplayTimeout port s
  | .shoot id => Sys2Proof.Machine.execShoot id s
  | .wake id => Sys2Proof.Machine.execWake id s
  | .move id => Sys2Proof.Machine.execMove id s
  | .clockGate v => Sys2Proof.Machine.execClockGate v s
  | .powerGate v unit => Sys2Proof.Machine.execPowerGate v unit s
  | .queueRegister io q desc => Sys2Proof.Machine.execQueueRegister io q desc s
  | .queueResume io q => Sys2Proof.Machine.execQueueResume io q s
  | .contextDescriptorWrite ctx dw val => Sys2Proof.Machine.execContextDescriptorWrite ctx dw val s
  | .collectiveAbort io comm => Sys2Proof.Machine.execCollectiveAbort io comm s
  | .preempt v sl => Sys2Proof.Machine.execPreempt v sl s
  | .migrate v sl atbar => Sys2Proof.Machine.execMigrate v sl atbar s
  | .spill v sl => Sys2Proof.Machine.execSpill v sl s
  | .fill v sl => Sys2Proof.Machine.execFill v sl s
  | .swapin v sl => Sys2Proof.Machine.execSwapin v sl s
  | .resume v sl => Sys2Proof.Machine.execResume v sl s
  | .reportPost => Sys2Proof.Machine.execReportPost s
  | .remapGo val => Sys2Proof.Machine.execRemapGo val s
  | .remapMoveComplete => Sys2Proof.Machine.execRemapMoveComplete s
  | .pageWalk st ctx va acc => Sys2Proof.Machine.execPageWalk st ctx va acc s
  | .ringClockChange mhz => Sys2Proof.Machine.execRingClockChange mhz s
  | .clockStallComplete => Sys2Proof.Machine.execClockStallComplete s
  | .jorraxPortUp port far offer => Sys2Proof.Machine.execJorraxPortUp port far offer s
  | .jorraxPortDown port => Sys2Proof.Machine.execJorraxPortDown port s
  | .jorraxFlitReceive port text tag => Sys2Proof.Machine.execJorraxFlitReceive port text tag s
  | .jorraxAck port seq => Sys2Proof.Machine.execJorraxAck port seq s
  | .jorraxNak port seq => Sys2Proof.Machine.execJorraxNak port seq s
  | .keySlotWrite port tx slot key => Sys2Proof.Machine.execKeySlotWrite port tx slot key s
  | .keySwitch port => Sys2Proof.Machine.execKeySwitch port s
  | .remoteAccess src off op size val => Sys2Proof.Machine.execRemoteAccess src off op size val s
  | .timeSyncExchange port diff => Sys2Proof.Machine.execTimeSyncExchange port diff s
  | .timeSyncLoss => Sys2Proof.Machine.execTimeSyncLoss s
  | .counterWindowWrite off size val => Sys2Proof.Machine.execCounterWindowWrite off size val s
  | .hostMemoryAccess write addr size val => Sys2Proof.Machine.execHostMemoryAccess write addr size val s
  | .waisarReading frame => Sys2Proof.Machine.execWaisarReading frame s
  | .waisarVersionOffer etherType payload => Sys2Proof.Machine.execWaisarVersionOffer etherType payload s
  | .telemetryLoss => Sys2Proof.Machine.execTelemetryLoss s
  | .shedForceExpiry => Sys2Proof.Machine.execShedForceExpiry s
  | .restoreHoldExpiry => Sys2Proof.Machine.execRestoreHoldExpiry s
  | .powerWindowEnd watts meter => Sys2Proof.Machine.execPowerWindowEnd watts meter s
  | .overcapEnd => Sys2Proof.Machine.execOvercapEnd s
  | .droopDetect cluster => Sys2Proof.Machine.execDroopDetect cluster s
  | .canaryWarning cluster => Sys2Proof.Machine.execCanaryWarning cluster s
  | .canaryStepDown cluster => Sys2Proof.Machine.execCanaryStepDown cluster s
  | .sensorRead v temp => Sys2Proof.Machine.execSensorRead v temp s
  | .thermalClockStep => Sys2Proof.Machine.execThermalClockStep s
  | .samplingPulse => Sys2Proof.Machine.execSamplingPulse s
  | .moduleReset powerOn => Sys2Proof.Machine.execModuleReset powerOn s
  | .firmwareVerify slot img => Sys2Proof.Machine.execFirmwareVerify slot img s
  | .linkBringup info => Sys2Proof.Machine.execLinkBringup info s
  | .supervisorVerify img => Sys2Proof.Machine.execSupervisorVerify img s
  | .attestationRequest nonce => Sys2Proof.Machine.execAttestationRequest nonce s
  | .registerWrite addr val => Sys2Proof.Machine.execRegisterWrite addr val s
  | .instructionFetchFault => Sys2Proof.Machine.execInstructionFetchFault s
  | .softError line => Sys2Proof.Machine.execSoftError line s
  | .clusterPairCurrentSample die k ia ib => Sys2Proof.Machine.execClusterPairCurrentSample die k ia ib s
  | .rackBusOutOfRange mv => Sys2Proof.Machine.execRackBusOutOfRange mv s

end Sys2Proof.Machine
end

