-- ==== Sys2Proof/Machine/Schedule.lean ====
section
/-!
DEFINITION. Sys2Proof/Machine/Schedule.lean: what a scheduled step does, the schedule the machine follows where none is given,
and the fetch (04_threads R65, R68, R75; log 1).
-/
namespace Sys2Proof.Machine

/-! ## One turn -/

/-- The core of a slot runs, its idle time at an end: gated, it wakes (R113, R351). -/
def State.wake (s : State) (v : Nat) : State :=
  if (s.vc v).clockGated || (s.vc v).powerGated.contains 0 || (s.vc v).idleSince.isSome then
    s.updVc v fun c => { c with clockGated := false, powerGated := setErase c.powerGated 0, idleSince := none }
  else s

/-- The thread in the current slot issues (R65, R84, R110, R362): a wait-escalation trap that is due at its boundary or a breakpoint
first, else the instruction its word decodes to, or what stands in its place. -/
def State.issueOne (s : State) : Host.Outcome State Fault Refusal :=
  match s.current with
  | none => .next s
  | some (tid, t) =>
    if t.escNow.isSome then .next (s.escalateNow tid)
    else if s.breaks t then execBreakpointTrap s.cur.1 s.cur.2 s
    else match s.fetch t with
      | .error _ => execInstructionFetchFault s
      | .ok w => match decode w with
        | some i => exec i s
        | none => execIllegalInstruction w s

/-- A core in one ac (R75): the slot the arbiter picks issues; nothing where it has issued in this ac, issue stands or the ac is
withheld. A gated core wakes where it has a thread to issue. -/
def State.coreTurn (s : State) (v : Nat) : Host.Outcome State Fault Refusal :=
  if s.stalled || (s.issuedIn v).isSome || s.withholds v then .next s
  else match s.pickSlot v with
    | none => .next s
    | some w => State.issueOne { (s.wake v).noteWin v w with cur := (v, w.1) }

/-- The next step of a thread's retirement (R68): its long results, then the instruction at the walk's position; none once the
clocks have stopped in a thermal trip (R352). -/
def State.walkTurn (s : State) (v sl : Nat) : Host.Outcome State Fault Refusal :=
  if s.power.trip then .next s else
  match s.inSlot v sl with
  | none => .next s
  | some (tid, t) =>
    match t.run with
    | .ready => .next s
    | .wait => if t.wait.any (fun w => w.verdict.isSome || decide (s.pt ≤ w.deadline)) then execWaitConditionMet tid s
      else execWaitDeadlineExpiry tid s
    | .block =>
      if !t.walking then
        match t.block.findIdx? fun e => e.st == .sent with
        | some idx => execLongResultReturn v sl idx false s
        | none => execBlockRetire v sl s
      else match t.block with
        | [] => execBlockRetire v sl s
        | e :: _ =>
          if e.st == .sent then execLongResultReturn v sl 0 false s
          else if e.st != .done then execBlockRetire v sl s
          else if e.deferred || !e.stores.isEmpty then
            match e.phase with
            | .presented _ => execStoreAcceptance v sl s
            | _ => exec e.ins { s with cur := (v, sl) }
          else if e.writesEvcfg then execEvcfgWrite v sl s
          else execBlockRetire v sl s

/-- An event of the machine or of its surroundings: a row with no word, other than what only an issue brings about. -/
def Act.isEvent (i : Instr) : Bool :=
  match i with
  | .illegalInstruction _ | .instructionFetchFault => false
  | i => (encode i).isNone

/-- An event that happens in a thermal trip (R352), while every arithmetic clock stands and LPDDR-6 refreshes itself: what the
management controller, the power controller, the links and the surroundings do (log 28). -/
def Act.inTrip (i : Instr) : Bool :=
  match i with
  | .moduleReset _ | .sensorRead _ _ | .waisarReading _ | .waisarVersionOffer _ _ | .telemetryLoss | .powerWindowEnd _ _ | .overcapEnd
  | .rackBusOutOfRange _ | .canaryWarning _ | .canaryStepDown _ | .attestationRequest _ | .registerWrite _ _
  | .hostMemoryAccess _ _ _ _ | .remoteAccess _ _ _ _ _ | .counterWindowWrite _ _ _ | .jorraxPortUp _ _ _ | .jorraxPortDown _
  | .jorraxFlitReceive _ _ _ | .jorraxAck _ _ | .jorraxNak _ _ | .jorraxReplayTimeout _ | .keySlotWrite _ _ _ _ | .keySwitch _
  | .timeSyncExchange _ _ | .timeSyncLoss | .softError _ => true
  | _ => false

/-- The host or another package writes memory of its own. -/
def State.outside (s : State) (loc : Nat) (bytes : List Byte) : State :=
  if isRemote loc || isHost loc then s.writeBytes loc bytes else s

/-- What a turn does. -/
def State.act (s : State) (a : Act) : Host.Outcome State Fault Refusal :=
  match a with
  | .core v => s.coreTurn v
  | .walk v sl => s.walkTurn v sl
  | .event i => if Act.isEvent i && (!s.power.trip || Act.inTrip i) then exec i s else .next s
  | .ring n => .next (s.ringHop n)
  | .outside loc bytes => .next (s.outside loc bytes)

/-! ## Time -/

/-- A core one of whose slots is not idle counts its idle time anew (R113). -/
def State.noteBusy (s : State) : State :=
  (s.vcores.filter fun e => e.2.idleSince.isSome && !s.coreIdle e.1).foldl
    (fun s e => s.updVc e.1 fun c => { c with idleSince := none }) s

/-- Package time and cycles pass (R19, R101, R105, R113, R334, R356): what waits for room is looked at first and the pulses on the way
fire; the trim lengthens or shortens the ns of the package's own count; cycles stand while the clock does. -/
def State.pass (s : State) (ns ac : Nat) : State :=
  if ns = 0 && ac = 0 then s
  else
    let s := s.seeRoom.noteBusy
    let acc := s.trimAcc + s.trim * Int.ofNat ns
    let pt := s.pt + (Int.ofNat ns + Int.tdiv acc 1000000000).toNat
    let ac := if s.stalled then s.ac else s.ac + ac
    { s.pulsesUntil pt ac with pt := pt, trimAcc := Int.tmod acc 1000000000, ac := ac }

/-! ## The schedule where none is given (log 1) -/

/-- A step that may be taken. -/
abbrev Try := State → Host.Outcome State Fault Refusal

/-- The outcome of the first step that changes more than the current slot, or stops. -/
def State.firstChange (s : State) (l : List Try) : Option (Host.Outcome State Fault Refusal) :=
  match l with
  | [] => none
  | f :: r => match f s with
    | .next s' => if { s' with cur := s.cur } = s then s.firstChange r else some (.next s')
    | o => some o

/-- Steps that need no arithmetic clock: the links' and the power controller's. -/
def State.clocklessTries (s : State) : List Try :=
  let ports : List Try := (List.range 12).flatMap fun p => match (s.port p).replay.getLast? with
    | some f => if (s.port p).up then [execJorraxAck p f.flit.seq.toNat, execJorraxReplayTimeout p] else []
    | none => []
  ports ++ [execOvercapEnd, execTelemetryLoss, execTimeSyncLoss]

/-- Steps of the units beyond the cores. -/
def State.unitTries (s : State) : List Try :=
  let hops : List Try := s.ring.filterMap fun e =>
    if e.2.cw.isEmpty && e.2.acw.isEmpty && e.2.wait.isEmpty then none else some fun s => .next (s.ringHop e.1)
  let cmds : List Try := s.cmds.flatMap fun c =>
    let go : List Try := match c.st with
      | .completing => [execCommandCompletion c.id]
      | _ => [execCommandDeadline c.id, execShoot c.id, execWake c.id, execMove c.id, execCommandStart c.id 1]
    go
  let packets : List Try := s.packets.flatMap fun p =>
    ([execEventPacketArrival p.id, execPacketAck p.id, execPacketNack p.id] : List Try) ++
      (if p.resend && decide (p.sentAt + 1000 ≤ s.pt) then [execMarkerResend p.id] else [])
  let markers : List Try := s.sdus.flatMap fun e => (List.range 8).map fun r => execStepMarkerSend e.1 r
  let kernels : List Try := s.kernels.flatMap fun e =>
    ([execKernelEndSequence e.1, execImageLoad e.1] : List Try) ++ (e.2.cores.map fun c => (execStartMessage e.1 c.v : Try)) ++
    [execKernelEnding e.1]
  let queues : List Try := s.queues.flatMap fun e =>
    let io := e.1 / 64
    let q := e.1 % 64
    let again : List Try := if e.2.lastRead.all fun r => decide (r + 1000 ≤ s.pt) then [execPacketReread io q] else []
    ([execQueueKick io q] : List Try) ++ again ++ ([execQueueStale io q, execPreconditionMet io q, execKernelPlacement io q,
      execHoldDeadline io q] : List Try)
  let banks : List Try := s.vcores.flatMap fun e => (List.range 4).flatMap fun sl =>
    ([execSpillDone e.1 sl, execFillDone e.1 sl] : List Try)
  let kills : List Try := s.ctxs.filterMap fun e => if e.2.killing then some (execContextKill e.1) else none
  let pools : List Try := s.pools.map fun e => execPoolDispatch e.1
  let posted : List Try := if s.posted.isEmpty then [] else [execPostedFaultReport 0]
  [execClockStallComplete, execRemapMoveComplete, execReportPost] ++ posted ++ (s.replies.map fun r => (execReplyArrival r.id : Try)) ++
  (s.storeBuf.map fun p => (execStorePerform p.id : Try)) ++ hops ++ packets ++ markers ++ cmds ++ kernels ++ pools ++ queues ++ banks ++ kills ++
  [execSamplingPulse, execThermalClockStep, execRestoreHoldExpiry]

/-- Steps of the threads in slots. -/
def State.threadTries (s : State) : List Try :=
  let each := fun (e : Nat × Thread) =>
    match e.2.place with
    | .slot v sl =>
      let stream : List Try := match e.2.wait with
        | some w => match w.kind with
          | .stream j => [execStreamDataReady v sl j, execStreamDeadline v sl]
          | _ => []
        | none => []
      let window : List Try := if e.2.winCount = 0 then [] else [execTimeoutWindowBoundary e.1]
      ([execFollowMove v sl, execPreemptionTrap v sl, execMigrationForceExpiry v sl, execMigrationTrap v sl, execStreamContextDrain v] : List Try) ++
      stream ++ window ++
      ([execStoreAcceptance v sl, execLtbExpiry v sl, execHangReportA v sl, execHangReportB v sl, execHostCounterPoll e.1,
        fun s => s.walkTurn v sl] : List Try)
    | _ => []
  execShedForceExpiry :: s.threads.flatMap each

/-- Issues of the cores that hold a thread. -/
def State.issueTries (s : State) : List Try :=
  let vs := (s.threads.filterMap fun e => if e.2.placed then some e.2.vcore else none).eraseDups
  vs.map fun v s => s.coreTurn v

/-- One cycle of the arithmetic clock passes, and the ns it takes at its rate (R19); only time, while the clock stands. -/
def State.tick (s : State) : State :=
  let m := max s.mhz 1
  if s.stalled then s.pass 1 0 else s.pass ((s.ac + 1) * 1000 / m - s.ac * 1000 / m) 1

/-- The times at which something waits. -/
def State.alarms (s : State) : List Nat :=
  s.dbg.nextPulse.toList ++ (s.threads.flatMap fun e => e.2.allWaits.map fun w => w.deadline + 1) ++ (s.cmds.map fun c => c.deadline) ++
  (s.queues.flatMap fun e => (e.2.hold + 1) :: (e.2.t0.getD 0 + e.2.staleNs + 1) ::
    (e.2.lastRead.toList.map fun r => r + 1000)) ++
  ((s.packets.filter fun p => p.resend).map fun p => p.sentAt + 1000) ++
  (s.threads.flatMap fun e => (e.2.migrate.toList.map fun m => m.2.1) ++ e.2.shedReq.toList)

/-- Time to the next alarm, where nothing can issue. -/
def State.idle (s : State) : State :=
  match (s.alarms.filter fun a => decide (s.pt < a)).min? with
  | some a => s.pass (a - s.pt) ((a - s.pt) * s.mhz / 1000)
  | none => s.tick

/-- A core could issue in another ac. -/
def State.someReady (s : State) : Bool :=
  !s.stalled && s.threads.any fun e => e.2.placed && s.eligible e.2

/-- What may be tried: after a thermal trip only what needs no clock (R352). -/
def State.tries (s : State) : List Try :=
  s.clocklessTries ++ if s.power.trip then [] else s.unitTries ++ s.threadTries ++ s.issueTries

/-- A step the schedule does not cover: whatever is due, then retirement, then an issue on a core that has not issued in this
ac; when nothing is left to do, time passes. -/
def State.free_ (s : State) : Host.Outcome State Fault Refusal :=
  match s.firstChange s.tries with
  | some o => o
  | none => .next (if s.someReady then s.tick else s.idle)

end Sys2Proof.Machine
end

