-- ==== Sys2Proof/Machine/Step.lean ====
section
/-!
DEFINITION. Sys2Proof/Machine/Step.lean: one step of the machine, and the state in which the next step fetches a given word.
-/
namespace Sys2Proof.Machine

/-- One step: the next turn of the schedule, or, where it is empty, what is due of itself (log 1). -/
def step (s : State) : Host.Outcome State Fault Refusal :=
  match s.agenda with
  | [] => State.free_ { s with pick := 0 }
  | t :: r => State.act { s.pass t.ns t.ac with agenda := r, pick := t.pick } t.act

/-- The turn in which core 0 issues at once. -/
def fetchTurn : Turn := ⟨0, 0, .core 0, 0⟩

/-- A word stored at the PC of the thread that vcore 0 issues from next; where none can issue, of a supervisor thread of
context 0 put into a slot (log 12). -/
def State.withFetchWord (s : State) (_nbits w : Nat) : State :=
  let s := { s with
    agenda := [fetchTurn], clockChange := none, power := { s.power with trip := false, throttle := [], hot := [], stretch := [], restThr := 0 }
    dbg := { s.dbg with issuedNow := mapErase s.dbg.issuedNow 0 } }
  let s := s.wake 0
  let put := fun (s : State) (tid : Nat) (t : Thread) (loc : Nat) =>
    ({ s with mem := writeRun s.mem loc (bytesOf (w % 2 ^ 32) 4), poison := setErase s.poison (lineOf loc) } : State).setThr tid
      { t with bpIgnore := some t.pc, stale := [], escDue := none }
  let fresh :=
    let sl := ((List.range 4).find? fun n => (s.inSlot 0 n).isNone).getD 0
    let s := { s with threads := s.threads.filter fun (e : Nat × Thread) => e.2.place != Place.slot 0 sl }
    put { s with nextId := s.nextId + 1 } s.nextId
      { s.freshThread 0 sl 0 0 none false false 0x2000000 [] with shedReq := none } (istLoc 0 0)
  match s.pickSlot 0 with
  | none => fresh
  | some (sl, _) =>
    match s.inSlot 0 sl with
    | none => fresh
    | some (tid, t) => match ({ s with poison := [] } : State).fetchLoc t with
      | .error _ => fresh
      | .ok loc => put s tid t loc

end Sys2Proof.Machine
end

