-- ==== Sys2Proof/Safety.lean ====
section
/-!
DEFINITION. Sys2Proof/Safety.lean: what a safe run is, and the invariants the statements speak of.
-/
namespace Sys2Proof.Machine

/-- The next state of an outcome satisfies a property; a stop has no next state. -/
def Leads (o : Host.Outcome State Fault Refusal) (p : State → Prop) : Prop :=
  match o with
  | .next s => p s
  | .fault _ | .refused _ => True

/-- A run of `n` steps stops nowhere. -/
def SafeFor (n : Nat) (s : State) : Prop :=
  match n with
  | 0 => True
  | n + 1 => match step s with
    | .next s' => SafeFor n s'
    | .fault _ | .refused _ => False

/-- A property every step keeps, from every state that has it. -/
def Kept (p : State → Prop) : Prop := ∀ s, p s → Leads (step s) p

/-- The store of bytes is in its one canonical form. -/
def MemoryCanonical (s : State) : Prop := Memory.wf s.mem = true

/-- The state in which a turn of the schedule acts: the turn is taken off, its time has passed (log 1). -/
def State.turned (s : State) (k : Turn) (rest : List Turn) : State := { s.pass k.ns k.ac with agenda := rest, pick := k.pick }

/-! ## Issue -/

/-- The thread of the current slot issues an instruction of a form with no trap and no wait: it is Ready and not shed, the
word is open to it (R33, R35, R77), its sources are full (R71), no access makes it move (R73), the vectors it pops are
there, without a fault (R178 to R181), and where it reads TCM as it issues its place in deterministic mode has come (R364). -/
structure Issuing (s : State) (tid : Nat) (t : Thread) (i : Instr) (f : Form) : Prop where
  here   : s.current = some (tid, t)
  ready  : t.run = .ready
  served : t.shed = false
  open_  : t.issueTrap i f = none
  full   : t.emptyRead f.reads = none
  settled : s.followNow t = none
  stays  : s.followAsk t i = none
  turn   : readsTcm i = true → s.detGate t.ctx t.detKey = true
  popped : s.popBlocked t (t.popList f.vreads) = none
  clean  : t.popFault (t.popList f.vreads) = none

/-- The state in which an issuing instruction reads its operands: the issue is noted, and the streams it pops are used. -/
def State.bodyState (s : State) (t : Thread) (f : Form) : State :=
  let s1 : State := { s with dbg := { s.dbg with issuedNow := mapSet s.dbg.issuedNow t.vcore (s.ac * 8 + t.slot) } }
  if (t.popList f.vreads).isEmpty || !s.streamsIn t then s1 else s1.touchStreams (s.blockStart t)

/-- A thread as an instruction that issues leaves it beside its block: what its block's first instruction samples, when it issued
last, and the match a breakpoint ignores, gone at level 0 (R97, R348, R362). -/
def State.issued (s : State) (t : Thread) : Thread :=
  { s.blockStart t with
    issued := t.issued + 1, issuedAt := s.ac + 1, followTo := none, bpIgnore := if t.level = 0 then none else t.bpIgnore }

/-- The state after an instruction has joined its thread's block with the given entry, the thread going on at `next` (R65,
R97, R178): nothing else of the machine has changed, but that the requests of a load it has sent are at their ring stop or port
(R320, R325). The block closes after a marker, a closing instruction or its sixteenth instruction. -/
def State.joined (s : State) (tid : Nat) (t : Thread) (f : Form) (e : Entry) (next : Word) : State :=
  let pops := t.popList f.vreads
  let grown : Thread := { (s.issued t).takePops pops with block := t.block ++ [{ e with pops := t.popMarks pops }], pc := next }
  State.postReads { s with
    dbg := { s.dbg with issuedNow := mapSet s.dbg.issuedNow t.vcore (s.ac * 8 + t.slot) }
    vcores := if pops.isEmpty || !s.streamsIn t then s.vcores else (s.touchStreams t).vcores
    threads := mapSet s.threads tid (if f.mark || f.closes || t.issued == 15 then grown.close s.pt else grown) }
    tid (s.blockStart t) e

/-- The state after an instruction that faulted as it issued: its entry holds the fault, the PC stays and the block closes
(R33, R67). -/
def State.stopped (s : State) (tid : Nat) (t : Thread) (e : Entry) (x : Trap) : State :=
  let grown : Thread := { s.issued t with block := t.block ++ [e.fail x] }
  { s with
    dbg := { s.dbg with issuedNow := mapSet s.dbg.issuedNow t.vcore (s.ac * 8 + t.slot) }
    threads := mapSet s.threads tid (grown.close s.pt) }

/-- The entry of an instruction that starts in a thread. -/
def State.entry (s : State) (t : Thread) (i : Instr) : Entry := Entry.blank i t.pc s.pt

/-- The low word of an integer, sign-extended (R87). -/
def word32 (n : Int) : Word := (BitVec.ofInt 32 n).signExtend 64

/-- Instructions with a short result (R66, R81, R85 to R87, R90): the registers they read, the register they write, their
marker, and the value they write, from the PC and the registers as the thread reads them. -/
inductive ShortResult (pc : Word) (x : Reg → Word) : Instr → List Reg → Reg → Bool → Word → Prop
  | lui rd imm mark : ShortResult pc x (.lui rd imm mark) [] rd mark (BitVec.ofInt 64 (imm.toInt * 4096))
  | auipc rd imm mark : ShortResult pc x (.auipc rd imm mark) [] rd mark (pc + BitVec.ofInt 64 (imm.toInt * 4096))
  | addi rd a imm mark : ShortResult pc x (.addi rd a imm mark) [a] rd mark (x a + BitVec.ofInt 64 imm.toInt)
  | slti rd a imm mark : ShortResult pc x (.slti rd a imm mark) [a] rd mark (if (x a).toInt < imm.toInt then 1 else 0)
  | sltiu rd a imm mark :
    ShortResult pc x (.sltiu rd a imm mark) [a] rd mark (if (x a).toNat < (BitVec.ofInt 64 imm.toInt).toNat then 1 else 0)
  | xori rd a imm mark : ShortResult pc x (.xori rd a imm mark) [a] rd mark (x a ^^^ BitVec.ofInt 64 imm.toInt)
  | ori rd a imm mark : ShortResult pc x (.ori rd a imm mark) [a] rd mark (x a ||| BitVec.ofInt 64 imm.toInt)
  | andi rd a imm mark : ShortResult pc x (.andi rd a imm mark) [a] rd mark (x a &&& BitVec.ofInt 64 imm.toInt)
  | slli rd a sh mark : ShortResult pc x (.slli rd a sh mark) [a] rd mark (w64 ((x a).toNat * 2 ^ sh.toNat))
  | srli rd a sh mark : ShortResult pc x (.srli rd a sh mark) [a] rd mark (w64 ((x a).toNat / 2 ^ sh.toNat))
  | srai rd a sh mark : ShortResult pc x (.srai rd a sh mark) [a] rd mark (BitVec.ofInt 64 ((x a).toInt / 2 ^ sh.toNat))
  /-- CLZ: every bit above position 63 − n is 0, and bit 63 − n is 1 unless n is 64. -/
  | clz rd a mark n (le : n ≤ 64) (zeros : ∀ i, 64 - n ≤ i → (x a).getLsbD i = false)
      (top : n < 64 → (x a).getLsbD (63 - n) = true) : ShortResult pc x (.clz rd a mark) [a] rd mark (w64 n)
  /-- CTZ: every bit below position n is 0, and bit n is 1 unless n is 64. -/
  | ctz rd a mark n (le : n ≤ 64) (zeros : ∀ i, i < n → (x a).getLsbD i = false)
      (top : n < 64 → (x a).getLsbD n = true) : ShortResult pc x (.ctz rd a mark) [a] rd mark (w64 n)
  | cpop rd a mark :
    ShortResult pc x (.cpop rd a mark) [a] rd mark (w64 ((List.range 64).filter fun i => (x a).getLsbD i).length)
  | addiw rd a imm mark : ShortResult pc x (.addiw rd a imm mark) [a] rd mark (word32 ((x a).toInt + imm.toInt))
  | slliw rd a sh mark : ShortResult pc x (.slliw rd a sh mark) [a] rd mark (word32 ((x a).toInt * 2 ^ sh.toNat))
  | srliw rd a sh mark : ShortResult pc x (.srliw rd a sh mark) [a] rd mark (word32 ((x a).toNat % 2 ^ 32 / 2 ^ sh.toNat : Nat))
  | sraiw rd a sh mark :
    ShortResult pc x (.sraiw rd a sh mark) [a] rd mark (word32 (((x a).setWidth 32).toInt / 2 ^ sh.toNat))
  | add rd a b mark : ShortResult pc x (.add rd a b mark) [a, b] rd mark (x a + x b)
  | sub rd a b mark : ShortResult pc x (.sub rd a b mark) [a, b] rd mark (x a - x b)
  | sll rd a b mark : ShortResult pc x (.sll rd a b mark) [a, b] rd mark (w64 ((x a).toNat * 2 ^ ((x b).toNat % 64)))
  | slt rd a b mark : ShortResult pc x (.slt rd a b mark) [a, b] rd mark (if (x a).toInt < (x b).toInt then 1 else 0)
  | sltu rd a b mark : ShortResult pc x (.sltu rd a b mark) [a, b] rd mark (if (x a).toNat < (x b).toNat then 1 else 0)
  | xor rd a b mark : ShortResult pc x (.xor rd a b mark) [a, b] rd mark (x a ^^^ x b)
  | srl rd a b mark : ShortResult pc x (.srl rd a b mark) [a, b] rd mark (w64 ((x a).toNat / 2 ^ ((x b).toNat % 64)))
  | sra rd a b mark : ShortResult pc x (.sra rd a b mark) [a, b] rd mark (BitVec.ofInt 64 ((x a).toInt / 2 ^ ((x b).toNat % 64)))
  | or rd a b mark : ShortResult pc x (.or rd a b mark) [a, b] rd mark (x a ||| x b)
  | and rd a b mark : ShortResult pc x (.and rd a b mark) [a, b] rd mark (x a &&& x b)
  | orn rd a b mark : ShortResult pc x (.orn rd a b mark) [a, b] rd mark (x a ||| ~~~ x b)
  | andn rd a b mark : ShortResult pc x (.andn rd a b mark) [a, b] rd mark (x a &&& ~~~ x b)
  | min rd a b mark : ShortResult pc x (.min rd a b mark) [a, b] rd mark (if (x b).toInt < (x a).toInt then x b else x a)
  | max rd a b mark : ShortResult pc x (.max rd a b mark) [a, b] rd mark (if (x a).toInt < (x b).toInt then x b else x a)
  | minu rd a b mark : ShortResult pc x (.minu rd a b mark) [a, b] rd mark (if (x b).toNat < (x a).toNat then x b else x a)
  | maxu rd a b mark : ShortResult pc x (.maxu rd a b mark) [a, b] rd mark (if (x a).toNat < (x b).toNat then x b else x a)
  | sh1add rd a b mark : ShortResult pc x (.sh1add rd a b mark) [a, b] rd mark (w64 ((x a).toNat * 2 + (x b).toNat))
  | sh2add rd a b mark : ShortResult pc x (.sh2add rd a b mark) [a, b] rd mark (w64 ((x a).toNat * 4 + (x b).toNat))
  | sh3add rd a b mark : ShortResult pc x (.sh3add rd a b mark) [a, b] rd mark (w64 ((x a).toNat * 8 + (x b).toNat))
  | addw rd a b mark : ShortResult pc x (.addw rd a b mark) [a, b] rd mark (word32 ((x a).toInt + (x b).toInt))
  | subw rd a b mark : ShortResult pc x (.subw rd a b mark) [a, b] rd mark (word32 ((x a).toInt - (x b).toInt))
  | sllw rd a b mark : ShortResult pc x (.sllw rd a b mark) [a, b] rd mark (word32 ((x a).toInt * 2 ^ ((x b).toNat % 32)))
  | srlw rd a b mark :
    ShortResult pc x (.srlw rd a b mark) [a, b] rd mark (word32 ((x a).toNat % 2 ^ 32 / 2 ^ ((x b).toNat % 32) : Nat))
  | sraw rd a b mark :
    ShortResult pc x (.sraw rd a b mark) [a, b] rd mark (word32 (((x a).setWidth 32).toInt / 2 ^ ((x b).toNat % 32)))

/-- Multiplications and divisions (R66, R88, R89): registers read, the register written, marker, the long result, and the
vflags bits they set (2 is DZ). -/
inductive LongResult (x : Reg → Word) : Instr → List Reg → Reg → Bool → Word → Flags → Prop
  | mul rd a b mark : LongResult x (.mul rd a b mark) [a, b] rd mark (w64 ((x a).toNat * (x b).toNat)) 0
  | mulh rd a b mark :
    LongResult x (.mulh rd a b mark) [a, b] rd mark (BitVec.ofInt 64 ((x a).toInt * (x b).toInt / 2 ^ 64)) 0
  | mulhsu rd a b mark :
    LongResult x (.mulhsu rd a b mark) [a, b] rd mark (BitVec.ofInt 64 ((x a).toInt * ((x b).toNat : Int) / 2 ^ 64)) 0
  | mulhu rd a b mark : LongResult x (.mulhu rd a b mark) [a, b] rd mark (w64 ((x a).toNat * (x b).toNat / 2 ^ 64)) 0
  | mulw rd a b mark : LongResult x (.mulw rd a b mark) [a, b] rd mark (word32 ((x a).toInt * (x b).toInt)) 0
  | div rd a b mark :
    LongResult x (.div rd a b mark) [a, b] rd mark
      (if x b = 0 then -1 else BitVec.ofInt 64 ((x a).toInt.tdiv (x b).toInt)) (if x b = 0 then 2 else 0)
  | divu rd a b mark :
    LongResult x (.divu rd a b mark) [a, b] rd mark
      (if x b = 0 then -1 else w64 ((x a).toNat / (x b).toNat)) (if x b = 0 then 2 else 0)
  | rem rd a b mark :
    LongResult x (.rem rd a b mark) [a, b] rd mark
      (if x b = 0 then x a else BitVec.ofInt 64 ((x a).toInt.tmod (x b).toInt)) (if x b = 0 then 2 else 0)
  | remu rd a b mark :
    LongResult x (.remu rd a b mark) [a, b] rd mark
      (if x b = 0 then x a else w64 ((x a).toNat % (x b).toNat)) (if x b = 0 then 2 else 0)
  | divw rd a b mark :
    LongResult x (.divw rd a b mark) [a, b] rd mark
      (if low32 (x b) = 0 then -1 else word32 ((low32 (x a)).toInt.tdiv (low32 (x b)).toInt)) (if low32 (x b) = 0 then 2 else 0)
  | divuw rd a b mark :
    LongResult x (.divuw rd a b mark) [a, b] rd mark
      (if low32 (x b) = 0 then -1 else word32 ((low32 (x a)).toNat / (low32 (x b)).toNat : Nat)) (if low32 (x b) = 0 then 2 else 0)
  | remw rd a b mark :
    LongResult x (.remw rd a b mark) [a, b] rd mark
      (if low32 (x b) = 0 then word32 (x a).toInt else word32 ((low32 (x a)).toInt.tmod (low32 (x b)).toInt))
      (if low32 (x b) = 0 then 2 else 0)
  | remuw rd a b mark :
    LongResult x (.remuw rd a b mark) [a, b] rd mark
      (if low32 (x b) = 0 then word32 (x a).toInt else word32 ((low32 (x a)).toNat % (low32 (x b)).toNat : Nat))
      (if low32 (x b) = 0 then 2 else 0)

/-- Branches (R83): the registers they compare, the offset in halfwords, the marker, and when they are taken. -/
inductive Branch (x : Reg → Word) : Instr → Reg → Reg → BitVec 12 → Bool → Prop → Prop
  | beq a b off mark : Branch x (.beq a b off mark) a b off mark (x a = x b)
  | bne a b off mark : Branch x (.bne a b off mark) a b off mark (x a ≠ x b)
  | blt a b off mark : Branch x (.blt a b off mark) a b off mark ((x a).toInt < (x b).toInt)
  | bge a b off mark : Branch x (.bge a b off mark) a b off mark ((x b).toInt ≤ (x a).toInt)
  | bltu a b off mark : Branch x (.bltu a b off mark) a b off mark ((x a).toNat < (x b).toNat)
  | bgeu a b off mark : Branch x (.bgeu a b off mark) a b off mark ((x b).toNat ≤ (x a).toNat)

/-- Loads (R91): destination, base, offset, marker, size in bytes, and whether the value is sign-extended. -/
inductive ScalarLoad : Instr → Reg → Reg → BitVec 12 → Bool → Nat → Bool → Prop
  | lb rd a imm mark : ScalarLoad (.lb rd a imm mark) rd a imm mark 1 true
  | lh rd a imm mark : ScalarLoad (.lh rd a imm mark) rd a imm mark 2 true
  | lw rd a imm mark : ScalarLoad (.lw rd a imm mark) rd a imm mark 4 true
  | ld rd a imm mark : ScalarLoad (.ld rd a imm mark) rd a imm mark 8 false
  | lbu rd a imm mark : ScalarLoad (.lbu rd a imm mark) rd a imm mark 1 false
  | lhu rd a imm mark : ScalarLoad (.lhu rd a imm mark) rd a imm mark 2 false
  | lwu rd a imm mark : ScalarLoad (.lwu rd a imm mark) rd a imm mark 4 false

/-- Stores (R91): the register stored, base, offset, marker, size in bytes. -/
inductive ScalarStore : Instr → Reg → Reg → BitVec 12 → Bool → Nat → Prop
  | sb b a imm mark : ScalarStore (.sb b a imm mark) b a imm mark 1
  | sh b a imm mark : ScalarStore (.sh b a imm mark) b a imm mark 2
  | sw b a imm mark : ScalarStore (.sw b a imm mark) b a imm mark 4
  | sd b a imm mark : ScalarStore (.sd b a imm mark) b a imm mark 8

/-- The address of a load or store: base plus offset (R91). -/
def Thread.address (t : Thread) (a : Reg) (imm : BitVec 12) : Nat := (t.readX a + BitVec.ofInt 64 imm.toInt).toNat

/-- CSR instructions (R96): destination, CSR number, marker, the registers read, whether the CSR is read, and the write. -/
inductive CsrForm (x : Reg → Word) : Instr → Reg → BitVec 12 → Bool → List Reg → Bool → Option CsrOp → Prop
  | rw rd c a mark : CsrForm x (.csrrw rd c a mark) rd c mark [a] (rd != 0) (some (.write (x a)))
  | rs rd c a mark : CsrForm x (.csrrs rd c a mark) rd c mark [a] true (if a = 0 then none else some (.set (x a)))
  | rc rd c a mark : CsrForm x (.csrrc rd c a mark) rd c mark [a] true (if a = 0 then none else some (.clear (x a)))
  | rwi rd c z mark : CsrForm x (.csrrwi rd c z mark) rd c mark [] (rd != 0) (some (.write (w64 z.toNat)))
  | rsi rd c z mark : CsrForm x (.csrrsi rd c z mark) rd c mark [] true (if z = 0 then none else some (.set (w64 z.toNat)))
  | rci rd c z mark : CsrForm x (.csrrci rd c z mark) rd c mark [] true (if z = 0 then none else some (.clear (w64 z.toNat)))

/-- Engine commands sent by XCMD (R32, R209, R210): engine, operation, whether the body is the short one, registers, marker. -/
inductive CommandWord : Instr → Nat → Nat → Bool → Reg → Reg → Reg → Bool → Prop
  | mma rd a b mark : CommandWord (.mma rd a b mark) 0 0 false rd a b mark
  | mmaBs rd a b mark : CommandWord (.mmaBs rd a b mark) 0 1 false rd a b mark
  | mlut rd a b mark : CommandWord (.mlut rd a b mark) 0 2 false rd a b mark
  | mbin rd a b mark : CommandWord (.mbin rd a b mark) 0 3 false rd a b mark
  | mzero rd a b mark : CommandWord (.mzero rd a b mark) 0 4 true rd a b mark
  | mlda rd a b mark : CommandWord (.mlda rd a b mark) 0 5 false rd a b mark
  | msta rd a b mark : CommandWord (.msta rd a b mark) 0 6 false rd a b mark
  | tcfg rd a b mark : CommandWord (.tcfg rd a b mark) 0 7 false rd a b mark
  | trel rd a b mark : CommandWord (.trel rd a b mark) 0 8 false rd a b mark
  | mteam rd a b mark : CommandWord (.mteam rd a b mark) 0 9 false rd a b mark
  | copy1 rd a b mark : CommandWord (.copy1 rd a b mark) 1 0 false rd a b mark
  | copy2 rd a b mark : CommandWord (.copy2 rd a b mark) 1 1 false rd a b mark
  | copyx rd a b mark : CommandWord (.copyx rd a b mark) 1 2 false rd a b mark
  | cfill rd a b mark : CommandWord (.cfill rd a b mark) 1 3 false rd a b mark
  | qnt8 rd a b mark : CommandWord (.qnt8 rd a b mark) 2 0 false rd a b mark
  | qs2p rd a b mark : CommandWord (.qs2p rd a b mark) 2 1 false rd a b mark
  | dqnt rd a b mark : CommandWord (.dqnt rd a b mark) 2 2 false rd a b mark
  | cred rd a b mark : CommandWord (.cred rd a b mark) 3 0 false rd a b mark
  | cbcast rd a b mark : CommandWord (.cbcast rd a b mark) 3 1 false rd a b mark
  | cagath rd a b mark : CommandWord (.cagath rd a b mark) 3 2 false rd a b mark
  | sdcfg rd a b mark : CommandWord (.sdcfg rd a b mark) 4 0 false rd a b mark
  | sdrst rd a b mark : CommandWord (.sdrst rd a b mark) 4 1 true rd a b mark

/-- A command's queued record as its engine receives it (R206, R209, R212): from its body's header, and from its issuer's thread,
context, kernel and matrix formats. -/
def Thread.command (t : Thread) (tid id : Nat) (push : Bool) (body : List Word) (v : Nat) (eng : Eng) (deadline : Nat) : Cmd :=
  let h := body.getD 0 0
  { id := id, eng := eng, op := fieldOf h 0 8, v := v, ctx := t.ctx, sup := t.sup, kernel := t.kernel, tid := tid, push := push
    cls := fieldOf h 11 2, body := body
    reg := if h.getLsbD 33 = true ∧ fieldOf h 28 5 ≠ 0 then some (BitVec.ofNat 5 (fieldOf h 28 5)) else none
    deadline := deadline, mfmt := t.mfmt, mscl := t.mscl, st := .queued, units := 0, code := none, detail := 0, poison := false
    spads := [], told := false, added := false, logical := t.logical }

/-- What an engine's acceptance of a command leaves (R208, R213, R214): where a check fails a record that completes with REFUSED and
the check's detail, else the command in its queue, its scratchpad tiles with it; a forced TREL, and an MZERO of no tile, are
Completing at once (R230, R231). `op` is the command code that its word names. -/
structure State.Accepts (s s' : State) (c : Cmd) (op : Nat) : Prop where
  refused : ∀ d, s.acceptCheck c op = some d →
    s'.cmds = s.cmds ++ [{ c with st := .completing, code := some 11, detail := d }]
  queued  : s.acceptCheck c op = none → (c.eng.no = 0 → c.op = 8 → (c.dw 2).getLsbD 0 = false) → (c.eng.no = 0 → c.op = 4 → c.dw 1 ≠ 0) →
    s'.cmds = s.cmds ++ [{ c with spads := s.cmdSpads c }]
  acts    : s.acceptCheck c op = none → c.eng.no = 0 → (c.op = 8 ∧ (c.dw 2).getLsbD 0 = true) ∨ (c.op = 4 ∧ c.dw 1 = 0) →
    { c with spads := s.cmdSpads c, st := .completing } ∈ s'.cmds

/-- Far atomics (R31, R148): operation number and operands. -/
inductive FarAtomic : Instr → Nat → Reg → Reg → Reg → Bool → Prop
  | aadd sc rd a b mark : FarAtomic (.aadd sc rd a b mark) 0 rd a b mark
  | aand sc rd a b mark : FarAtomic (.aand sc rd a b mark) 1 rd a b mark
  | aor sc rd a b mark : FarAtomic (.aor sc rd a b mark) 2 rd a b mark
  | axor sc rd a b mark : FarAtomic (.axor sc rd a b mark) 3 rd a b mark
  | amin sc rd a b mark : FarAtomic (.amin sc rd a b mark) 4 rd a b mark
  | amax sc rd a b mark : FarAtomic (.amax sc rd a b mark) 5 rd a b mark
  | aminu sc rd a b mark : FarAtomic (.aminu sc rd a b mark) 6 rd a b mark
  | amaxu sc rd a b mark : FarAtomic (.amaxu sc rd a b mark) 7 rd a b mark
  | aswap sc rd a b mark : FarAtomic (.aswap sc rd a b mark) 8 rd a b mark

/-- The value a far atomic leaves, from the old one and its operand (R148). -/
def atomicResult (op : Nat) (old arg : Word) : Word :=
  match op with
  | 0 => w64 (old.toNat + arg.toNat)
  | 1 => old &&& arg
  | 2 => old ||| arg
  | 3 => old ^^^ arg
  | 4 => if arg.toInt ≤ old.toInt then arg else old
  | 5 => if old.toInt ≤ arg.toInt then arg else old
  | 6 => w64 (Nat.min old.toNat arg.toNat)
  | 7 => w64 (Nat.max old.toNat arg.toNat)
  | _ => arg

/-- Instructions whose effect the walk makes (R65, R67, R104): their form, and the registers whose values they keep from
issue. A deadline operand closes the block. -/
inductive Deferred : Instr → Form → List Reg → Prop
  | lda sc rd a mark : Deferred (.lda sc rd a mark) (deferredForm [a] [rd] mark) [a]
  | cadd sc rd a b mark (h : rd ≠ 0) : Deferred (.cadd sc rd a b mark) (deferredForm [a, b] [rd] mark) [a, b]
  | atomic i op rd a b mark (h : rd ≠ 0) (f : FarAtomic i op rd a b mark) : Deferred i (deferredForm [a, b] [rd] mark) [a, b]
  | acasV rd a b c mark : Deferred (.acasV rd a b c mark) (deferredForm [a, b, c] [rd] mark) [a, b, c]
  | acasS rd a b c mark : Deferred (.acasS rd a b c mark) (deferredForm [a, b, c] [rd] mark) [a, b, c]
  | cwait rd a b c mark :
    Deferred (.cwait rd a b c mark) (waitForm [a, b, c] [rd, if rd = 0 then 0 else nextReg rd] mark) [a, b, c]
  | lwait rd a b c mark :
    Deferred (.lwait rd a b c mark) (waitForm [a, b, c] [rd, if rd = 0 then 0 else nextReg rd] mark) [a, b, c]
  | mona rd a mark : Deferred (.mona rd a mark) (deferredForm [a] [rd] mark) [a]
  | mclr a mark : Deferred (.mclr a mark) (deferredForm [a] [] mark) [a]
  | mwait rd c mark : Deferred (.mwait rd c mark) (waitForm [c] [rd] mark) [c]
  | fencew sc rd a c mark : Deferred (.fencew sc rd a c mark) (waitForm [a, c] [rd] mark) [a, c]
  | ifencew rd c mark : Deferred (.ifencew rd c mark) (waitForm [c] [rd] mark) [c]
  | ecall mark : Deferred (.ecall mark) (deferredForm [] [] mark) []
  | ebreak mark : Deferred (.ebreak mark) (deferredForm [] [] mark) []
  | xret mark : Deferred (.xret mark) { deferredForm [] [] mark with closes := true } []
  | cswap mark : Deferred (.cswap mark) { deferredForm [] [] mark with closes := true } []
  | gnew rd a mark : Deferred (.gnew rd a mark) (deferredForm [a] [rd] mark) [a]
  | gfree rd a mark : Deferred (.gfree rd a mark) (deferredForm [a] [rd] mark) [a]
  | join rd a mark : Deferred (.join rd a mark) (deferredForm [a] [rd] mark) [a]
  | leave rd a mark : Deferred (.leave rd a mark) (deferredForm [a] [rd] mark) [a]
  | bara rd a mark : Deferred (.bara rd a mark) (deferredForm [a] [rd] mark) [a]
  | barw rd a c mark : Deferred (.barw rd a c mark) (waitForm [a, c] [rd] mark) [a, c]
  | barx rd a c mark : Deferred (.barx rd a c mark) (waitForm [a, c] [rd] mark) [a, c]
  | sbind ty n a mark : Deferred (.sbind ty n a mark) { vectorForm [a] [] [] [] mark with deferred := true } [a]
  | sunb n mark : Deferred (.sunb n mark) { vectorForm [] [] [] [] mark with deferred := true } []
  | sstat rd n mark : Deferred (.sstat rd n mark) { vectorForm [] [rd] [] [] mark with deferred := true } []
  | evsend rd a b mark : Deferred (.evsend rd a b mark) { vectorForm [a, b] [rd] [] [] mark with deferred := true } [a, b]
  | evstep rd a c mark : Deferred (.evstep rd a c mark) { waitForm [a, c] [rd] mark with light := false } [a, c]
  | recv rd a c mark :
    Deferred (.recv rd a c mark)
      { waitForm [a, c] [rd, if rd = 0 then 0 else nextReg rd] mark with light := false } [a, c]
  | tgive a mark : Deferred (.tgive a mark) (deferredForm [a] [] mark) [a]
  | ttake rd a c mark : Deferred (.ttake rd a c mark) (waitForm [a, c] [rd] mark) [a, c]
  | spawn rd a b c mark : Deferred (.spawn rd a b c mark) (waitForm [a, b, c] [rd] mark) [a, b, c]
  | exit a mark : Deferred (.exit a mark) (deferredForm [a] [] mark) [a]
  | tmark a mark : Deferred (.tmark a mark) (deferredForm [a] [] mark) [a]
  | command i no op short rd a b mark (c : CommandWord i no op short rd a b mark) :
    Deferred i { waitForm [a, b] [rd] mark with light := no != 0 && no != 4 } [a, b]

/-- Lane-wise operations of two registers and a mask (R159, R161): type, destination, sources, mask, marker, and what one lane
becomes with its flags. -/
inductive LaneWise : Instr → VType → Reg → Reg → Reg → BitVec 2 → Bool → (Nat → Nat → Nat × Flags) → Prop
  | vadd ty d a b m mark : LaneWise (.vadd ty d a b m mark) ty d a b m mark (laneAdd ty false)
  | vsub ty d a b m mark : LaneWise (.vsub ty d a b m mark) ty d a b m mark (laneAdd ty true)
  | vmul ty d a b m mark : LaneWise (.vmul ty d a b m mark) ty d a b m mark (laneMul ty)
  | vmulh ty d a b m mark : LaneWise (.vmulh ty d a b m mark) ty d a b m mark (laneMulh ty)
  | vmin ty d a b m mark : LaneWise (.vmin ty d a b m mark) ty d a b m mark (laneMinMax ty false)
  | vmax ty d a b m mark : LaneWise (.vmax ty d a b m mark) ty d a b m mark (laneMinMax ty true)
  | vand ty d a b m mark : LaneWise (.vand ty d a b m mark) ty d a b m mark fun x y => (x &&& y, 0)
  | vor ty d a b m mark : LaneWise (.vor ty d a b m mark) ty d a b m mark fun x y => (x ||| y, 0)
  | vxor ty d a b m mark : LaneWise (.vxor ty d a b m mark) ty d a b m mark fun x y => (x ^^^ y, 0)
  | vsll ty d a b m mark :
    LaneWise (.vsll ty d a b m mark) ty d a b m mark fun x y => (x * 2 ^ (y % widthOf ty) % 2 ^ widthOf ty, 0)
  | vsrl ty d a b m mark : LaneWise (.vsrl ty d a b m mark) ty d a b m mark fun x y => (x / 2 ^ (y % widthOf ty), 0)
  | vsra ty d a b m mark : LaneWise (.vsra ty d a b m mark) ty d a b m mark (laneSra ty)

/-- Compares (R162): type, mask register, sources, mask, marker, and which compare. -/
inductive LaneCompare : Instr → VType → BitVec 3 → Reg → Reg → BitVec 2 → Bool → Nat → Prop
  | vcmpeq ty d a b m mark : LaneCompare (.vcmpeq ty d a b m mark) ty d a b m mark 0
  | vcmplt ty d a b m mark : LaneCompare (.vcmplt ty d a b m mark) ty d a b m mark 1
  | vcmple ty d a b m mark : LaneCompare (.vcmple ty d a b m mark) ty d a b m mark 2

/-- Mask instructions with a mask result (R175): the register they read, destination, marker, value. -/
inductive MaskResult (t : Thread) : Instr → List Reg → BitVec 3 → Bool → Mask → Prop
  | mand d a b mark : MaskResult t (.mand d a b mark) [] d mark (t.mr a.toNat &&& t.mr b.toNat)
  | mor d a b mark : MaskResult t (.mor d a b mark) [] d mark (t.mr a.toNat ||| t.mr b.toNat)
  | mxor d a b mark : MaskResult t (.mxor d a b mark) [] d mark (t.mr a.toNat ^^^ t.mr b.toNat)
  | mnot d a mark : MaskResult t (.mnot d a mark) [] d mark (~~~ t.mr a.toNat)
  | mset d a mark : MaskResult t (.mset d a mark) [a] d mark ((t.readX a).setWidth 32)

/-- Vector stores (R173): type, register stored, x and v registers read, mask, marker, and the address of element `n`. -/
inductive VectorStore (t : Thread) : Instr → VType → Reg → List Reg → List Reg → BitVec 2 → Bool → (Nat → Word) → Prop
  | vst ty v a m mark : VectorStore t (.vst ty v a m mark) ty v [a] [] m mark fun n => t.readX a + w64 (n * ty.size)
  | vsts ty v a b m mark :
    VectorStore t (.vsts ty v a b m mark) ty v [a, b] [] m mark fun n => t.readX a + w64 n * t.readX b
  | vstx ty v a k m mark :
    VectorStore t (.vstx ty v a k m mark) ty v [a] [k] m mark
      fun n => t.readX a + w64 (laneOf (t.readV k) (widthOf ty) n * ty.size)

/-- The elements of a type whose mask bit is 1 (R159). -/
def chosen (ty : VType) (m : Mask) : List Nat := (List.range ty.lanes).filter fun n => m.getLsbD n

/-- Vector loads (R173): type, destination, x and v registers read, marker, and the accesses they make, each with the lanes it
fills as a number's bits and its address: one for each chosen lane, but for VLDB a single one, made if any mask bit of the lanes is
set. -/
inductive VectorLoad (t : Thread) : Instr → VType → Reg → List Reg → List Reg → Bool → List (Nat × Word) → Prop
  | vld ty d a m mark :
    VectorLoad t (.vld ty d a m mark) ty d [a] [] mark
      ((chosen ty (t.mr m.toNat)).map fun n => (2 ^ n, t.readX a + w64 (n * ty.size)))
  | vlds ty d a b m mark :
    VectorLoad t (.vlds ty d a b m mark) ty d [a, b] [] mark
      ((chosen ty (t.mr m.toNat)).map fun n => (2 ^ n, t.readX a + w64 n * t.readX b))
  | vldx ty d a k m mark :
    VectorLoad t (.vldx ty d a k m mark) ty d [a] [k] mark
      ((chosen ty (t.mr m.toNat)).map fun n => (2 ^ n, t.readX a + w64 (laneOf (t.readV k) (widthOf ty) n * ty.size)))
  | vldb ty d a m mark (some_ : ∃ n, n < ty.lanes ∧ (t.mr m.toNat).getLsbD n = true) :
    VectorLoad t (.vldb ty d a m mark) ty d [a] [] mark [((t.mr m.toNat).toNat % 2 ^ ty.lanes, t.readX a)]
  | vldbNone ty d a m mark (none_ : ∀ n, n < ty.lanes → (t.mr m.toNat).getLsbD n = false) :
    VectorLoad t (.vldb ty d a m mark) ty d [a] [] mark []

/-! ## The walk -/

/-- The walk of the current slot's thread stands at a deferred instruction or a store and performs it now: its place in
deterministic mode has come (R364). -/
structure Walking (s : State) (tid : Nat) (t : Thread) (i : Instr) (e : Entry) : Prop where
  here  : s.current = some (tid, t)
  known : s.thr tid = some t
  walks : t.walksAt i = some e
  turn  : s.mayPerform t i = true

/-- The walk reaches one aligned access of a deferred instruction whose location is found, is plain memory, does not move (R93,
R94, R307), and is not locked where the access writes (R136); it is a wait, or its home is at its own stop, or its request has
been sent, is off the ring or out of its port, and has been out for less than LTB (R70, R320, R325); no answer of this step is a
refusal or fails its check value on the way (R328, R332). -/
structure Reaches (s : State) (tid : Nat) (t : Thread) (e : Entry) (va n : Nat) (acc : Access) (detail loc : Nat) : Prop where
  placed : s.place t va n acc detail = .ok loc
  also   : s.place t va n acc 0 = .ok loc
  plain  : isReg loc = false
  still  : s.isMoving loc = false
  free   : e.phase = .fresh ∨ ∃ since, e.phase = .asked since ∧ s.pt < since + ltb
  sent   : e.timed = true ∨ (isRemote loc = false ∧ rides t.vcore loc = false) ∨ e.asked = true
  came   : e.timed = true ∨ s.unsent tid loc = false
  open_  : acc = .rw → s.locked loc n = false
  kept   : s.refusedThere loc = false
  whole  : s.failsOnWay t loc = false

/-- The state in which an access reads some bytes that it must not see without the thread's own earlier stores to them
(R119): those have been performed. -/
def State.caughtUp (s : State) (tid loc n : Nat) : State :=
  if s.storeBuf.any fun p => p.tid == tid && overlaps p.loc p.size loc n then s.release tid else s

/-- What every wait that ends at once does (R105): the status of the verdict, through the one operation that ends a wait. -/
def State.ends (s : State) (tid : Nat) (t : Thread) (e : Entry) (k : WaitKind) (rd : Reg) (d : Word) (v : Verdict) : State :=
  s.endWait tid e (s.newWait t k rd d) v

/-- An entry of the walk that holds no write of its own beside what its instruction does now. -/
structure Entry.Plain (e : Entry) : Prop where
  x     : e.xw = []
  v     : e.vw = []
  m     : e.mw = []
  flags : e.flags = 0
  csr   : e.csr = none
  pops  : e.pops = []
  app   : e.app = []

/-- The thread has no accepted store that is not performed. -/
def State.Settled (s : State) (tid : Nat) : Prop := ∀ p ∈ s.storeBuf, p.tid ≠ tid

/-- Stores and posted operations of one doubleword (R129, R143, R149): what they present, and the value they leave. -/
inductive PostedOp : Instr → StoreOp → (Nat → Nat → Nat) → Prop
  | stl sc a b mark : PostedOp (.stl sc a b mark) .write fun _ val => val
  | cadd sc a b mark : PostedOp (.cadd sc 0 a b mark) .cadd fun old val => min (old + val) (2 ^ 64 - 1)
  | atomic i op a b mark (f : FarAtomic i op 0 a b mark) :
    PostedOp i (.atomic op) fun old val => (atomicResult op (w64 old) (w64 val)).toNat

/-! ## Frames -/

/-- Two states agree on everything but the schedule, the clock and what stands in threads, memory and registers of units: the
stores of bytes and their check values are the same. -/
def SameMemory (s s' : State) : Prop := s'.mem = s.mem ∧ s'.poison = s.poison

/-- A thread's registers, masks, flags, special registers and trap banks are the same. -/
structure SameRegisters (t t' : Thread) : Prop where
  x      : t'.x = t.x
  v      : t'.v = t.v
  m      : t'.m = t.m
  mode   : t'.sup = t.sup ∧ t'.level = t.level
  flags  : t'.vflags = t.vflags
  csrs   : t'.lutb = t.lutb ∧ t'.mfmt = t.mfmt ∧ t'.mscl = t.mscl ∧ t'.mprog = t.mprog ∧ t'.sdcnt = t.sdcnt ∧
    t'.sbstat = t.sbstat ∧ t'.rdrop = t.rdrop ∧ t'.tmocnt = t.tmocnt ∧ t'.tmolim = t.tmolim ∧ t'.wceil = t.wceil ∧
    t'.tvec = t.tvec
  banks  : t'.bank0 = t.bank0 ∧ t'.bank1 = t.bank1
  empty  : t'.empty = t.empty

end Sys2Proof.Machine
end

