-- ==== Sys2Proof/Certificates/Slice0/Obligations.lean ====
section
/-!
DEFINITION. Sys2Proof/Certificates/Slice0/Obligations.lean: the statements for the provers.
-/
open Sys2Proof Sys2Proof.Machine

/-! ## Words -/

/-- Words the spec writes out decode to their instructions: the fixed words of ECALL, EBREAK and XRET (R98), and words of other
families, from their tables (R21 to R34). -/
def Obligations.SpecWordsDecode : Prop :=
  decode 0x00000073 = some (.ecall false) ∧ decode 0x00000072 = some (.ecall true) ∧
  decode 0x00100073 = some (.ebreak false) ∧ decode 0x00100072 = some (.ebreak true) ∧
  decode 0x10200073 = some (.xret false) ∧ decode 0x10200072 = some (.xret true) ∧
  decode 0x00318133 = some (.add 2 3 3 false) ∧
  decode 0x40318132 = some (.sub 2 3 3 true) ∧
  decode 0x00500513 = some (.addi 10 0 5 false) ∧
  decode 0xFE0008E3 = some (.beq 0 0 0xFF8 false) ∧
  decode 0x00153023 = some (.sd 1 10 0 false) ∧
  decode 0xFFFFFFFF = none ∧ decode 0x00000000 = none

/-- Decoding the word of a legal instruction gives that instruction, with every operand at every value (R21 to R35). -/
def Obligations.DecodeOfEncode : Prop :=
  ∀ (i : Instr) (w : IWord), i.wf = true → encode i = some w → decode w = some i

/-- A word that decodes is the word of the instruction it decodes to: no bit of it is read as nothing (R22, R33). -/
def Obligations.EncodeOfDecode : Prop :=
  ∀ (w : IWord) (i : Instr), decode w = some i → encode i = some w ∧ i.wf = true

/-! ## Steps -/

/-- A core's turn runs the instruction that the word at its thread's PC decodes to, where the power controller does not withhold the
ac (R348, R349) and no wait-escalation trap is due at the thread's boundary (R110). The state it runs in has the turn taken off the schedule, its time passed, the core awake, and the slot the
arbiter picks as the current one. -/
def Obligations.StepRunsDecoded : Prop :=
  ∀ (s : State) (k : Turn) (rest : List Turn) (v tid : Nat) (p : Nat × Bool) (t : Thread) (w : IWord) (i : Instr),
    let s0 := s.turned k rest
    let s1 : State := { (s0.wake v).noteWin v p with cur := (v, p.1) }
    s.agenda = k :: rest → k.act = .core v → s0.stalled = false → s0.issuedIn v = none → s0.withholds v = false →
    s0.pickSlot v = some p → s1.current = some (tid, t) → t.escNow = none → s1.breaks t = false → s1.fetch t = .ok w →
    decode w = some i → step s = exec i s1

/-- A walk's turn performs the deferred instruction or the store its walk stands at, and has a presented one answered; an event's turn
runs the event, and of the rows with no word only the two that stand in place of a word are not events; in a thermal trip only the
events of units whose clocks go on happen (R68, R352; the schedule is the model's, log 1). -/
def Obligations.StepRunsTurns : Prop :=
  (∀ (s : State) (k : Turn) (rest : List Turn) (v sl tid : Nat) (t : Thread) (e : Entry) (r : List Entry),
    let s0 := s.turned k rest
    s.agenda = k :: rest → k.act = .walk v sl → s0.power.trip = false → s0.inSlot v sl = some (tid, t) → t.run = .block →
    t.walking = true → t.block = e :: r → e.st = .done → (e.deferred = true ∨ e.stores ≠ []) →
    ((∀ p, e.phase ≠ .presented p) → step s = exec e.ins { s0 with cur := (v, sl) }) ∧
    (∀ p, e.phase = .presented p → step s = exec (.storeAcceptance v sl) s0)) ∧
  (∀ (s : State) (k : Turn) (rest : List Turn) (i : Instr),
    s.agenda = k :: rest → k.act = .event i → encode i = none → (∀ w, i ≠ .illegalInstruction w) →
    i ≠ .instructionFetchFault → ((s.turned k rest).power.trip = false ∨ Act.inTrip i = true) →
    step s = exec i (s.turned k rest))

/-- Any legal word can be the first instruction after reset: stored where the first fetch looks, the very next step runs what
it decodes to. -/
def Obligations.FirstWordRuns : Prop :=
  ∀ (w : IWord) (i : Instr), decode w = some i →
    ∃ s : State, s.current.isSome = true ∧ step (State.reset.withFetchWord 32 w.toNat) = exec i s

/-- No step of any state is refused: every row of the opcode table has its meaning. -/
def Obligations.NoStepRefused : Prop :=
  ∀ (s : State) (r : Refusal), step s ≠ .refused r

/-! ## Reset and the store of bytes -/

/-- The state after reset: nothing is stored, so memory is in canonical form and every byte reads 0 (the model's choice, log 2); the
nominal clock is 800 MHz (R19), the hang thresholds 10,000 µs and 1,000,000 µs (R112), every inbox is disabled with CAP 512 and
no owner (R194), every SDU without owner and with every range disabled (R184), every Jorrax port Down (R323), STAGE 0 (R367), and
there is no thread and no kernel. -/
def Obligations.ResetState : Prop :=
  (MemoryCanonical State.reset ∧ ∀ loc, State.reset.byteAt loc = 0) ∧
  (State.reset.mhz = 800 ∧ (∀ v, (State.reset.vc v).hangA = 10000 ∧ (State.reset.vc v).hangB = 1000000) ∧
  (∀ v, fieldOf (State.reset.inbox v).evcfg 0 10 = 512 ∧ fieldOf (State.reset.inbox v).evcfg 48 1 = 0 ∧
    (State.reset.inbox v).owner = none) ∧
  (∀ v, (State.reset.sdu v).owner = none ∧ ∀ r, ((State.reset.sdu v).range r).enabled = false) ∧
  (∀ p, (State.reset.port p).up = false) ∧ State.reset.boot.stage = 0 ∧ State.reset.threads = [] ∧ State.reset.kernels = [])

/-- The store of bytes stays in its one canonical form, whatever the machine does. -/
def Obligations.MemoryStaysCanonical : Prop := Kept MemoryCanonical

/-- Bytes written are read back, and every other location reads as before; the canonical form is kept. -/
def Obligations.WriteThenRead : Prop :=
  ∀ (s : State) (loc n val : Nat),
    let s' := s.write loc n val
    (MemoryCanonical s → s'.read loc n = val % 2 ^ (8 * n)) ∧
    (MemoryCanonical s → ∀ a, a < loc ∨ loc + n ≤ a → s'.byteAt a = s.byteAt a) ∧
    (MemoryCanonical s → MemoryCanonical s')

/-! ## Issue -/

/-- A short scalar instruction issues: its entry holds the value as a short write of rd, and the thread goes on at PC + 4. -/
def Obligations.ShortResultsIssue : Prop :=
  ∀ (s : State) (tid : Nat) (t : Thread) (i : Instr) (reads : List Reg) (rd : Reg) (mark : Bool) (val : Word),
    ShortResult t.pc t.readX i reads rd mark val → Issuing s tid t i (scalarForm reads [rd] mark) →
    exec i s = .next (s.joined tid t (scalarForm reads [rd] mark)
      { s.entry t i with xw := [⟨rd, val, true⟩] } (t.pc + 4))

/-- A multiplication or division issues: its entry holds the long result and the flags, and the thread goes on at PC + 4. -/
def Obligations.LongResultsIssue : Prop :=
  ∀ (s : State) (tid : Nat) (t : Thread) (i : Instr) (reads : List Reg) (rd : Reg) (mark : Bool) (val : Word) (fl : Flags),
    LongResult t.readX i reads rd mark val fl → Issuing s tid t i (scalarForm reads [rd] mark) →
    exec i s = .next (s.joined tid t (scalarForm reads [rd] mark)
      { s.entry t i with xw := [⟨rd, val, false⟩], flags := fl } (t.pc + 4))

/-- A branch that is taken continues at PC plus its offset, one that is not at PC + 4; JAL and JALR continue at their target
and hold the link value PC + 4 as a short write of rd. A taken target that is no multiple of 4 faults with cause 17, detail 1 and
the target, and rd is not written (R80 to R83); the fault, found at issue, closes the block (log 13, DEDUCED). -/
def Obligations.ControlFlowIssue : Prop :=
  (∀ (s : State) (tid : Nat) (t : Thread) (i : Instr) (a b : Reg) (off : BitVec 12) (mark : Bool) (taken : Prop),
    Branch t.readX i a b off mark taken → Issuing s tid t i (scalarForm [a, b] [] mark) →
    let target := t.pc + BitVec.ofInt 64 (2 * off.toInt)
    (¬taken → exec i s = .next (s.joined tid t (scalarForm [a, b] [] mark) (s.entry t i) (t.pc + 4))) ∧
    (taken → target.getLsbD 1 = false →
      exec i s = .next (s.joined tid t (scalarForm [a, b] [] mark) (s.entry t i) target)) ∧
    (taken → target.getLsbD 1 = true → exec i s = .next (s.stopped tid t (s.entry t i) ⟨17, 1, target⟩))) ∧
  (∀ (s : State) (tid : Nat) (t : Thread) (rd a : Reg) (off : BitVec 20) (imm : BitVec 12) (mark : Bool) (i : Instr)
    (reads : List Reg) (target : Word),
    (i = .jal rd off mark ∧ reads = [] ∧ target = t.pc + BitVec.ofInt 64 (2 * off.toInt)) ∨
    (i = .jalr rd a imm mark ∧ reads = [a] ∧ target = (t.readX a + BitVec.ofInt 64 imm.toInt) &&& ~~~1) →
    Issuing s tid t i (scalarForm reads [rd] mark) →
    (target.getLsbD 1 = false → exec i s = .next (s.joined tid t (scalarForm reads [rd] mark)
      { s.entry t i with xw := [⟨rd, t.pc + 4, true⟩] } target)) ∧
    (target.getLsbD 1 = true → exec i s = .next (s.stopped tid t (s.entry t i) ⟨17, 1, target⟩)))

/-- A load whose address is misaligned faults as it issues; an aligned one in the core's own windows takes its value at once,
the thread's own held stores forwarded, extended as its mnemonic says; any other is sent, as is one that may not pass an earlier
load that is out, and every one of a deterministic context (R119, R121, R364). Where a deferred instruction of the block stands
before it, it waits for the walk. A fault found at issue closes the block (log 13, DEDUCED). -/
def Obligations.LoadsIssue : Prop :=
  ∀ (s : State) (tid : Nat) (t : Thread) (i : Instr) (rd a : Reg) (imm : BitVec 12) (mark : Bool) (size : Nat) (signed : Bool),
    ScalarLoad i rd a imm mark size signed → Issuing s tid t i (scalarForm [a] [rd] mark) →
    let f := scalarForm [a] [rd] mark
    let va := t.address a imm
    let e : Entry := { s.entry t i with loads := [⟨1, va, size, none, none⟩], post := .x rd size signed }
    let sends := (s.ownWindow t.accessor va size).isNone || s.loadAhead t t.block e || s.det t.ctx
    let behind := t.block.any fun b => b.deferred && !walkApplied b.ins
    (va % size ≠ 0 → exec i s = .next (s.stopped tid t e ⟨17, 0, w64 va⟩)) ∧
    (va % size = 0 → behind = true → exec i s = .next (s.joined tid t f { e with deferred := true } (t.pc + 4))) ∧
    (va % size = 0 → behind = false → sends = true →
      exec i s = .next (s.joined tid t f (s.sendLoad t e) (t.pc + 4))) ∧
    (∀ x, va % size = 0 → behind = false → sends = false → s.ownWindow t.accessor va size = some (.error x) →
      exec i s = .next (s.stopped tid t e x)) ∧
    (∀ loc, va % size = 0 → behind = false → sends = false → s.ownWindow t.accessor va size = some (.ok loc) → isReg loc = false →
      s.bad loc size = false →
      let n := forwardRead (s.heldStores tid t t.block) (s.loadByte t false) loc size
      exec i s = .next (s.joined tid t f
        { e with loads := [⟨1, va, size, some n, none⟩],
                 xw := [⟨rd, if signed then sextLow (8 * size) (w64 n) else w64 n, false⟩] } (t.pc + 4)))

/-- A store faults as it issues where its address is misaligned or its place in the core's own windows forbids it; otherwise
its entry holds its address and the low bytes of its register for the walk: no byte of memory changes. A fault found at issue
closes the block (log 13, DEDUCED). -/
def Obligations.StoresIssue : Prop :=
  ∀ (s : State) (tid : Nat) (t : Thread) (i : Instr) (b a : Reg) (imm : BitVec 12) (mark : Bool) (size : Nat),
    ScalarStore i b a imm mark size → Issuing s tid t i (scalarForm [a, b] [] mark) →
    let va := t.address a imm
    let e : Entry := { s.entry t i with stores := [⟨va, size, (t.readX b).toNat % 2 ^ (8 * size), .write⟩] }
    (va % size ≠ 0 → exec i s = .next (s.stopped tid t e ⟨17, 0, w64 va⟩)) ∧
    (∀ x, va % size = 0 → s.ownWindow t.accessor va size = some (.error x) → exec i s = .next (s.stopped tid t e x)) ∧
    (va % size = 0 → (∀ x, s.ownWindow t.accessor va size ≠ some (.error x)) →
      exec i s = .next (s.joined tid t (scalarForm [a, b] [] mark) e (t.pc + 4)))

/-- A CSR instruction that its number and the thread's mode allow holds the sampled value as a write of rd, long for pt and
short for every other CSR, and the CSR write for the walk. -/
def Obligations.CsrIssue : Prop :=
  ∀ (s : State) (tid : Nat) (t : Thread) (i : Instr) (rd : Reg) (csr : BitVec 12) (mark : Bool) (regs : List Reg)
    (reads : Bool) (op : Option CsrOp),
    CsrForm t.readX i rd csr mark regs reads op → Issuing s tid t i (scalarForm regs [rd] mark) →
    exec i s = .next (s.joined tid t (scalarForm regs [rd] mark)
      { s.entry t i with
        xw := if reads then [⟨rd, s.csrSample (s.blockStart t) csr.toNat, csr != 0xC01⟩] else []
        csr := op.map fun o => (csr, o) } (t.pc + 4))

/-- An instruction whose effect the walk makes only reads its operands as it issues: nothing else changes but its block. SDSTEP
and QPUSH keep the vectors they read beside their x operands; the vectors come from a stream register where one is bound (R67,
R178, R189, R212). -/
def Obligations.DeferredIssue : Prop :=
  (∀ (s : State) (tid : Nat) (t : Thread) (i : Instr) (f : Form) (regs : List Reg),
    Deferred i f regs → Issuing s tid t i f →
    exec i s = .next (s.joined tid t f { s.entry t i with ops := regs.map t.readX, deferred := true } (t.pc + 4))) ∧
  (∀ (s : State) (tid : Nat) (t : Thread) (mark : Bool),
    (∀ (v a : Reg), let f : Form := { vectorForm [a] [] [v] [] mark with deferred := true }
      Issuing s tid t (.sdstep v a mark) f →
      exec (.sdstep v a mark) s = .next (s.joined tid t f
        { s.entry t (.sdstep v a mark) with ops := [t.readX a], vops := [t.readV v], deferred := true } (t.pc + 4))) ∧
    (∀ (rd a v c : Reg), let f : Form := { waitForm [a, c] [rd] mark with light := false, vreads := [v, nextReg v] }
      Issuing s tid t (.qpush rd a v c mark) f →
      exec (.qpush rd a v c mark) s = .next (s.joined tid t f
        { s.entry t (.qpush rd a v c mark) with
          ops := [t.readX a, t.readX c], vops := [t.readV v, t.readV (nextReg v)], deferred := true } (t.pc + 4))))

/-! ## Vector instructions -/

/-- What a light thread may not name, and what user mode may not run, traps as it issues (R33, R35, R77, R100): an x register
above x15, a vector word, a CSR closed to it or absent; CSWAP, XRET and a supervisor CSR in user mode; XRET at level 0; a write of
a read-only CSR. ADD, VADD and the CSR forms stand for the words of their kind. A fault found at issue closes the block (log 13,
DEDUCED). A read of an empty register parks the thread before the instruction: it is in Parked-wait on that register, and nothing else has changed
(R64, R71). -/
def Obligations.IssueStops : Prop :=
  (∀ (s : State) (tid : Nat) (t : Thread), s.current = some (tid, t) → t.run = .ready → t.shed = false →
    s.followNow t = none →
    (∀ (rd a b : Reg) (mark : Bool), t.light = true → (16 ≤ rd.toNat ∨ 16 ≤ a.toNat ∨ 16 ≤ b.toNat) →
      exec (.add rd a b mark) s =
        .next (s.stopped tid t (s.entry t (.add rd a b mark)) ⟨16, 0, wordOf (.add rd a b mark)⟩)) ∧
    (∀ (ty : VType) (d a b : Reg) (m : BitVec 2) (mark : Bool), t.light = true →
      exec (.vadd ty d a b m mark) s =
        .next (s.stopped tid t (s.entry t (.vadd ty d a b m mark)) ⟨16, 0, wordOf (.vadd ty d a b m mark)⟩)) ∧
    (∀ (mark : Bool), t.sup = false →
      exec (.cswap mark) s = .next (s.stopped tid t (s.entry t (.cswap mark)) ⟨18, 5, wordOf (.cswap mark)⟩) ∧
      exec (.xret mark) s = .next (s.stopped tid t (s.entry t (.xret mark)) ⟨18, 5, wordOf (.xret mark)⟩)) ∧
    (∀ (mark : Bool), t.sup = true → t.level = 0 →
      exec (.xret mark) s = .next (s.stopped tid t (s.entry t (.xret mark)) ⟨16, 0, wordOf (.xret mark)⟩)) ∧
    (∀ (rd a : Reg) (mark : Bool), t.light = false → t.sup = false →
      exec (.csrrs rd 0x100 a mark) s =
        .next (s.stopped tid t (s.entry t (.csrrs rd 0x100 a mark)) ⟨18, 5, wordOf (.csrrs rd 0x100 a mark)⟩)) ∧
    (∀ (rd a : Reg) (c : BitVec 12) (mark : Bool), csrClass c.toNat = none →
      exec (.csrrw rd c a mark) s =
        .next (s.stopped tid t (s.entry t (.csrrw rd c a mark)) ⟨16, 0, wordOf (.csrrw rd c a mark)⟩)) ∧
    (∀ (rd a : Reg) (c : BitVec 12) (mark : Bool), csrClass c.toNat = some .ro →
      exec (.csrrw rd c a mark) s =
        .next (s.stopped tid t (s.entry t (.csrrw rd c a mark)) ⟨16, 0, wordOf (.csrrw rd c a mark)⟩))) ∧
  (∀ (s : State) (tid : Nat) (t : Thread) (rd a b r : Reg) (mark : Bool),
    s.current = some (tid, t) → t.run = .ready → t.shed = false → s.followNow t = none → t.issueTrap (.add rd a b mark) (scalarForm [a, b] [rd] mark) = none →
    t.emptyRead [a, b] = some r →
    exec (.add rd a b mark) s = .next
      { s with
        dbg := { s.dbg with issuedNow := mapSet s.dbg.issuedNow t.vcore (s.ac * 8 + t.slot) }
        threads := mapSet s.threads tid { s.blockStart t with
          run := .wait, wait := some ⟨.reply r, r, 0, false, false, none, 0⟩, parkedAt := s.pt, reportedA := false,
          reportedB := false } })

/-- Issuing changes no register, no flag, no special register and no byte of any store: whatever word a Ready thread issues,
what it computes is held in its block (R66, R67). -/
def Obligations.IssueFrame : Prop :=
  ∀ (s s' : State) (i : Instr) (tid : Nat) (t : Thread), (encode i).isSome = true → s.current = some (tid, t) →
    s.thr tid = some t → t.run = .ready → exec i s = .next s' →
    SameMemory s s' ∧ (∀ n, n ≠ tid → s'.thr n = s.thr n) ∧ ∃ t', s'.thr tid = some t' ∧ SameRegisters t t'

/-- STL, a CADD with rd = x0 and a far atomic with rd = x0 fault as they issue where their address is misaligned or its place in
the core's own windows forbids it; otherwise their entry holds what the walk presents (R129, R143, R149). A fault found at issue
closes the block (log 13, DEDUCED). -/
def Obligations.PostedIssue : Prop :=
  ∀ (s : State) (tid : Nat) (t : Thread) (i : Instr) (a b : Reg) (mark : Bool) (what : StoreOp),
    ((∃ sc, i = .stl sc a b mark ∧ what = .write) ∨ (∃ sc, i = .cadd sc 0 a b mark ∧ what = .cadd) ∨
      (∃ op, FarAtomic i op 0 a b mark ∧ what = .atomic op)) →
    Issuing s tid t i (deferredForm [a, b] [] mark) →
    let va := (t.readX a).toNat
    let e : Entry := { s.entry t i with
      ops := [t.readX a, t.readX b], stores := [⟨va, 8, (t.readX b).toNat, what⟩] }
    (va % 8 ≠ 0 → exec i s = .next (s.stopped tid t e ⟨17, 0, w64 va⟩)) ∧
    (∀ x, va % 8 = 0 → s.ownWindow t.accessor va 8 = some (.error x) → exec i s = .next (s.stopped tid t e x)) ∧
    (va % 8 = 0 → (∀ x, s.ownWindow t.accessor va 8 ≠ some (.error x)) →
      exec i s = .next (s.joined tid t (deferredForm [a, b] [] mark) { e with deferred := true } (t.pc + 4)))

/-- A lane-wise operation applies its function to each lane whose mask bit is 1; its entry holds a write of those lanes only,
and the flags of those lanes (R159, R161); what the functions compute is stated by `Obligations.IntegerLanes`. -/
def Obligations.LaneWiseIssue : Prop :=
  ∀ (s : State) (tid : Nat) (t : Thread) (i : Instr) (ty : VType) (d a b : Reg) (m : BitVec 2) (mark : Bool)
    (g : Nat → Nat → Nat × Flags),
    LaneWise i ty d a b m mark g → Issuing s tid t i (vectorForm [] [] [a, b] [d] mark) →
    let w := widthOf ty
    let r := lanesOf w ty.lanes 0 (t.mr m.toNat) fun k => g (laneOf (t.readV a) w k) (laneOf (t.readV b) w k)
    exec i s = .next (s.joined tid t (vectorForm [] [] [a, b] [d] mark) (t.putRes (s.entry t i) d r) (t.pc + 4))

/-- VMADD and VDOT read their destination too: each lane becomes itself plus the product, or plus the sum of four products. VABS acts
lane by lane, VPERM takes lanes by the numbers in its second source, VSEL by the mask, VSPLAT from an x register, VINS writes one
lane, VEXT gives one lane as a long result of an x register (R161, R163, R167, R169). -/
def Obligations.LaneOpsIssue : Prop :=
  (∀ (s : State) (tid : Nat) (t : Thread) (ty : VType) (d a b : Reg) (m : BitVec 2) (mark : Bool),
    let f := vectorForm [] [] [a, b, d] [d] mark
    let x := t.readV a
    let y := t.readV b
    let z := t.readV d
    let w := widthOf ty
    let dot := fun (k : Nat) =>
      let at_ := fun (j : Nat) => sextNat (laneOf x 8 (4 * k + j)) 8 * sextNat (laneOf y 8 (4 * k + j)) 8
      let r := sat32 (sextNat (laneOf z 32 k) 32 + (at_ 0 + at_ 1 + at_ 2 + at_ 3))
      (truncInt r.1 32, r.2)
    (Issuing s tid t (.vmadd ty d a b m mark) f →
      exec (.vmadd ty d a b m mark) s = .next (s.joined tid t f
        (t.putRes (s.entry t (.vmadd ty d a b m mark)) d
          (lanesOf w ty.lanes 0 (t.mr m.toNat) fun k => laneMadd ty (laneOf z w k) (laneOf x w k) (laneOf y w k))) (t.pc + 4))) ∧
    (Issuing s tid t (.vdot d a b m mark) f →
      exec (.vdot d a b m mark) s = .next (s.joined tid t f
        (t.putRes (s.entry t (.vdot d a b m mark)) d (lanesOf 32 8 0 (t.mr m.toNat) dot)) (t.pc + 4)))) ∧
  (∀ (s : State) (tid : Nat) (t : Thread) (ty : VType) (d a b : Reg) (m : BitVec 2) (lane : BitVec 5) (mark : Bool),
    let w := widthOf ty
    let n := ty.lanes
    let mk := t.mr m.toNat
    (Issuing s tid t (.vabs ty d a m mark) (vectorForm [] [] [a] [d] mark) →
      exec (.vabs ty d a m mark) s = .next (s.joined tid t (vectorForm [] [] [a] [d] mark)
        (t.putRes (s.entry t (.vabs ty d a m mark)) d (lanesOf w n 0 mk fun k => laneAbs ty (laneOf (t.readV a) w k))) (t.pc + 4))) ∧
    (Issuing s tid t (.vperm ty d a b m mark) (vectorForm [] [] [a, b] [d] mark) →
      exec (.vperm ty d a b m mark) s = .next (s.joined tid t (vectorForm [] [] [a, b] [d] mark)
        (t.putRes (s.entry t (.vperm ty d a b m mark)) d
          (lanesOf w n 0 mk fun k => (laneOf (t.readV a) w (laneOf (t.readV b) w k % n), 0))) (t.pc + 4))) ∧
    (Issuing s tid t (.vsel ty d a b m mark) (vectorForm [] [] [a, b] [d] mark) →
      exec (.vsel ty d a b m mark) s = .next (s.joined tid t (vectorForm [] [] [a, b] [d] mark)
        (t.putV (s.entry t (.vsel ty d a b m mark)) d (BitVec.allOnes 256)
          ((t.readV a &&& laneBits w n mk) ||| (t.readV b &&& ~~~ laneBits w n mk))) (t.pc + 4))) ∧
    (Issuing s tid t (.vsplat ty d a m mark) (vectorForm [a] [] [] [d] mark) →
      exec (.vsplat ty d a m mark) s = .next (s.joined tid t (vectorForm [a] [] [] [d] mark)
        (t.putRes (s.entry t (.vsplat ty d a m mark)) d (lanesOf w n 0 mk fun _ => ((t.readX a).toNat % 2 ^ w, 0))) (t.pc + 4))) ∧
    (Issuing s tid t (.vins ty d a lane mark) (vectorForm [a] [] [] [d] mark) →
      exec (.vins ty d a lane mark) s = .next (s.joined tid t (vectorForm [a] [] [] [d] mark)
        (t.putV (s.entry t (.vins ty d a lane mark)) d
          (lanesVec w n fun k => if k = lane.toNat then 2 ^ w - 1 else 0)
          (lanesVec w n fun k => if k = lane.toNat then (t.readX a).toNat % 2 ^ w else 0)) (t.pc + 4))) ∧
    (Issuing s tid t (.vext ty d a lane mark) (vectorForm [] [d] [a] [] mark) →
      let x := w64 (laneOf (t.readV a) w lane.toNat)
      exec (.vext ty d a lane mark) s = .next (s.joined tid t (vectorForm [] [d] [a] [] mark)
        { s.entry t (.vext ty d a lane mark) with
          xw := [⟨d, if ty.isSigned then sextLow w x else x, false⟩] } (t.pc + 4))))

/-- A compare writes its mask register: a bit per lane whose mask bit is 1, bits from the number of lanes up cleared, the other
bits kept; flags are set as the lanes' compares give them (R162). Mask instructions write a whole mask register; MPOPC counts the
set bits of one and MFIRST finds its first, as long results (R175). -/
def Obligations.MaskResultsIssue : Prop :=
  (∀ (s : State) (tid : Nat) (t : Thread) (i : Instr) (ty : VType) (d : BitVec 3) (a b : Reg) (m : BitVec 2) (mark : Bool)
    (op : Nat), LaneCompare i ty d a b m mark op → Issuing s tid t i (vectorForm [] [] [a, b] [] mark) →
    let w := widthOf ty
    let c := fun (k : Nat) => laneCompare ty op (laneOf (t.readV a) w k) (laneOf (t.readV b) w k)
    ∃ e : Entry, exec i s = .next (s.joined tid t (vectorForm [] [] [a, b] [] mark) e (t.pc + 4)) ∧
      e.xw = [] ∧ e.vw = [] ∧ ∃ bits val, e.mw = [⟨d, bits, val⟩] ∧
      (∀ k, k < 32 → bits.getLsbD k = (decide (ty.lanes ≤ k) || (t.mr m.toNat).getLsbD k)) ∧
      (∀ k, k < ty.lanes → (t.mr m.toNat).getLsbD k = true → val.getLsbD k = (c k).1) ∧
      (∀ k, ty.lanes ≤ k → val.getLsbD k = false) ∧
      e.flags = (List.range ty.lanes).foldl (fun fl k => if (t.mr m.toNat).getLsbD k then fl ||| (c k).2 else fl) 0) ∧
  (∀ (s : State) (tid : Nat) (t : Thread),
    (∀ (i : Instr) (regs : List Reg) (d : BitVec 3) (mark : Bool) (val : Mask),
      MaskResult t i regs d mark val → Issuing s tid t i (vectorForm regs [] [] [] mark) →
      exec i s = .next (s.joined tid t (vectorForm regs [] [] [] mark)
        { s.entry t i with mw := [⟨d, BitVec.allOnes 32, val⟩] } (t.pc + 4))) ∧
    (∀ (rd : Reg) (a : BitVec 3) (mark : Bool), Issuing s tid t (.mpopc rd a mark) (vectorForm [] [rd] [] [] mark) →
      exec (.mpopc rd a mark) s = .next (s.joined tid t (vectorForm [] [rd] [] [] mark)
        { s.entry t (.mpopc rd a mark) with
          xw := [⟨rd, w64 ((List.range 32).filter fun k => (t.mr a.toNat).getLsbD k).length, false⟩] } (t.pc + 4))) ∧
    (∀ (rd : Reg) (a : BitVec 3) (mark : Bool) (n : Nat), n ≤ 32 → (∀ k, k < n → (t.mr a.toNat).getLsbD k = false) →
      (n < 32 → (t.mr a.toNat).getLsbD n = true) →
      Issuing s tid t (.mfirst rd a mark) (vectorForm [] [rd] [] [] mark) →
      exec (.mfirst rd a mark) s = .next (s.joined tid t (vectorForm [] [rd] [] [] mark)
        { s.entry t (.mfirst rd a mark) with xw := [⟨rd, w64 n, false⟩] } (t.pc + 4))))

/-- Conversions: VCVT, VNRW and VWID write the lanes of their destination, or of a pair, by the conversion of each element
(R164, R165). Reductions write lane 0 of their destination and 0 elsewhere; VPOPC counts the bits of each lane, or with .x of all
chosen bytes together (R166, R168). -/
def Obligations.ConvertAndReduceIssue : Prop :=
  (∀ (s : State) (tid : Nat) (t : Thread) (ty dty : VType) (rm : Round) (d a : Reg) (m : BitVec 2) (mark : Bool),
    let mk := t.mr m.toNat
    let lo := t.readV a
    let hi := t.readV (nextReg a)
    let cv := fun (two : Bool) (k : Nat) => convert ty dty rm (pairLane lo (if two then hi else 0) (widthOf ty) ty.lanes k)
    let i := Instr.vcvt ty dty rm d a m mark
    (cvtShape ty dty = some .same → Issuing s tid t i (vectorForm [] [] [a] [d] mark) →
      exec i s = .next (s.joined tid t (vectorForm [] [] [a] [d] mark)
        (t.putRes (s.entry t i) d (lanesOf (widthOf dty) dty.lanes 0 mk (cv false))) (t.pc + 4))) ∧
    (cvtShape ty dty = some .widen → Issuing s tid t i (vectorForm [] [] [a] [d, nextReg d] mark) →
      exec i s = .next (s.joined tid t (vectorForm [] [] [a] [d, nextReg d] mark)
        (t.putPair (s.entry t i) d (widthOf dty) dty.lanes mk (cv false)) (t.pc + 4))) ∧
    (cvtShape ty dty = some .narrow → Issuing s tid t i (vectorForm [] [] [a, nextReg a] [d] mark) →
      exec i s = .next (s.joined tid t (vectorForm [] [] [a, nextReg a] [d] mark)
        (t.putRes (s.entry t i) d (lanesOf (widthOf dty) dty.lanes 0 mk (cv true))) (t.pc + 4))) ∧
    (Issuing s tid t (.vwid ty d a m mark) (vectorForm [] [] [a] [d, nextReg d] mark) →
      exec (.vwid ty d a m mark) s = .next (s.joined tid t (vectorForm [] [] [a] [d, nextReg d] mark)
        (t.putPair (s.entry t (.vwid ty d a m mark)) d (2 * widthOf ty) (ty.lanes / 2) mk fun k =>
          (truncInt (laneInt ty (laneOf lo (widthOf ty) k)) (2 * widthOf ty), 0)) (t.pc + 4))) ∧
    (Issuing s tid t (.vnrw ty rm d a m mark) (vectorForm [] [] [a, nextReg a] [d] mark) →
      let r := if ty = .h then lanesOf 8 32 0 mk fun k =>
          let c := sat8 (sextNat (pairLane lo hi 16 16 k) 16)
          (truncInt c.1 8, c.2)
        else if ty = .w then lanesOf 16 16 0 mk fun k =>
          let c := sat16 (sextNat (pairLane lo hi 32 8 k) 32)
          (truncInt c.1 16, c.2)
        else lanesOf 16 16 0 mk fun k => narrowFixed rm (pairLane lo hi 32 8 k)
      exec (.vnrw ty rm d a m mark) s = .next (s.joined tid t (vectorForm [] [] [a, nextReg a] [d] mark)
        (t.putRes (s.entry t (.vnrw ty rm d a m mark)) d r) (t.pc + 4)))) ∧
  (∀ (s : State) (tid : Nat) (t : Thread) (ty : VType) (d a : Reg) (m : BitVec 2) (mark : Bool),
    let f := vectorForm [] [] [a] [d] mark
    let mk := t.mr m.toNat
    let x := t.readV a
    let first := fun (i : Instr) (w : Nat) (r : Nat × Flags) =>
      t.putRes (s.entry t i) d ⟨BitVec.allOnes 256, BitVec.ofNat 256 (r.1 % 2 ^ w), r.2⟩
    (Issuing s tid t (.vrsum ty d a m mark) f →
      exec (.vrsum ty d a m mark) s = .next (s.joined tid t f
        (first (.vrsum ty d a m mark) (if ty.isFp then widthOf ty else 32) (reduceSum ty x mk)) (t.pc + 4))) ∧
    (Issuing s tid t (.vrmax ty d a m mark) f →
      exec (.vrmax ty d a m mark) s = .next (s.joined tid t f
        (first (.vrmax ty d a m mark) (widthOf ty) (reduceMinMax ty true x mk)) (t.pc + 4))) ∧
    (Issuing s tid t (.vrmin ty d a m mark) f →
      exec (.vrmin ty d a m mark) s = .next (s.joined tid t f
        (first (.vrmin ty d a m mark) (widthOf ty) (reduceMinMax ty false x mk)) (t.pc + 4))) ∧
    (Issuing s tid t (.vpopc ty d a m mark) f →
      exec (.vpopc ty d a m mark) s = .next (s.joined tid t f
        (if ty = .x then first (.vpopc ty d a m mark) 32 (popcount (x &&& laneBits 8 32 mk).toNat 256, 0)
         else t.putRes (s.entry t (.vpopc ty d a m mark)) d
           (lanesOf (widthOf ty) ty.lanes 0 mk fun k => (popcount (laneOf x (widthOf ty) k) 32, 0))) (t.pc + 4))))

/-- VLUT and SCMAC read their tables and columns in the core's own TCM as they issue: where every entry they need can be read,
each lane takes its result, and VLUT needs none for a NaN; where an entry, the column or an element of it cannot be read, the
instruction faults, and the fault found at issue closes the block (R170 to R172; log 13, DEDUCED); which of several faults it is, R174
says of accesses and no rule of table entries. It states completion of VLUT and SCMAC. -/
def Obligations.TableOpsIssue : Prop :=
  ∀ (s : State) (tid : Nat) (t : Thread) (ty : VType) (d a b : Reg) (m : BitVec 2) (mark : Bool) (word : Nat → Nat),
    let mk := t.mr m.toNat
    let held := s.heldStores tid t t.block
    let w := widthOf ty
    let val := fun (k : Nat) => (fmtOf ty).val (laneOf (t.readV a) w k)
    let slot := fun (k : Nat) => fieldOf t.lutb 9 8 * 512 + 8 * lutSegment (sextNat (fieldOf t.lutb 24 8) 8) (val k)
    (Issuing s tid t (.vlut ty d a m mark) (vectorForm [] [] [a] [d] mark) →
      ((∀ k, k < ty.lanes → mk.getLsbD k = true → (val k).isNan = false → s.tcmAtIssue t held (slot k) 8 = .ok (word k)) →
        exec (.vlut ty d a m mark) s = .next (s.joined tid t (vectorForm [] [] [a] [d] mark)
          (t.putRes (s.entry t (.vlut ty d a m mark)) d
            (lanesOf w ty.lanes 0 mk fun k => lutLane (fmtOf ty) (val k) (bitsOf (word k) 0 32) (bitsOf (word k) 32 32)))
          (t.pc + 4))) ∧
      (∀ k x, t.popList [a] = [] → k < ty.lanes → mk.getLsbD k = true → (val k).isNan = false →
        s.tcmAtIssue t held (slot k) 8 = .error x →
        ∃ y, exec (.vlut ty d a m mark) s = .next (s.stopped tid t (s.entry t (.vlut ty d a m mark)) y))) ∧
    (let f := vectorForm [a, b] [] [d, nextReg d] [d, nextReg d] mark
     let i := Instr.scmac ty d a b m mark
     let sz := if ty = .h then 2 else 1
     let va := (t.readX a).toNat
     let code := deltaCode (fieldOf (t.readX b) 0 8)
     Issuing s tid t i f → s.columnFault t va sz = none →
     (∀ k, k < 16 → mk.getLsbD k = true → s.tcmAtIssue t held (va + k * sz) sz = .ok (word k)) →
     let lane := fun (k : Nat) =>
       let p := if ty = .x then s2pMul code.1 (word k) else sextNat (word k) (8 * sz) * code.1
       let r := sat32 (sextNat (pairLane (t.readV d) (t.readV (nextReg d)) 32 8 k) 32 + p)
       (truncInt r.1 32, r.2)
     let e := t.putPair (s.entry t i) d 32 8 mk lane
     exec i s = .next (s.joined tid t f { e with flags := flagOr e.flags code.2 } (t.pc + 4))) ∧
    (let f := vectorForm [a, b] [] [d, nextReg d] [d, nextReg d] mark
     let i := Instr.scmac ty d a b m mark
     let sz := if ty = .h then 2 else 1
     Issuing s tid t i f → t.popList f.vreads = [] →
      (∀ x, s.columnFault t (t.readX a).toNat sz = some x → exec i s = .next (s.stopped tid t (s.entry t i) x)) ∧
      (∀ k x, s.columnFault t (t.readX a).toNat sz = none → k < 16 → mk.getLsbD k = true →
        s.tcmAtIssue t held ((t.readX a).toNat + k * sz) sz = .error x →
        ∃ y, exec i s = .next (s.stopped tid t (s.entry t i) y)))

/-- A vector load makes one access for each lane whose mask bit is 1, and VLDB a single one, made if any mask bit of the lanes is set;
one that appends keeps what the register itself holds for the masked-off lanes (log 14, DEDUCED). With aligned addresses it waits for the walk behind a deferred
instruction, is sent where some access lies outside the core's own windows, an earlier load it may not pass is out, or its context
is deterministic, and else takes its lanes at once, the thread's held stores forwarded (R67, R119, R173, R174, R364). A vector
store with aligned addresses holds one access for each such lane, in lane order, for the walk; no byte changes. MLDM and MSTM make
one access of 4 bytes (R175). A misaligned element faults any of them as it issues (R92), and so does one of the core's own windows
that cannot be read or written, where every element of a load, or of a store that has none in the scratchpad, lies in them (R93,
R174); the fault found at issue closes the block (log 13, DEDUCED). It states completion of VLD, VLDS, VLDX, VLDB,
MLDM, VST, VSTS, VSTX and MSTM. -/
def Obligations.VectorMemoryIssue : Prop :=
  (∀ (s : State) (tid : Nat) (t : Thread) (mark : Bool) (i : Instr) (xs vs vd : List Reg) (e : Entry),
    let f := vectorForm xs [] vs vd mark
    (∃ (ty : VType) (d : Reg) (accs : List (Nat × Word)), VectorLoad t i ty d xs vs mark accs ∧ vd = [d] ∧
        e = { s.entry t i with
          loads := accs.map fun x => ⟨x.1, x.2.toNat, ty.size, none, none⟩
          post := match t.bound d with
            | some (j, x) => if x.append then .app j (widthOf ty) else .v d (widthOf ty)
            | none => .v d (widthOf ty)
          vops := [t.vr d] }) ∨
      (∃ (d : BitVec 3) (a : Reg), i = .mldm d a mark ∧ xs = [a] ∧ vs = [] ∧ vd = [] ∧
        e = { s.entry t i with loads := [⟨1, (t.readX a).toNat, 4, none, none⟩], post := .m d }) →
    Issuing s tid t i f →
    let s0 := s.bodyState t f
    let own := fun (l : LoadElem) => s0.ownWindow t.accessor l.va l.size
    let behind := t.block.any fun b => b.deferred && !walkApplied b.ins
    let sends := (e.loads.any fun l => (own l).isNone) || s0.loadAhead t t.block e || s0.det t.ctx
    ((∃ l ∈ e.loads, l.va % l.size ≠ 0) → t.popList vs = [] → ∃ x, x.cause = 17 ∧ exec i s = .next (s.stopped tid t e x)) ∧
    ((∀ l ∈ e.loads, l.va % l.size = 0) →
      (behind = true → exec i s = .next (s.joined tid t f { e with deferred := true } (t.pc + 4))) ∧
      (behind = false → sends = true → exec i s = .next (s.joined tid t f (s0.sendLoad t e) (t.pc + 4))) ∧
      (∀ loc : LoadElem → Nat, behind = false → sends = false →
        (∀ l ∈ e.loads, own l = some (.ok (loc l)) ∧ isReg (loc l) = false ∧ s.bad (loc l) l.size = false) →
        exec i s = .next (s.joined tid t f (Entry.finishLoad { e with loads := e.loads.map fun l =>
          { l with got := some (forwardRead (s0.heldStores tid t t.block) (s.loadByte t false) (loc l) l.size) } }) (t.pc + 4))) ∧
      (behind = false → sends = false → t.popList vs = [] →
        (∃ l ∈ e.loads, (∃ y, own l = some (.error y)) ∨ ∃ loc, own l = some (.ok loc) ∧ isReg loc = false ∧
          s.bad loc l.size = true ∧ coveredBy (s0.heldStores tid t t.block) loc l.size = false) →
        ∃ x, exec i s = .next (s.stopped tid t e x)))) ∧
  (∀ (s : State) (tid : Nat) (t : Thread) (mark : Bool) (i : Instr) (xs vs : List Reg) (stores : List StoreElem),
    (∃ (ty : VType) (v : Reg) (ks : List Reg) (m : BitVec 2) (addr : Nat → Word), VectorStore t i ty v xs ks m mark addr ∧
        vs = v :: ks ∧ stores = (chosen ty (t.mr m.toNat)).map fun n =>
          ⟨(addr n).toNat, ty.size, laneOf (t.readV v) (widthOf ty) n, .write⟩) ∨
      (∃ (ms : BitVec 3) (a : Reg), i = .mstm ms a mark ∧ xs = [a] ∧ vs = [] ∧
        stores = [⟨(t.readX a).toNat, 4, (t.mr ms.toNat).toNat, .write⟩]) →
    Issuing s tid t i (vectorForm xs [] vs [] mark) →
    let own := fun (x : StoreElem) => (s.bodyState t (vectorForm xs [] vs [] mark)).ownWindow t.accessor x.va x.size
    ((∃ x ∈ stores, x.va % x.size ≠ 0) → t.popList vs = [] →
      ∃ y, y.cause = 17 ∧ exec i s = .next (s.stopped tid t { s.entry t i with stores := stores } y)) ∧
    ((∀ x ∈ stores, x.va % x.size = 0) → (∀ x ∈ stores, (own x).isSome = true) → (∃ x ∈ stores, ∃ y, own x = some (.error y)) →
      (∀ x ∈ stores, ∀ loc, own x = some (.ok loc) → isSpad loc = false) → t.popList vs = [] → ∃ y, exec i s = .next (s.stopped tid t { s.entry t i with stores := stores } y)) ∧
    ((∀ x ∈ stores, x.va % x.size = 0) → ((∃ x ∈ stores, own x = none ∨ ∃ loc, own x = some (.ok loc) ∧ isSpad loc = true) ∨
        ∀ x ∈ stores, ∀ y, own x ≠ some (.error y)) →
      exec i s = .next (s.joined tid t (vectorForm xs [] vs [] mark) { s.entry t i with stores := stores } (t.pc + 4))))

/-- What the lanes compute. Integer VADD, VSUB, VMUL, VMADD and VABS: the exact result saturated to the type, or for VMUL, and for
VADD and VSUB of .w, wrapped; SAT is set exactly where saturation changed it (R51, R161). VMULH is the high half of the product,
VMIN and VMAX the lesser and greater, the shifts go by the amount modulo the width, VSRA keeping the sign. Floating lanes (R46, R47,
R161): VADD, VSUB, VMUL and VMADD round the exact result once to nearest even; a NaN gives the canonical NaN, with NV where it
signals, as opposite infinities and 0 × Inf do with NV; a sum that is exactly 0 is −0 only for two −0; VMIN and VMAX prefer a
number to a NaN. Rounding leaves a representable value as it is, and goes to the nearest multiple, a tie to the even one. -/
def Obligations.IntegerLanes : Prop :=
  (∀ (m : Nat) (neg : Bool) (e q : Int), e < q → let d := 2 ^ (q - e).toNat; let r := roundAt .rne neg m e q
    2 * ((r.1 * d : Int) - m).natAbs ≤ d ∧ (2 * ((r.1 * d : Int) - m).natAbs = d → r.1 % 2 = 0) ∧ (r.2 = false ↔ m % d = 0)) ∧
  (∀ (ty : VType) (a b c : Nat), (ty = .hf ∨ ty = .bf ∨ ty = .f) →
    a < 2 ^ widthOf ty → b < 2 ^ widthOf ty → c < 2 ^ widthOf ty →
    let f := fmtOf ty
    let signals : Flags := if (f.val a).isSNan || (f.val b).isSNan then flagNV else 0
    ((f.val a).isNan = false → f.deliver .rne (f.val a) = (a, 0)) ∧
    (laneAdd ty true a b = laneAdd ty false a ((b + f.signBit) % 2 ^ widthOf ty)) ∧
    (((f.val a).isNan = true ∨ (f.val b).isNan = true) →
      laneAdd ty false a b = (f.nanBits, signals) ∧ laneMul ty a b = (f.nanBits, signals)) ∧
    (∀ n n', f.val a = .inf n → f.val b = .inf n' →
      laneAdd ty false a b = (if n = n' then (a, 0) else (f.nanBits, flagNV)) ∧
      laneMul ty a b = (f.infBits + (if n = n' then 0 else f.signBit), 0)) ∧
    (∀ n n' e, f.val a = .inf n → f.val b = .fin n' 0 e → laneMul ty a b = (f.nanBits, flagNV) ∧ laneMul ty b a = (f.nanBits, flagNV)) ∧
    (∀ n1 m1 e1 n2 m2 e2, f.val a = .fin n1 m1 e1 → f.val b = .fin n2 m2 e2 →
      let e0 := min 0 (min e1 e2)
      let x := scaled n1 m1 e1 e0 + scaled n2 m2 e2 e0
      (x ≠ 0 → laneAdd ty false a b = f.round .rne (decide (x < 0)) x.natAbs e0) ∧
      (x = 0 → laneAdd ty false a b = (if n1 && n2 && m1 == 0 && m2 == 0 then f.signBit else 0, 0)) ∧
      laneMul ty a b = f.round .rne (n1 != n2) (m1 * m2) (e1 + e2) ∧
      (scaled n1 m1 e1 (min e1 e2) < scaled n2 m2 e2 (min e1 e2) →
        laneMinMax ty false a b = (a, 0) ∧ laneMinMax ty true a b = (b, 0) ∧
        laneMinMax ty false b a = (a, 0) ∧ laneMinMax ty true b a = (b, 0)) ∧
      (∀ n3 m3 e3, f.val c = .fin n3 m3 e3 →
        let e0 := min 0 (min e3 (e1 + e2))
        let x := scaled n3 m3 e3 e0 + scaled (n1 != n2) (m1 * m2) (e1 + e2) e0
        x ≠ 0 → laneMadd ty c a b = f.round .rne (decide (x < 0)) x.natAbs e0)) ∧
    (∀ max, ((f.val a).isNan = true → (f.val b).isNan = false → laneMinMax ty max a b = (b, signals) ∧ laneMinMax ty max b a = (b, signals)) ∧
      ((f.val a).isNan = true → (f.val b).isNan = true → laneMinMax ty max a b = (f.nanBits, signals)))) ∧
  ∀ (ty : VType) (a b c : Nat), (ty = .b ∨ ty = .h ∨ ty = .w ∨ ty = .hu) →
    a < 2 ^ widthOf ty → b < 2 ^ widthOf ty → c < 2 ^ widthOf ty →
    let lo : Int := if ty = .hu then 0 else -(2 ^ (widthOf ty - 1) : Nat)
    let hi : Int := if ty = .hu then 65535 else (2 ^ (widthOf ty - 1) : Nat) - 1
    let fits := fun (exact : Int) (r : Nat × Flags) =>
      laneInt ty r.1 = max lo (min hi exact) ∧ (r.2 = 0 ↔ lo ≤ exact ∧ exact ≤ hi) ∧ (r.2 = 0 ∨ r.2 = 32)
    let wraps := fun (exact : Int) (r : Nat × Flags) =>
      (laneInt ty r.1 - exact) % (2 ^ widthOf ty : Nat) = 0 ∧ r.1 < 2 ^ widthOf ty ∧ r.2 = 0
    (ty ≠ .w → fits (laneInt ty a + laneInt ty b) (laneAdd ty false a b) ∧
      fits (laneInt ty a - laneInt ty b) (laneAdd ty true a b)) ∧
    (ty = .w → wraps (laneInt ty a + laneInt ty b) (laneAdd ty false a b) ∧
      wraps (laneInt ty a - laneInt ty b) (laneAdd ty true a b)) ∧
    wraps (laneInt ty a * laneInt ty b) (laneMul ty a b) ∧
    fits (laneInt ty c + laneInt ty a * laneInt ty b) (laneMadd ty c a b) ∧
    (ty ≠ .hu → fits (laneInt ty a).natAbs (laneAbs ty a)) ∧
    (laneInt ty (laneMulh ty a b).1 = laneInt ty a * laneInt ty b / (2 ^ widthOf ty : Nat) ∧ (laneMulh ty a b).2 = 0) ∧
    (∀ up, (laneMinMax ty up a b).2 = 0 ∧ ((laneMinMax ty up a b).1 = a ∨ (laneMinMax ty up a b).1 = b) ∧
      laneInt ty (laneMinMax ty up a b).1 = if up then max (laneInt ty a) (laneInt ty b) else min (laneInt ty a) (laneInt ty b)) ∧
    (laneSll ty a b = (a * 2 ^ (b % widthOf ty) % 2 ^ widthOf ty, 0) ∧ laneSrl ty a b = (a / 2 ^ (b % widthOf ty), 0)) ∧
    (sextNat (laneSra ty a b).1 (widthOf ty) = sextNat a (widthOf ty) / (2 ^ (b % widthOf ty) : Nat) ∧ (laneSra ty a b).2 = 0)

/-! ## Retirement -/

/-- BLOCK_RETIRE starts the walk of a closed block once no long result is outstanding, and a block that is empty at its walk has
retired: its thread is Ready, unless the wait-escalation trap or the step trap is due (R65, R68, R110, R362). -/
def Obligations.RetireStartsAndEnds : Prop :=
  ∀ (s : State) (v sl tid : Nat) (t : Thread), s.inSlot v sl = some (tid, t) → t.run = .block →
    (t.walking = false → (∀ e ∈ t.block, e.st ≠ .sent) →
      exec (.blockRetire v sl) s = .next (s.setThr tid { t with walking := true })) ∧
    (t.walking = false → (∃ e ∈ t.block, e.st = .sent) → exec (.blockRetire v sl) s = .next s) ∧
    (t.walking = true → t.block = [] → t.escDue = none →
      (t.level = 0 → ((s.vc v).steps.getD t.slot 0).getLsbD 0 = false) → t.vcore = v →
      exec (.blockRetire v sl) s =
        .next (s.setThr tid { t with walking := false, run := .ready, issued := 0, snap := [] }))

/-- The walk commits a done instruction: its register, vector and mask writes and flags are applied, every other register, mode
bit and special register keeps its value, no byte changes, and the walk goes on to the next instruction (R66 to R69); a reply that
filled the register in the same ac is discarded and counted in rdrop (R71). Its logical time goes on by one, at trap level 0 (R364;
log 32, DEDUCED). -/
def Obligations.RetireCommits : Prop :=
  ∀ (s : State) (v sl tid : Nat) (t : Thread) (e : Entry) (rest : List Entry),
    s.inSlot v sl = some (tid, t) → s.thr tid = some t → t.run = .block → t.walking = true → t.block = e :: rest → e.st = .done →
    e.deferred = false → e.stores = [] → e.csr = none → e.pops = [] → e.app = [] →
    ∃ (s' : State) (t' : Thread), exec (.blockRetire v sl) s = .next s' ∧ s'.thr tid = some t' ∧
      (∀ r, (∀ w ∈ e.xw, w.reg ≠ r) → t'.xr r = t.xr r ∧ t'.empty.getD r.toNat none = t.empty.getD r.toNat none) ∧
      (∀ r val short, e.xw = [⟨r, val, short⟩] → r ≠ 0 → r.toNat < t.x.length →
        t'.xr r = val ∧ t'.empty.getD r.toNat none = none) ∧
      t'.xr 0 = 0 ∧
      (∀ r, (∀ w ∈ e.vw, w.reg ≠ r) → t'.vr r = t.vr r) ∧
      (∀ r bits val, e.vw = [⟨r, bits, val⟩] → r.toNat < t.v.length →
        t'.vr r = (t.vr r &&& ~~~bits) ||| (val &&& bits)) ∧
      (∀ n, (∀ w ∈ e.mw, w.reg ≠ n) → t'.mr n.toNat = t.mr n.toNat) ∧
      (∀ n bits val, e.mw = [⟨n, bits, val⟩] → n ≠ 0 → n.toNat < t.m.length →
        t'.mr n.toNat = (t.mr n.toNat &&& ~~~bits) ||| (val &&& bits)) ∧
      t'.mr 0 = BitVec.allOnes 32 ∧
      t'.vflags = (if t.light then t.vflags else t.vflags ||| w64 (e.flags % 64)) ∧
      (t'.lutb = t.lutb ∧ t'.mfmt = t.mfmt ∧ t'.mscl = t.mscl ∧ t'.mprog = t.mprog ∧ t'.sdcnt = t.sdcnt ∧
        t'.sbstat = t.sbstat ∧ t'.tmocnt = t.tmocnt ∧ t'.tmolim = t.tmolim ∧ t'.wceil = t.wceil ∧
        t'.tvec = t.tvec ∧ t'.bank0 = t.bank0 ∧ t'.bank1 = t.bank1 ∧ t'.sup = t.sup ∧ t'.level = t.level ∧ t'.pc = t.pc) ∧
      ((∀ w ∈ e.xw, .filled w.reg ∉ t.hwNow s.ac) → t'.rdrop = t.rdrop) ∧
      (∀ r val short, e.xw = [⟨r, val, short⟩] → r ≠ 0 → .filled r ∈ t.hwNow s.ac →
        t'.rdrop = w64 (min (t.rdrop.toNat + 1) (if t.light then 0xFFFF else 0xFFFFFFFF))) ∧
      t'.block = rest ∧ t'.logical = (if t.level = 0 then t.logical + 1 else t.logical) ∧ SameMemory s s' ∧
      ∀ n, n ≠ tid → s'.thr n = s.thr n

/-- A CSR write is applied when the walk commits its instruction, to the CSR as it stands then (R67, R97): a write of vflags keeps
bits 5 to 0, and one of tvec clears bits 1 and 0 (R78). -/
def Obligations.RetireWritesCsr : Prop :=
  ∀ (s : State) (v sl tid : Nat) (t : Thread) (e : Entry) (rest : List Entry) (n : BitVec 12) (op : CsrOp),
    s.inSlot v sl = some (tid, t) → s.thr tid = some t → t.run = .block → t.walking = true → t.block = e :: rest → e.st = .done →
    e.deferred = false → e.stores = [] → e.app = [] → e.csr = some (n, op) → n ≠ 0x007 →
    exec (.blockRetire v sl) s = .next ((s.setThr tid (t.commit s.ac e)).csrWrite tid (t.commit s.ac e) n.toNat op) ∧
    (n = 0x001 → e.flags = 0 → ∃ s' t', exec (.blockRetire v sl) s = .next s' ∧ s'.thr tid = some t' ∧
      t'.vflags = op.apply t.vflags &&& 0x3F) ∧
    (n = 0x100 → ∃ s' t', exec (.blockRetire v sl) s = .next s' ∧ s'.thr tid = some t' ∧
      t'.tvec = (op.apply t.tvec >>> 2) <<< 2)

/-- A faulted instruction at the walk's position: the thread is in its handler where it was in one already, one level up with
cause, PC, value and status in the bank of its level; at level 0 a program fault ends its kernel, whose status is ABORTED with
detail 1 and the cause. The block from there on is gone and no register changes (R69, R287, R294, R295). At level 2 the core is
reset: the crash record, the kernels of its threads ended with cause 23, its slots and banks empty, TCM and I-store 0, the stub
lost and a report posted (R298). A light thread is held at a recoverable trap, its registers kept, with a report (R297). -/
def Obligations.RetireTakesFault : Prop :=
  ∀ (s : State) (v sl tid : Nat) (t : Thread) (e : Entry) (rest : List Entry) (x : Trap),
    s.inSlot v sl = some (tid, t) → s.thr tid = some t → t.run = .block → t.walking = true → t.block = e :: rest →
    e.st = .faulted x → x.cause < 256 →
    (t.light = true → x.cause < 16 → x.cause ≠ 5 → ∃ s' t', exec (.blockRetire v sl) s = .next s' ∧ s'.thr tid = some t' ∧
      t'.run = .wait ∧ (∃ w, t'.wait = some w ∧ w.kind = .light) ∧ t'.pc = (if x.cause = 6 then e.pc + 4 else e.pc) ∧ t'.block = [] ∧
      t'.x = t.x ∧ SameMemory s s' ∧
      s'.reportsDue = s.reportsDue ++ [⟨4, x.cause, v, sl, t.ctx, e.pc, x.val, s.pt⟩]) ∧
    (∀ k kn, v < 4096 → t.light = false → t.level = 2 → x.cause ≠ 5 → t.kernel = some k → s.kern k = some kn → kn.status = none → MemoryCanonical s →
      (∀ c, fieldOf (s.ctxWord c 6) 0 48 = 0) → s.locked (crashAddr v) 64 = false → (∀ p ∈ s.storeBuf, p.tid ≠ s.nextId) →
      ∃ s' kn', exec (.blockRetire v sl) s = .next s' ∧
        s'.read (crashAddr v) 8 = (recordHead 2 23 x.cause v sl t.ctx).toNat ∧ s'.read (crashAddr v + 8) 8 = e.pc.toNat ∧
        s'.read (crashAddr v + 16) 8 = x.val.toNat ∧ s'.read (crashAddr v + 24) 8 = (w64 s.pt).toNat ∧
        s'.kern k = some kn' ∧ kn'.st = .faulting ∧ kn'.cause = 23 ∧
        (∀ a, a < 0x20000 → s'.byteAt (tcmLoc v a) = 0) ∧ (∀ a, a < 0x8000 → s'.byteAt (istLoc v a) = 0) ∧
        (∀ y ∈ s'.threads, ∀ n, y.2.place ≠ .slot v n ∧ y.2.place ≠ .bank v n) ∧ (∀ b ∈ (s'.vc v).banks, b = .empty) ∧
        (s'.vc v).stubLost = true ∧ ∃ l, s'.reportsDue = l ++ [⟨5, x.cause, v, sl, t.ctx, e.pc, x.val, s.pt⟩]) ∧
    (16 ≤ x.cause → t.light = false → t.level = 1 → ∃ s' t', exec (.blockRetire v sl) s = .next s' ∧ s'.thr tid = some t' ∧
      t'.bank1 = ⟨w64 x.cause, (e.pc >>> 2) <<< 2, x.val, trapStat t.sup 1 false x.detail⟩ ∧ t'.bank0 = t.bank0 ∧
      t'.level = 2 ∧ t'.sup = true ∧ t'.pc = (t.tvec >>> 2) <<< 2 ∧ t'.run = .ready ∧ t'.block = [] ∧
      t'.x = t.x ∧ t'.v = t.v ∧ t'.m = t.m ∧ t'.vflags = t.vflags ∧ SameMemory s s') ∧
    (∀ k kn, 16 ≤ x.cause → t.light = false → t.level = 0 → t.kernel = some k → s.kern k = some kn → kn.status = none →
      ∃ s' t' kn', exec (.blockRetire v sl) s = .next s' ∧ s'.thr tid = some t' ∧ t'.block = [] ∧ t'.x = t.x ∧ t'.v = t.v ∧
        s'.kern k = some kn' ∧ kn'.st = .faulting ∧ kn'.cause = x.cause ∧ kn'.status = some (status 7 1 x.cause) ∧
        (fieldOf (s.ctxWord kn.ctx 6) 0 48 = 0 → SameMemory s s'))

/-- A block of one register instruction: from its issue to its retirement in four steps, rd has the result, every other
register is as it was, the thread is Ready at PC + 4, and no byte has changed (R65 to R69, R85 to R90). -/
def Obligations.OneInstructionBlock : Prop :=
  ∀ (s : State) (v sl tid : Nat) (t : Thread) (i : Instr) (reads : List Reg) (rd : Reg) (val : Word) (short : Bool) (fl : Flags),
    ((ShortResult t.pc t.readX i reads rd true val ∧ short = true ∧ fl = 0) ∨
      (LongResult t.readX i reads rd true val fl ∧ short = false)) →
    s.cur = (v, sl) → t.place = .slot v sl → Issuing s tid t i (scalarForm reads [rd] true) → t.block = [] → t.issued = 0 →
    rd.toNat < t.x.length → t.escDue = none → .filled rd ∉ t.hwNow s.ac →
    (t.level = 0 → ((s.vc v).steps.getD sl 0).getLsbD 0 = false) →
    ∃ s1 s2 s3 s4 t4, exec i s = .next s1 ∧ exec (.blockRetire v sl) s1 = .next s2 ∧ exec (.blockRetire v sl) s2 = .next s3 ∧
      exec (.blockRetire v sl) s3 = .next s4 ∧ s4.thr tid = some t4 ∧
      (rd ≠ 0 → t4.xr rd = val) ∧ (∀ r, r ≠ rd → t4.xr r = t.xr r) ∧ t4.xr 0 = 0 ∧ t4.v = t.v ∧ t4.m = t.m ∧
      t4.vflags = (if t.light then t.vflags else t.vflags ||| w64 (fl % 64)) ∧
      t4.pc = t.pc + 4 ∧ t4.run = .ready ∧ t4.block = [] ∧ SameMemory s s4 ∧ ∀ n, n ≠ tid → s4.thr n = s.thr n

/-- A deferred instruction that is performed commits at once: rd has its value, every other register and every byte is as
before, and the walk goes on, its logical time by one at trap level 0 (R68, R71; log 32, DEDUCED). `finishX` is the one operation by which every deferred result commits. -/
def Obligations.DeferredCommits : Prop :=
  ∀ (s : State) (tid : Nat) (t : Thread) (e : Entry) (rest : List Entry) (rd : Reg) (val : Word),
    s.thr tid = some t → t.block = e :: rest → e.csr = none → e.pops = [] → e.app = [] → e.vw = [] → e.mw = [] → e.flags = 0 →
    let s' := s.finishX tid e rd val
    SameMemory s s' ∧ (∀ n, n ≠ tid → s'.thr n = s.thr n) ∧
    ∃ t', s'.thr tid = some t' ∧ (rd ≠ 0 → rd.toNat < t.x.length → t'.xr rd = val ∧ t'.empty.getD rd.toNat none = none) ∧
      (∀ r, r ≠ rd → t'.xr r = t.xr r) ∧ t'.v = t.v ∧ t'.m = t.m ∧ t'.vflags = t.vflags ∧ t'.block = rest ∧
      t'.run = t.run ∧ t'.pc = t.pc ∧ t'.logical = (if t.level = 0 then t.logical + 1 else t.logical)

/-! ## The walk of deferred instructions and stores -/

/-- ECALL raises cause 6 and EBREAK cause 5 with detail 3: a full thread below level 2 is in its handler, one level up in
supervisor mode at tvec.BASE, the bank of its level holding cause, the instruction's own PC, value 0 and the status it had; the
rest of its block is gone, and no register and no flag changes (R99, R294 to R296, R362). -/
def Obligations.CallsTrap : Prop :=
  ∀ (s : State) (tid : Nat) (t : Thread) (i : Instr) (e : Entry) (mark : Bool) (cause detail : Nat),
    (i = .ecall mark ∧ cause = 6 ∧ detail = 0) ∨ (i = .ebreak mark ∧ cause = 5 ∧ detail = 3) →
    Walking s tid t i e → t.light = false → t.level < 2 →
    ∃ s' t', exec i s = .next s' ∧ s'.thr tid = some t' ∧
      t'.sup = true ∧ t'.level = t.level + 1 ∧ t'.pc = (t.tvec >>> 2) <<< 2 ∧ t'.run = .ready ∧ t'.block = [] ∧
      (let b : TrapBank := ⟨w64 cause, (e.pc >>> 2) <<< 2, 0,
        w64 ((if t.sup then 1 else 0) + 2 * t.level + 256 * detail)⟩
       if t.level = 0 then t'.bank0 = b ∧ t'.bank1 = t.bank1 else t'.bank1 = b ∧ t'.bank0 = t.bank0) ∧
      t'.x = t.x ∧ t'.v = t.v ∧ t'.m = t.m ∧ t'.vflags = t.vflags ∧ t'.empty = t.empty ∧
      (fieldOf s.dbg.dtrace 52 1 = 0 → SameMemory s s')

/-- XRET returns from the bank of its thread's level: PC, mode and level come from it, and no register changes; a wait the trap
was taken from is pending again (R100, R295, R296), unless it is on a reply register whose reply has come meanwhile: its thread is
Ready (R64, R71). -/
def Obligations.XretReturns : Prop :=
  ∀ (s : State) (tid : Nat) (t : Thread) (e : Entry) (mark : Bool), Walking s tid t (.xret mark) e →
    t.escDue = none →
    let b := if t.level = 1 then t.bank0 else t.bank1
    ∃ s' t', exec (.xret mark) s = .next s' ∧ s'.thr tid = some t' ∧
      t'.sup = (fieldOf b.stat 0 1 == 1) ∧ t'.level = fieldOf b.stat 1 2 ∧ t'.x = t.x ∧ t'.v = t.v ∧ t'.m = t.m ∧
      t'.bank0 = t.bank0 ∧ t'.bank1 = t.bank1 ∧ t'.vflags = t.vflags ∧ SameMemory s s' ∧
      (fieldOf b.stat 3 1 = 0 → t'.pc = (b.epc >>> 2) <<< 2 ∧ t'.run = .ready ∧ t'.block = [] ∧ t'.wait = none) ∧
      (∀ u, fieldOf b.stat 3 1 = 1 → (t.susp.find? fun u => u.level == fieldOf b.stat 1 2) = some u →
        ((∀ r, u.wait.kind = .reply r → (t.empty.getD r.toNat none).isSome = true ∨ u.block ≠ []) →
          t'.run = .wait ∧ t'.wait = some u.wait ∧ t'.block = u.block) ∧
        (∀ r, u.wait.kind = .reply r → t.empty.getD r.toNat none = none → u.block = [] →
          t'.run = .ready ∧ t'.wait = none ∧ t'.block = []))

/-- The walk performs a store to the core's own windows at once: exactly its bytes change, no register does. A scalar or mask
store leaves its value (R68, R91, R93, R120); STL, a posted CADD and a posted far atomic leave the value of their operation on
the doubleword that was there (R129, R143, R148, R149). A vector store whose elements all lie there takes the one fault that is
first in R94's order, and among those the lowest element's, or leaves the values of all its elements, of two that overlap the higher
one's; one with an element elsewhere is presented: at its targets' answer it takes the one fault in the same way, passes its first
step while a lock delays it, and else has every element accepted in order, each in the store buffer where none is performed at once
(R174). -/
def Obligations.StoresPerform : Prop :=
  (∀ (s : State) (tid : Nat) (t : Thread) (i : Instr) (e : Entry) (va size val loc : Nat) (op : StoreOp) (new : Nat → Nat → Nat),
    (op = .write ∧ (new = fun _ v => v) ∧
        ((∃ b a imm mark, ScalarStore i b a imm mark size) ∨ (∃ ms a mark, i = .mstm ms a mark ∧ size = 4))) ∨
      (PostedOp i op new ∧ size = 8 ∧ e.op 0 = w64 va ∧ va < 2 ^ 64) →
    Walking s tid t i e → e.Plain → e.stores = [⟨va, size, val, op⟩] → e.phase = .fresh → val < 2 ^ (8 * size) →
    s.ownWindow t.accessor va size = some (.ok loc) → s.tileTrap va loc = none → (op ≠ .write → s.bad loc 8 = false) →
    s.Settled tid → t.appends = [] → MemoryCanonical s →
    ∃ s' t', exec i s = .next s' ∧ s'.read loc size = new (s.read loc size) val ∧
      (∀ a, a < loc ∨ loc + size ≤ a → s'.byteAt a = s.byteAt a) ∧ s'.thr tid = some t' ∧ t'.x = t.x ∧ t'.v = t.v ∧
      t'.m = t.m ∧ t'.vflags = t.vflags ∧ t'.block = t.block.tail) ∧
  (∀ (s : State) (tid : Nat) (t : Thread) (i : Instr) (e : Entry),
    (∃ ty v xs ks m mark addr, VectorStore t i ty v xs ks m mark addr) → Walking s tid t i e → e.Plain → e.phase = .fresh →
    (∀ x ∈ e.stores, x.op = .write) →
    ((∃ x ∈ e.stores, s.placeOwn t x = none) →
      exec i s = .next (s.setHead tid { e with phase := .presented (s.presentation t e) })) ∧
    ((∀ x ∈ e.stores, s.placeOwn t x ≠ none) → (∃ x ∈ e.stores, ∃ y, s.placeOwn t x = some (.error y)) →
      ∃ (k : Nat) (x : StoreElem) (y : Trap), e.stores[k]? = some x ∧ s.placeOwn t x = some (.error y) ∧
        (∀ (j : Nat) (x' : StoreElem) (z : Trap), e.stores[j]? = some x' → s.placeOwn t x' = some (.error z) →
          y.rank < z.rank ∨ y.rank = z.rank ∧ k ≤ j) ∧
        exec i s = .next (s.takeTrap tid y e.pc false)) ∧
    (∀ locs : List Nat, e.stores.map (s.placeOwn t) = locs.map (fun loc => some (.ok loc)) → s.Settled tid → MemoryCanonical s →
      ∃ s' t', exec i s = .next s' ∧
        (∀ a, (s'.byteAt a).toNat = (e.stores.zip locs).foldl (fun b r =>
          if r.2 ≤ a ∧ a < r.2 + r.1.size then r.1.val / 2 ^ (8 * (a - r.2)) % 256 else b) (s.byteAt a).toNat) ∧
        s'.thr tid = some t' ∧ t'.x = t.x ∧ t'.v = t.v ∧ t'.m = t.m ∧ t'.vflags = t.vflags ∧ t'.block = t.block.tail)) ∧
  (∀ (s : State) (v sl tid : Nat) (t : Thread) (e : Entry) (p : Presented) (rest : List Entry),
    s.inSlot v sl = some (tid, t) → s.thr tid = some t → t.run = .block → t.walking = true → t.block = e :: rest →
    e.phase = .presented p → e.Plain → e.stores ≠ [] →
    (∃ ty w xs ks m mark addr, VectorStore t e.ins ty w xs ks m mark addr) → (p.checked = true ∨ s.pt < p.since + 200000) →
    let rs := s.placePinned t e
    ((∃ x y, (x, .error y) ∈ rs) →
      ∃ (k : Nat) (x : StoreElem) (y : Trap), rs[k]? = some (x, .error y) ∧
        (∀ (j : Nat) (x' : StoreElem) (z : Trap), rs[j]? = some (x', .error z) → y.rank < z.rank ∨ y.rank = z.rank ∧ k ≤ j) ∧
        exec (.storeAcceptance v sl) s = .next (s.takeTrap tid y e.pc false)) ∧
    (∀ l : List (StoreElem × Nat), rs = l.map (fun r => (r.1, .ok r.2)) →
      (p.checked = false → (∃ r ∈ l, s.locked r.2 r.1.size = true) →
        exec (.storeAcceptance v sl) s = .next (s.setHead tid
          { e with phase := .presented { p with checked := true, pins := l.map fun r => some r.2 } })) ∧
      ((∀ r ∈ l, s.locked r.2 r.1.size = false ∧ s.isMoving r.2 = false ∧ t.atOnce r.2 = false) →
        s.egressOk t.ctx (egressBytes l) = true → s.detGate t.ctx t.detKey = true →
        ∃ s' t', exec (.storeAcceptance v sl) s = .next s' ∧ s'.thr tid = some t' ∧ t'.block = rest ∧ t'.x = t.x ∧
          s'.storeBuf.map (fun q => (q.tid, q.loc, q.size, q.val, q.op)) =
            s.storeBuf.map (fun q => (q.tid, q.loc, q.size, q.val, q.op)) ++
              l.map (fun r => (tid, r.2, r.1.size, r.1.val, r.1.op)) ∧ SameMemory s s')))

/-- LDA reads its doubleword at the home, behind the thread's own posted atomics to it and with its held stores forwarded, acquires,
and commits it in rd (R119, R125, R129). A far atomic with a destination, once its release can be made, releases, reads the
doubleword at its home, leaves the value of its operation there, acquires and gives the old value (R148, R149). ACAS writes its new
value where the doubleword equals the compare value and nothing where it does not (R151). CADD with a destination adds without
overflow, or saturates the counter and traps with cause 20 and its address (R143, R144). It states completion of LDA, CADD, AADD,
AAND, AOR, AXOR, AMIN, AMAX, AMINU, AMAXU, ASWAP, ACAS.v and ACAS.s. -/
def Obligations.AtomicsPerform : Prop :=
  ∀ (s : State) (tid : Nat) (t : Thread) (e : Entry) (loc : Nat),
    (∀ (sc : Scope) (rd a : Reg) (mark : Bool), Walking s tid t (.lda sc rd a mark) e →
      Reaches s tid t e (e.op 0).toNat 8 .read 0 loc → s.canFlush tid = true →
      let s0 := s.touchTlb t (e.op 0).toNat .read
      let s1 := if s.postedAhead tid loc 8 then s0.release tid else s0
      s1.bad loc 8 = false →
      exec (.lda sc rd a mark) s = .next ((s1.acquireAt tid t sc loc).finishX tid e rd
        (w64 (forwardRead (s1.heldStores tid t []) (fun x => s1.homeRead x 1) loc 8)))) ∧
    (Reaches s tid t e (e.op 0).toNat 8 .rw 2 loc → s.canRelease tid t = true →
      let s1 := (s.touchTlb t (e.op 0).toNat .rw).release tid
      let old := s1.read loc 8
      let acquired := fun (i : Instr) => s1.acquireAt tid t ((relScope i).getD .s) loc
      s1.bad loc 8 = false →
      (∀ (i : Instr) (op : Nat) (rd a b : Reg) (mark : Bool), FarAtomic i op rd a b mark → rd ≠ 0 → Walking s tid t i e →
        s.skipsRelease tid t i = false →
        exec i s = .next (((acquired i).atomicWrite s1 tid t i loc (atomicResult op (w64 old) (e.op 1)).toNat).finishX tid e rd
          (w64 old))) ∧
      (∀ (i : Instr) (rd a b c : Reg) (mark : Bool), (i = .acasV rd a b c mark ∨ i = .acasS rd a b c mark) →
        Walking s tid t i e → s.skipsRelease tid t i = false →
        let s2 := if rd = 0 then s1.dropLine [t.vcore] loc else acquired i
        let s3 := if w64 old = e.op 1 then s2.atomicWrite s1 tid t i loc (e.op 2).toNat else s2
        exec i s = .next (if rd = 0 then s3.finish tid e [] else s3.finishX tid e rd (w64 old))) ∧
      (∀ (sc : Scope) (rd a b : Reg) (mark : Bool), let i := Instr.cadd sc rd a b mark
        rd ≠ 0 → Walking s tid t i e →
        let sum := old + (e.op 1).toNat
        (sum < 2 ^ 64 → s.skipsRelease tid t i = false →
          exec i s = .next (((acquired i).atomicWrite s1 tid t i loc sum).finishX tid e rd (w64 old))) ∧
        (2 ^ 64 ≤ sum → exec i s =
          .next (((s1.dropLine [t.vcore] loc).atomicWrite s1 tid t i loc (2 ^ 64 - 1)).takeTrap tid ⟨20, 0, e.op 0⟩ e.pc false))))

/-- The effective deadline E of an instruction with a deadline operand, computed at its issue time Ti from D and the ceiling wc
(R104): Ti for D = 0, Ti plus D[62:0] where D[63] is 1, D where it is 0; at most Ti + wc, and Ti where that is D at or before Ti;
the ceiling set it where D is not 0 and the unclamped E lies past Ti + wc. D = 0xFFFF_FFFF_FFFF_FFFF selects the ceiling, and
supervisor mode uses its own wceil in the same way. -/
def Obligations.EffectiveDeadline : Prop :=
  ∀ (s : State) (t : Thread) (k : WaitKind) (rd : Reg) (d : Word),
    let ti := s.pt
    let wc := if t.light then s.ctxCeil t.ctx else t.wceil.toNat
    let w := s.newWait t k rd d
    let raw := if d = 0 then ti else if d.getLsbD 63 then ti + d.toNat % 2 ^ 63 else d.toNat
    (ti ≤ raw → w.deadline = min raw (ti + wc)) ∧ (raw ≤ ti → w.deadline = ti) ∧ (wc = 0 → w.deadline = ti) ∧
    (w.poll = true ↔ d = 0) ∧ (w.ceil = true ↔ w.deadline = ti + wc ∧ d ≠ 0 ∧ ti + wc < raw) ∧
    (d = 0xFFFFFFFFFFFFFFFF → wc < 2 ^ 63 - 1 → w.deadline = ti + wc ∧ w.ceil = true)

/-- CWAIT ends OK with the counter's value where it is at its target, LWAIT with the word's value where it differs from the
compare value; where not, both end TIMEOUT at once if E is not after now, with the counter's value or the compare value, and
else park (R104, R105, R145, R152). The thread's own stores to the doubleword come first (R119). It states completion of CWAIT and
LWAIT. -/
def Obligations.MemoryWaits : Prop :=
  ∀ (s : State) (tid : Nat) (t : Thread) (e : Entry) (rd a b c : Reg) (mark : Bool) (loc : Nat) (word : Bool),
    let i : Instr := if word then .lwait rd a b c mark else .cwait rd a b c mark
    let s1 := ((s.touchTlb t (e.op 0).toNat .read).caughtUp tid loc 8).askWait tid t loc 8
    let kind : WaitKind := if word then .word loc (e.op 0) (e.op 1) else .counter loc (e.op 0) (e.op 1)
    let w := s1.begunWait t e kind rd (e.op 2)
    let val := s1.read loc 8
    Walking s tid t i e → Reaches s tid t e (e.op 0).toNat 8 .read 0 loc → s.canFlush tid = true → s1.bad loc 8 = false →
    let holds := s1.unsent tid loc = false ∧ s1.pt ≤ w.deadline ∧ if word then val ≠ (e.op 1).toNat else (e.op 1).toNat ≤ val
    (holds → exec i s = .next (s1.endWait tid e w (s1.success t 0 (w64 val)))) ∧
    (¬holds → w.deadline ≤ s1.pt →
      exec i s = .next (s1.endWait tid e w (s1.timeout t w (if word then e.op 1 else w64 val)))) ∧
    (¬holds → s1.pt < w.deadline → exec i s = .next (s1.parkWait tid w))

/-- MONA arms a Free entry on its line and gives OK with the entry's number; with no entry Free it gives REFUSED, detail 1; MCLR
frees the entry of its line (R154, R156). MWAIT with no armed entry gives REFUSED; with an entry written, or another reason to
end, it ends and its entries are quiet again; else it is a TIMEOUT at once where E is not after now, and parks until E where it is
(R105, R155). It states completion of MONA, MCLR and MWAIT. -/
def Obligations.MonitorsWatch : Prop :=
  ∀ (s : State) (tid : Nat) (t : Thread) (e : Entry) (rd a : Reg) (mark : Bool),
    (∀ (loc n : Nat), let va := (e.op 0).toNat / 64 * 64
      s.monaPlace t va = .ok (some loc) → s.canFlush tid = true →
      (Walking s tid t (.mona rd a mark) e → (t.mon.findIdx? fun (m : MonSt) => m.line == some (lineOf loc)) = none →
        let s1 := s.touchTlb t va .read
        ((t.mon.findIdx? fun (m : MonSt) => m == .free) = some n →
          exec (.mona rd a mark) s =
            .next (((s1.caughtUp tid (lineOf loc * 64) 64).arm tid t n loc va).finishX tid e rd (status 0 0 n))) ∧
        ((t.mon.findIdx? fun (m : MonSt) => m == .free) = none →
          exec (.mona rd a mark) s = .next (s1.finishX tid e rd (status 11 1 0)))) ∧
      (Walking s tid t (.mclr a mark) e →
        exec (.mclr a mark) s = .next ((s.updThr tid fun t => { t with
          mon := t.mon.map fun (m : MonSt) => if m.line == some (lineOf loc) then .free else m }).finish tid e []))) ∧
    (Walking s tid t (.mwait rd a mark) e →
      let w := s.newWait t .monitor rd (e.op 0)
      ((∀ m ∈ t.mon, m = .free) → exec (.mwait rd a mark) s = .next (s.endWait tid e w ⟨s.pt, 11, 0, 0, 0⟩)) ∧
      ((∃ m ∈ t.mon, m ≠ .free) → t.monMet = true →
        exec (.mwait rd a mark) s = .next (s.endMonitor tid t e w (s.monVerdict t))) ∧
      ((∃ m ∈ t.mon, m ≠ .free) → t.monMet = false → w.deadline ≤ s.pt →
        exec (.mwait rd a mark) s = .next (s.endWait tid e w (s.timeout t w 0))) ∧
      ((∃ m ∈ t.mon, m ≠ .free) → t.monMet = false → s.pt < w.deadline →
        exec (.mwait rd a mark) s = .next (s.parkWait tid w)))

/-- FENCEW with a reserved bit gives REFUSED and with no class OK; one whose classes are drained of the thread's stores, appends,
atomics and commands, those of the copy engine however they were sent, ends OK; one that is not, or whose thread has lost a store
that its kernel ends for (R132), ends PARTIAL with the classes left as its detail where E is not after now, and else parks (R130,
R180). IFENCEW with no store to this core's I-store outstanding
drops the words fetched ahead and ends OK; with one it parks or is a TIMEOUT at once (R105, R138). It states completion of FENCEW
and IFENCEW. -/
def Obligations.FencesWait : Prop :=
  ∀ (s : State) (tid : Nat) (t : Thread) (e : Entry) (sc : Scope) (rd a c : Reg) (mark : Bool),
    (Walking s tid t (.fencew sc rd a c mark) e →
      let i := Instr.fencew sc rd a c mark
      let m := (e.op 0).toNat
      let stores := (s.storeBuf.filter fun p => p.tid == tid).map fun p => p.id
      let cmds := (s.cmds.filter fun c => c.tid == tid && (c.eng.isCopy || !c.push)).map fun c => c.id
      let w := s.newWait t (.fence sc (m % 32) stores cmds t.appends) rd (e.op 1)
      let left := s.undrained t m stores cmds t.appends
      (32 ≤ m → exec i s = .next (s.ends tid t e .light rd (e.op 1) ⟨s.pt, 11, 0, 0, 0⟩)) ∧
      (m = 0 → exec i s = .next (s.ends tid t e .light rd (e.op 1) ⟨s.pt, 0, 0, 0, 0⟩)) ∧
      (0 < m → m < 32 → left = 0 → s.lostStore tid = false →
        exec i s = .next (s.endWait tid e w (s.success t 0 0))) ∧
      (0 < m → m < 32 → left ≠ 0 ∨ s.lostStore tid = true → w.deadline ≤ s.pt →
        exec i s = .next (s.endWait tid e w ⟨s.pt, 6, left, 0, 0⟩)) ∧
      (0 < m → m < 32 → left ≠ 0 ∨ s.lostStore tid = true → s.pt < w.deadline → exec i s = .next (s.parkWait tid w))) ∧
    (Walking s tid t (.ifencew rd c mark) e →
      let code := fun (p : PStore) => isIst p.loc && !isSpad p.loc && vcoreOfLoc p.loc == some t.vcore
      let w := s.newWait t (.ifence ((s.storeBuf.filter code).map fun p => p.id)) rd (e.op 0)
      ((∀ p ∈ s.storeBuf, code p = false) → s.lostStore tid = false → exec (.ifencew rd c mark) s =
        .next ((s.updThr tid fun t => { t with stale := [] }).endWait tid e w (s.success t 0 0))) ∧
      ((∃ p ∈ s.storeBuf, code p = true) ∨ s.lostStore tid = true → w.deadline ≤ s.pt →
        exec (.ifencew rd c mark) s = .next (s.endWait tid e w (s.timeout t w 0))) ∧
      ((∃ p ∈ s.storeBuf, code p = true) ∨ s.lostStore tid = true → s.pt < w.deadline → exec (.ifencew rd c mark) s = .next (s.parkWait tid w)))

/-- GNEW makes a slot of its die Active with the issuer's class, kernel and context, no arrival and phase 0, and gives its id; JOIN
gives a member its index and another thread the lowest index not in use; LEAVE takes the member out, whose discarded arrival may
complete the phase; GFREE makes the group Free, so that no wait on it is left without an end; each commits in rd, and a failing
check in its place (R250 to R256, R267). It states completion of GNEW, JOIN, LEAVE and GFREE. -/
def Obligations.GroupsChange : Prop :=
  ∀ (s : State) (tid : Nat) (t : Thread) (e : Entry) (rd a : Reg) (mark : Bool),
    let arg := (e.op 0).toNat
    let key := groupKey arg
    (∀ (n die : Nat), Walking s tid t (.gnew rd a mark) e → arg < 256 →
      (if arg.testBit 6 then die = arg / 4 % 16 else die = dieOf t.vcore ∧ arg / 4 % 16 = 0) → arg % 4 = t.cls →
      bitAt (s.dieMask t) die = true →
      n < 1024 → (s.group (die * 1024 + n)).active = false → (∀ k, k < n → (s.group (die * 1024 + k)).active = true) →
      s.kernelGroups t.kernel < s.groupQuota t → (arg.testBit 7 = true → (s.groupsOf tid).length < 4) →
      let gen := (s.group (die * 1024 + n)).gen
      let g : Group := ⟨gen, true, t.cls, t.kernel, t.ctx, if arg.testBit 7 then [⟨0, tid, .idle⟩] else [], 0⟩
      exec (.gnew rd a mark) s = .next ((s.setGroup (die * 1024 + n) g).finishX tid e rd (w64 (n + die * 1024 + gen * 16384)))) ∧
    (∀ (n : Nat), Walking s tid t (.join rd a mark) e → s.groupCheck t tid (e.op 0) true false = none →
      let s1 := s.expireGroup key
      let g := s1.group key
      (∀ m, g.member tid = some m → exec (.join rd a mark) s = .next (s1.finishX tid e rd (w64 m.idx))) ∧
      (g.member tid = none → n ≤ 1024 → (∀ m ∈ g.members, m.idx ≠ n) → (∀ k, k < n → ∃ m ∈ g.members, m.idx = k) →
      exec (.join rd a mark) s =
        .next ((s1.setGroup key { g with members := g.members ++ [⟨n, tid, .idle⟩] }).finishX tid e rd (w64 n)))) ∧
    (Walking s tid t (.leave rd a mark) e → s.groupCheck t tid (e.op 0) false true = none →
      let s1 := s.expireGroup key
      let g := s1.group key
      let g' : Group := { g with members := g.members.filter fun m => m.tid != tid }
      (g'.whole = false →
        exec (.leave rd a mark) s = .next
        ((((s1.updThr tid fun t => t.loseArrival key).setGroup key g').ungrouped tid).finishX tid e rd (status 0 0 0))) ∧
      (g'.whole = true → ∃ s2, exec (.leave rd a mark) s = .next (s2.finishX tid e rd (status 0 0 0)) ∧
        (s2.group key).member tid = none ∧ (s2.group key).phase = (g.phase + 1) % 2 ^ 32 ∧ SameMemory s s2)) ∧
    (Walking s tid t (.gfree rd a mark) e → s.groupCheck t tid (e.op 0) false false = none →
      ∃ s2, exec (.gfree rd a mark) s = .next (s2.finishX tid e rd (status 0 0 0)) ∧
        s2.group key = { Group.reset with gen := ((s.group key).gen + 1) % 4 } ∧
        (∀ x ∈ s2.threads, x.2.barrierWaits key = []) ∧ SameMemory s s2) ∧
    (∀ c d, s.groupCheck t tid (e.op 0) true false = some (c, d) → Walking s tid t (.join rd a mark) e →
      exec (.join rd a mark) s = .next (s.finishX tid e rd (0x8000000000000000 ||| status c d 0))) ∧
    (∀ c d, s.groupCheck t tid (e.op 0) false true = some (c, d) → Walking s tid t (.leave rd a mark) e →
      exec (.leave rd a mark) s = .next (s.finishX tid e rd (status c d 0))) ∧
    (∀ c d, s.groupCheck t tid (e.op 0) false false = some (c, d) → Walking s tid t (.gfree rd a mark) e →
      exec (.gfree rd a mark) s = .next (s.finishX tid e rd (status c d 0)))

/-- BARA, BARW and BARX at a home where no member's wait has expired (R263 to R267, R269): an arrival that is not the last, once its
release can be made, sets its bit; BARA goes on, and BARW parks until E or, where E is not after now, is withdrawn; the last one
advances the phase modulo 2^32, leaves no member Arrived, and BARA and BARW give OK with the phase that completed; BARX of a phase
that has completed gives OK at once, and of one that has not, parks or is a TIMEOUT; a failing check gives its code and detail. It
states completion of BARA, BARW and BARX. -/
def Obligations.BarriersMeet : Prop :=
  ∀ (s : State) (tid : Nat) (t : Thread) (e : Entry) (rd a c : Reg) (mark : Bool) (i : Instr) (g : Group),
    let key := groupKey (e.op 0).toNat
    s.expireGroup key = s → s.group key = g → Walking s tid t i e →
    ((i = .bara rd a mark ∨ i = .barw rd a c mark) → s.barrierCheck t tid (e.op 0) true = none →
      s.canRelease tid t = true →
      let w := (s.release tid).begunWait t e (.barrier key (some g.phase) true) rd (e.op 1)
      ((∃ m ∈ g.members, m.tid ≠ tid ∧ m.arr ≠ .arrived) →
        let s1 := (s.release tid).setGroup key (g.setArr tid .arrived)
        (i = .bara rd a mark → exec i s = .next (s1.finishX tid e rd (status 0 0 g.phase))) ∧
        (i = .barw rd a c mark → s1.pt < w.deadline → exec i s = .next (s1.parkWait tid w)) ∧
        (i = .barw rd a c mark → w.deadline ≤ s1.pt → exec i s =
          .next ((s1.setGroup key ((g.setArr tid .arrived).setArr tid .idle)).endWait tid e w ⟨s1.pt, 5, 0, 0, 0⟩))) ∧
      ((∀ m ∈ g.members, (m.tid ≠ tid → m.arr = .arrived) ∧ (s.thr m.tid).isSome = true) → g.phase < 2 ^ 32 →
        ∃ s' t', exec i s = .next s' ∧ (s'.group key).phase = (g.phase + 1) % 2 ^ 32 ∧
          (∀ m ∈ (s'.group key).members, m.arr ≠ .arrived) ∧ s'.thr tid = some t' ∧
          (e.Plain → rd ≠ 0 → rd.toNat < t.x.length → t'.xr rd = status 0 0 g.phase))) ∧
    (i = .barx rd a c mark → s.barrierCheck t tid (e.op 0) false = none →
      let w := fun p => s.newWait t (.barrier key (some p) false) rd (e.op 1)
      (∀ m p, g.member tid = some m → m.arr = .passed p →
        exec i s = .next ((s.setGroup key (g.setArr tid .idle)).endWait tid e (w p) ⟨s.pt, 0, 0, p % 65536, 0⟩)) ∧
      (∀ m, g.member tid = some m → m.arr = .arrived →
        (s.pt < (w g.phase).deadline → exec i s = .next (s.parkWait tid (w g.phase))) ∧
        ((w g.phase).deadline ≤ s.pt →
          exec i s = .next (s.endWait tid e (w g.phase) (s.timeout t (w g.phase) 0))))) ∧
    (∀ k d, s.barrierCheck t tid (e.op 0) true = some (k, d) →
      (i = .bara rd a mark → exec i s = .next (s.finishX tid e rd (status k d 0))) ∧
      (i = .barw rd a c mark → exec i s = .next (s.ends tid t e .light rd (e.op 1) ⟨s.pt, k, d, 0, 0⟩))) ∧
    (∀ k d, s.barrierCheck t tid (e.op 0) false = some (k, d) → i = .barx rd a c mark →
      exec i s = .next (s.ends tid t e .light rd (e.op 1) ⟨s.pt, k, d, 0, 0⟩))

/-- SBIND, with no earlier store or append of its thread left, reads its descriptor from the core's own TCM and binds the register at
position 0 with its byte of sbstat clear, or, where its context is not in the engine and finds no room there, parks the thread
(R179, R181); SUNB, with nothing left to accept, makes the register an ordinary one that reads 0, and of
one that is ordinary clears the byte; while appends are left it waits; SSTAT gives the committed position and the stream's byte of
sbstat, 0 where none is bound (R176, R177). It states completion of SBIND, SUNB and SSTAT. -/
def Obligations.StreamsBind : Prop :=
  ∀ (s : State) (tid : Nat) (t : Thread) (e : Entry) (ty : VType) (n : BitVec 3) (rd a : Reg) (mark : Bool),
    let j := n.toNat
    (∀ (loc : Nat), Walking s tid t (.sbind ty n a mark) e → e.Plain → s.Settled tid → s.lostStore tid = false → t.appends = [] →
      t.streams.length = 8 →
      s.descriptorLoc t (e.op 0).toNat = .ok loc → s.bad loc 64 = false →
      let d := fun (k : Nat) => w64 (s.read (loc + 8 * k) 8)
      badDescriptor d = false →
      (s.streamsIn t = false → s.residentRoom t.vcore = false →
        ∃ s' t' w, exec (.sbind ty n a mark) s = .next s' ∧ s'.thr tid = some t' ∧ t'.run = .wait ∧ t'.wait = some w ∧
          w.kind = .stream j ∧ w.deadline = (s.deadline (d 6) (s.ceil t)).1 ∧ t'.block = t.block ∧ SameMemory s s') ∧
      ((s.streamsIn t = true ∨ s.residentRoom t.vcore = true) →
      ∃ s' t' x, exec (.sbind ty n a mark) s = .next s' ∧ s'.thr tid = some t' ∧ t'.streams.getD j none = some x ∧
        x.ty = ty ∧ x.append = (d 0).getLsbD 0 ∧ x.indirect = (d 0).getLsbD 1 ∧ x.base = d 1 ∧ x.index = d 2 ∧ x.s1 = d 3 ∧
        x.s2 = d 5 ∧ x.n1 = fieldOf (d 4) 0 32 ∧ x.n2 = fieldOf (d 4) 32 32 ∧ x.dl = d 6 ∧ x.pos = 0 ∧ x.cur = 0 ∧
        x.kept = [] ∧ x.ready = [] ∧ x.buf = [] ∧ fieldOf t'.sbstat (8 * j) 8 = 0 ∧ t'.x = t.x ∧ t'.v = t.v ∧ t'.m = t.m ∧
        SameMemory s s')) ∧
    (∀ x, Walking s tid t (.sunb n mark) e → e.Plain → t.streams.getD j none = some x → x.buf = [] →
      ∃ s' t', exec (.sunb n mark) s = .next s' ∧ s'.thr tid = some t' ∧ t'.streams.getD j none = none ∧
        t'.v = t.v.set (24 + j) 0 ∧ fieldOf t'.sbstat (8 * j) 8 = 0 ∧ t'.x = t.x ∧ SameMemory s s') ∧
    (Walking s tid t (.sunb n mark) e →
      (t.streams.getD j none = none →
        exec (.sunb n mark) s = .next ((s.updThr tid fun t => t.clearSb j).finish tid e [])) ∧
      (∀ x, t.streams.getD j none = some x → x.buf ≠ [] → exec (.sunb n mark) s = .next s)) ∧
    (Walking s tid t (.sstat rd n mark) e →
      (t.streams.getD j none = none → exec (.sstat rd n mark) s = .next (s.finishX tid e rd 0)) ∧
      (∀ x, t.streams.getD j none = some x → exec (.sstat rd n mark) s =
        .next (s.finishX tid e rd (w64 (min x.pos 0xFFFFFFFF + fieldOf (s.sbstatOf t) (8 * j) 8 * 2 ^ 32)))))

/-- SDSTEP takes its sixteen lanes in order through `SdRun.lane`, sends their packets and writes sdcnt; a residual below the
threshold has code 0 and one at or above it rounds to nearest even after the shift and is clamped to −127 to 127 (R189 to R192).
EVSEND sends its packet with SRC its own vcore and ends when it has settled (R200). EVSTEP closes the step of its range and waits
for it (R201). RECV takes the head packet of the lowest class of its mask that holds one, and parks where none does (R202). It states completion of
SDSTEP, EVSEND (the packet leaves; its acknowledgement or refusal ends it: PacketsTravel), EVSTEP and RECV. -/
def Obligations.ChannelsSend : Prop :=
  (∀ (s : State) (tid : Nat) (t : Thread) (e : Entry) (v a : Reg) (mark : Bool), Walking s tid t (.sdstep v a mark) e →
    s.stalled = false → (e.op 0).toNat ≤ 4080 → (s.sdu t.vcore).owner = some t.ctx →
    let g := (List.range 16).foldl (SdRun.lane t.vcore (e.op 0).toNat (e.vop 0)) ⟨s.sdu t.vcore, [], 0, 0, false⟩
    let s1 := g.sent.foldl (fun s p => s.sendPacket t.vcore p.1 t.ctx t.logical p.2.1 p.2.2) (s.updSdu t.vcore fun _ => g.sdu)
    exec (.sdstep v a mark) s =
      .next ((s1.updThr tid fun t => { t with sdcnt := w64 (g.sent.length + g.quiet * 2 ^ 8 + g.clamped * 2 ^ 16 +
        (if g.noRange then 2 ^ 24 else 0) + min (fieldOf t.sdcnt 32 32 + g.sent.length) 0xFFFFFFFF * 2 ^ 32) }).finish tid e [])) ∧
  (∀ (x : Int) (theta shift : Nat),
    (x.natAbs < theta → changeCode x theta shift = (0, false)) ∧
    (theta ≤ x.natAbs → ∃ q : Int, 2 * (x - q * 2 ^ shift).natAbs ≤ 2 ^ shift ∧
      (2 * (x - q * 2 ^ shift).natAbs = 2 ^ shift → q % 2 = 0) ∧
      changeCode x theta shift = (max (-127) (min 127 q), decide (q < -127 ∨ 127 < q)))) ∧
  (∀ (s : State) (tid : Nat) (t : Thread) (e : Entry) (rd a b : Reg) (mark : Bool), Walking s tid t (.evsend rd a b mark) e →
    s.stalled = false → e.phase = .fresh → (e.op 0).toNat < 4096 → fieldOf (e.op 1) 1 3 = 0 → fieldOf (e.op 1) 6 2 = 0 →
    t.cls ≤ packetClass (e.op 1) →
    exec (.evsend rd a b mark) s = .next ((s.sendPacket t.vcore (e.op 0).toNat t.ctx t.logical (setField (e.op 1) 40 12 t.vcore)
      (.evsend tid)).setHead tid { e with phase := .accepted })) ∧
  (∀ (s : State) (tid : Nat) (t : Thread) (e : Entry) (rd a c : Reg) (mark : Bool), Walking s tid t (.evstep rd a c mark) e →
    let n := (e.op 0).toNat
    let u := s.sdu t.vcore
    n < 8 → u.owner = some t.ctx → (u.range n).enabled = true → n < u.ranges.length →
    let w := s.newWait t (.evstep t.vcore n (u.range n).cur) rd (e.op 1)
    s.pt < w.deadline → ∃ s', exec (.evstep rd a c mark) s = .next (s'.parkWait tid w) ∧
      ((s'.sdu t.vcore).range n).cur = (u.range n).cur + 1 ∧ ((s'.sdu t.vcore).range n).parity = 1 - (u.range n).parity ∧
      (s'.sdu t.vcore).steps = u.steps ++ [⟨n, (u.range n).cur, (u.range n).parity, u.openNacks.getD n 0, false, t.logical⟩] ∧
      s'.threads = s.threads ∧ SameMemory s s') ∧
  (∀ (s : State) (tid : Nat) (t : Thread) (e : Entry) (rd a c : Reg) (mark : Bool), Walking s tid t (.recv rd a c mark) e →
    let sel := (e.op 0).toNat
    let mask := if sel = 0 then 15 else sel
    let ib := s.inbox t.vcore
    let w := s.newWait t (.recv t.vcore mask) rd (e.op 1)
    sel < 16 → ib.owner = some t.ctx →
    (∀ (k : Nat) (p : Word) (r : List Word), k < 4 → mask.testBit k = true → ib.q.getD k [] = p :: r → k < ib.q.length →
      (∀ j, j < k → mask.testBit j = true → ib.q.getD j [] = []) →
      let ib' : Inbox := { ib with q := ib.q.set k r }
      exec (.recv rd a c mark) s = .next (((s.updInbox t.vcore fun _ => ib').settleMarkers t.vcore).endWait tid e w
        ⟨s.pt, 0, 0, ib'.left mask, p⟩)) ∧
    ((∀ k, k < 4 → mask.testBit k = true → ib.q.getD k [] = []) → s.pt < w.deadline →
      exec (.recv rd a c mark) s = .next (s.parkWait tid w)))

/-- Take one lane of an SDSTEP and one destination of its range, and suppose no clamp acted on it: afterwards the residual is at
most max(θ − 1, 2^(s−1)) (both sides are doubled here), so that θ ≤ 1 and s = 0 leave none; a tie rounds to even (R191). -/
def Obligations.ResidualBound : Prop :=
  (∀ (s : State) (tid : Nat) (t : Thread) (e : Entry) (v a : Reg) (mark : Bool) (l d n : Nat) (r : Range),
    let f := (e.op 0).toNat
    let u := s.sdu t.vcore
    let x := sextNat (laneOf (e.vop 0) 16 l) 16
    let theta := (u.slot (f + l)).1
    Walking s tid t (.sdstep v a mark) e → e.Plain → s.stalled = false → f ≤ 4080 → u.owner = some t.ctx → l < 16 → d < 4 →
    u.rangeOf (f + l) = some (n, r) → (r.dests.getD d ⟨false, 0, 0, 0⟩).valid = true → (u.slot (f + l)).2.length = 4 →
    (changeCode (x - u.sent (f + l) d) theta r.shift).2 = false →
    ∃ s', exec (.sdstep v a mark) s = .next s' ∧
      (let rest := ((x - (s'.sdu t.vcore).sent (f + l) d).natAbs : Int)
       2 * rest ≤ max (2 * (theta : Int) - 2) (2 ^ r.shift) ∧ (theta ≤ 1 → r.shift = 0 → (s'.sdu t.vcore).sent (f + l) d = x))) ∧
  (∀ theta, theta ≤ 10 → changeCode 10 theta 2 = (2, false))

/-- XCMD and QPUSH send their command (R206 to R213): where its engine's queue has room by E it enters it with the issuer's thread,
context, kernel, formats and effective deadline, or, where `State.acceptCheck` finds a failing check, completes with REFUSED and that
check's detail (its record is Completing until its reply is given: log 19, DEDUCED; of several checks that fail together, log 38;
FLAGS and short bodies by QPUSH, log 36); the reply register that its header
names awaits it (R71), and QPUSH gives OK. With no room the thread parks before E, and at E gets FULL. An address that is no inbox
window gives QPUSH REFUSED, detail 9; a body that cannot be read traps. TGIVE makes a tile the engines'; TTAKE of one no command names
gives it back, of one that is the threads' already ends OK, and of one a command names parks or is a TIMEOUT (R105,
R219, R220). It states completion of every XCMD (MMA, MMA.BS, MLUT, MBIN, MZERO, MLDA, MSTA, TCFG, TREL, MTEAM, COPY1, COPY2, COPYX,
CFILL, QNT8, QS2P, DQNT, CRED, CBCAST, CAGATH, SDCFG, SDRST), and of QPUSH, TGIVE and TTAKE. -/
def Obligations.CommandsEnter : Prop :=
  (∀ (s : State) (tid : Nat) (t : Thread) (i : Instr) (e : Entry) (no op : Nat) (short : Bool) (rd a b : Reg) (mark : Bool),
    CommandWord i no op short rd a b mark → Walking s tid t i e →
    (∀ x, short = false → s.tcmBody tid t (e.op 0).toNat = .error x → exec i s = .next (s.takeTrap tid x e.pc false)) ∧
    (∀ body : List Word, e.Plain → body.length = 8 →
      (if short then body = shortBody op no (e.op 0) else s.tcmBody tid t (e.op 0).toNat = .ok body) → s.canRelease tid t = true →
      t.empty.length = 32 → t.x.length = 32 → s.nextId < 2 ^ 64 →
      let eng := engineOf no t.vcore
      let dl := (e.begun.getD (s.deadline (e.op 1) (s.ceil t))).1
      let h := setField (setField (stampHeader (body.getD 0 0) t) 28 5 rd.toNat) 33 1 (if rd = 0 then 0 else 1)
      let sent := (body.set 0 h).set 7 (w64 dl)
      let c := t.command tid s.nextId false sent t.vcore eng dl
      ((s.release tid).roomFor sent t.vcore eng = true → s.pt ≤ dl →
        ∃ s' t', exec i s = .next s' ∧ s'.thr tid = some t' ∧
          State.Accepts { s.release tid with nextId := s.nextId + 1 } s' c op ∧
          t'.empty = (if rd = 0 then t.empty else t.empty.set rd.toNat (some s.nextId)) ∧ t'.x = t.x ∧ t'.v = t.v ∧ t'.m = t.m ∧
          t'.block = t.block.tail) ∧
      ((s.release tid).roomFor sent t.vcore eng = false →
        (s.pt < dl → ∃ s' t' w, exec i s = .next s' ∧ s'.thr tid = some t' ∧ t'.run = .wait ∧ t'.wait = some w ∧
          w.deadline = dl ∧ t'.block = t.block ∧ s'.cmds = (s.release tid).cmds) ∧
        (dl ≤ s.pt → ∃ s' t', exec i s = .next s' ∧ s'.thr tid = some t' ∧ (rd ≠ 0 → t'.xr rd = status 4 0 0) ∧
          t'.block = t.block.tail ∧ s'.cmds = (s.release tid).cmds)))) ∧
  (∀ (s : State) (tid : Nat) (t : Thread) (e : Entry) (rd a v c : Reg) (mark : Bool) (pa : Nat),
    let i := Instr.qpush rd a v c mark
    Walking s tid t i e → (e.op 0).toNat % 64 = 0 →
    s.locate t.accessor (stationOf t.vcore) (e.op 0).toNat 64 .write 1 = .ok pa →
    (windowOf pa = none → exec i s = .next (s.ends tid t e .light rd (e.op 1) ⟨s.pt, 11, 9, 0, 0⟩)) ∧
    (∀ (eng : Eng) (ev : Nat), windowOf pa = some (eng, ev) → e.Plain → s.canRelease tid t = true → t.empty.length = 32 →
      t.x.length = 32 → s.nextId < 2 ^ 64 →
      let b := vecWords (e.vop 0) ++ vecWords (e.vop 1)
      let h := stampHeader (b.getD 0 0) t
      let dl := (State.deadline { s with pt := e.ti s.pt } (b.getD 7 0) (s.ceil t)).1
      let sent := (b.set 0 h).set 7 (w64 dl)
      let until_ := (e.begun.getD (s.deadline (e.op 1) (s.ceil t))).1
      let s0 := (s.touchTlb t (e.op 0).toNat .write).release tid
      let c := t.command tid s.nextId true sent ev eng (if eng = .stations then 2 ^ 64 else (w64 dl).toNat)
      (s0.roomFor sent ev eng = true → s.pt ≤ until_ →
        ∃ s' t', exec i s = .next s' ∧ s'.thr tid = some t' ∧ State.Accepts { s0 with nextId := s.nextId + 1 } s' c 0 ∧
          (rd ≠ 0 → t'.xr rd = status 0 0 0) ∧ (∀ r, r ≠ rd → t'.xr r = t.xr r) ∧ t'.v = t.v ∧
          (∀ r, c.reg = some r → t'.empty.getD r.toNat none = some s.nextId) ∧ t'.block = t.block.tail) ∧
      (s0.roomFor sent ev eng = false → until_ ≤ s.pt →
        ∃ s' t', exec i s = .next s' ∧ s'.thr tid = some t' ∧ s'.cmds = s0.cmds ∧ (rd ≠ 0 → t'.xr rd = status 4 0 0)))) ∧
  (∀ (s : State) (tid : Nat) (t : Thread) (e : Entry) (rd a c : Reg) (mark : Bool) (n : Nat),
    s.ownTile t (e.op 0).toNat = .ok n →
    (Walking s tid t (.tgive a mark) e → s.canRelease tid t = true →
      ∃ s', exec (.tgive a mark) s = .next (s'.finish tid e []) ∧ s'.threads = (s.release tid).threads ∧
        (∀ k, k ∈ s'.owned ↔ k = n ∨ k ∈ s.owned) ∧ SameMemory (s.release tid) s') ∧
    (Walking s tid t (.ttake rd a c mark) e →
      let w := s.newWait t (.ttake n) rd (e.op 1)
      (n ∉ s.owned → exec (.ttake rd a c mark) s = .next (s.endWait tid e w ⟨s.pt, 0, 0, 0, 0⟩)) ∧
      (n ∈ s.owned → (∀ k ∈ s.cmds, n ∉ k.spads) →
        exec (.ttake rd a c mark) s =
          .next (({ s with owned := s.owned.filter fun k => k != n } : State).endWait tid e w ⟨s.pt, 0, 0, 0, 0⟩)) ∧
      (n ∈ s.owned → (∃ k ∈ s.cmds, n ∈ k.spads) →
        (w.deadline ≤ s.pt → exec (.ttake rd a c mark) s = .next (s.endWait tid e w (s.timeout t w 0))) ∧
        (s.pt < w.deadline → exec (.ttake rd a c mark) s = .next (s.parkWait tid w)))))

/-- SPAWN with room in its die's pool puts a Waiting entry at the pool's end and ends OK with the number waiting; with none it is
FULL at once or parks; a bad entry address, a reserved bit, or a class it may not name is REFUSED (R285). EXIT ends its thread,
which leaves every group, and its slot is Empty (R257, R289), once its streams' appends are accepted (log 18, DEDUCED). TMARK leaves a trace record
where the trace is on and changes nothing else (R360). CSWAP of a full slot whose bank is not being moulted puts its thread into
the bank as Unsaved, and the context that was in the bank into the slot; while the moult engine is at work
there it changes nothing (R301), nor in a light slot, of which R301 does not speak (log 22, DEDUCED). It states completion of SPAWN, EXIT, TMARK and CSWAP. -/
def Obligations.ThreadsComeAndGo : Prop :=
  ∀ (s : State) (tid : Nat) (t : Thread) (e : Entry) (rd a b c : Reg) (mark : Bool),
    (Walking s tid t (.spawn rd a b c mark) e →
      let f := e.op 0
      let die := dieOf t.vcore
      let w := s.newWait t (.spawn f (e.op 1)) rd (e.op 2)
      let i := Instr.spawn rd a b c mark
      let good := f.toNat < 2 ^ 35 ∧ fieldOf f 0 32 % 4 = 0 ∧ s.entryInShare t (fieldOf f 0 32) = true
      let may := t.cls ≤ fieldOf f 33 2 ∧ s.permits t.ctx (fieldOf f 33 2) = true
      (¬good → exec i s = .next (s.ends tid t e .light rd (e.op 2) ⟨s.pt, 11, 1, 0, 0⟩)) ∧
      (good → ¬may → exec i s = .next (s.ends tid t e .light rd (e.op 2) ⟨s.pt, 11, 2, 0, 0⟩)) ∧
      (good → may → (s.pool die).length < 4096 →
        exec i s = .next ((s.setPool die (s.pool die ++
          [⟨fieldOf f 0 32, e.op 1, f.getLsbD 32, fieldOf f 33 2, t.kernel, t.vcore, t.ctx⟩])).endWait tid e w
            ⟨s.pt, 0, 0, (s.pool die).length + 1, 0⟩)) ∧
      (good → may → 4096 ≤ (s.pool die).length →
        (w.deadline ≤ s.pt → exec i s = .next (s.endWait tid e w ⟨s.pt, 4, 1, 0, 0⟩)) ∧
        (s.pt < w.deadline → exec i s = .next (s.parkWait tid w)))) ∧
    (Walking s tid t (.exit a mark) e → t.buffered = true → exec (.exit a mark) s = .next s) ∧
    (Walking s tid t (.exit a mark) e → t.buffered = false →
      ∃ s', exec (.exit a mark) s = .next s' ∧ s'.thr tid = none ∧
        (∀ key, (s'.group key).active = true → (s'.group key).member tid = none) ∧
        (fieldOf s.dbg.dtrace 52 1 = 0 → SameMemory s s')) ∧
    (Walking s tid t (.tmark a mark) e →
      (fieldOf s.dbg.dtrace 52 1 = 0 → exec (.tmark a mark) s = .next (s.finish tid e [])) ∧
      exec (.tmark a mark) s = .next ((s.traceRecord 1 t.vcore t.slot t.ctx (fieldOf (e.op 0) 0 32)).finish tid e [])) ∧
    (Walking s tid t (.cswap mark) e →
      (4 ≤ t.slot ∨ (∃ n p, s.bank t.vcore t.slot = .spilling n p) ∨ ∃ n p, s.bank t.vcore t.slot = .filling n p) →
      exec (.cswap mark) s = .next (s.finish tid e [])) ∧
    (Walking s tid t (.cswap mark) e → e.Plain → t.slot < 4 → t.buffered = false → t.wait = none → t.susp = [] →
      (s.vc t.vcore).banks.length = 4 →
      (s.bank t.vcore t.slot = .empty ∨ s.bank t.vcore t.slot = .unsaved ∨ s.bank t.vcore t.slot = .saved) →
      ∃ s' t', exec (.cswap mark) s = .next s' ∧ s'.thr tid = some t' ∧ t'.place = .bank t.vcore t.slot ∧
        s'.bank t.vcore t.slot = .unsaved ∧ t'.x = t.x ∧ t'.v = t.v ∧ t'.m = t.m ∧ t'.pc = t.pc ∧ t'.level = t.level ∧
        t'.bank0 = t.bank0 ∧ t'.bank1 = t.bank1 ∧ t'.vflags = t.vflags ∧ SameMemory s s' ∧
        ∀ tid2 t2, s.inBank t.vcore t.slot = some (tid2, t2) → s.thr tid2 = some t2 → tid2 ≠ tid →
          ∃ t3, s'.thr tid2 = some t3 ∧ t3.place = .slot t.vcore t.slot ∧ t3.x = t2.x ∧ t3.v = t2.v ∧ t3.m = t2.m ∧
            t3.pc = t2.pc ∧ t3.level = t2.level)

/-! ## Events: results, stores and cores -/

/-- The answer to a sent scalar load, back within LTB and in order, fills its entry with its value, extended as its mnemonic says
(R66, R70, R91, R119). A presented store that its target accepts commits: to memory that is not its core's nor its die's it is pinned
in the store buffer, in order, and no byte changes; to its die's memory or another core's it is performed at once, and exactly its
bytes change (R68, R120, R121, R132). The oldest store of a thread is performed at its home: exactly its bytes change (R119,
R120). A load outstanding for LTB, or a store whose acceptance is, faults as a bus error with detail 2 or 3, even where its answer
comes then (R70). -/
def Obligations.AccessesReturn : Prop :=
  ∀ (s : State) (v sl tid : Nat) (t : Thread), s.inSlot v sl = some (tid, t) → s.thr tid = some t →
    (∀ (idx va size loc : Nat) (e : Entry) (rd : Reg) (signed : Bool),
      t.block[idx]? = some e → e.st = .sent → (∃ pin, e.loads = [⟨1, va, size, none, pin⟩]) → e.post = .x rd size signed →
      s.sentLocs t e = [(va, loc, size)] → isReg loc = false → s.isMoving loc = false → s.bad loc size = false →
      s.detGate t.ctx t.detKey = true → s.loadAhead t (t.block.take idx) e = false → s.unsent tid loc = false →
      s.pick = 0 → s.Settled tid →
      (∀ x ∈ t.block.take idx, x.stores = []) → s.pt < e.sentAt + 200000 →
      let n := s.read loc size
      ∃ s' t' e', exec (.longResultReturn v sl idx false) s = .next s' ∧ s'.thr tid = some t' ∧ t'.block[idx]? = some e' ∧
        e'.st = .done ∧ e'.xw = [⟨rd, if signed then sextLow (8 * size) (w64 n) else w64 n, false⟩] ∧ t'.x = t.x ∧
        t'.run = t.run ∧ SameMemory s s') ∧
    (∀ (e : Entry) (x : StoreElem) (loc : Nat) (p : Presented) (rest : List Entry),
      t.run = .block → t.walking = true → t.block = e :: rest → e.phase = .presented p → e.Plain → e.stores = [x] →
      releasesFirst e.ins = false →
      (p.pins.getD 0 none = some loc ∨ p.pins.getD 0 none = none ∧ s.placeStore t x = .ok loc) → isReg loc = false → s.isMoving loc = false →
      s.locked loc x.size = false → s.egressOk t.ctx (egressBytes [(x, loc)]) = true → s.detGate t.ctx t.detKey = true →
      s.pt < p.since + 200000 →
      let own := isTcm loc || isIst loc || isSpad loc || homeDie loc == some (dieOf t.vcore)
      (own = false → ∃ s' t', exec (.storeAcceptance v sl) s = .next s' ∧ s'.thr tid = some t' ∧
        s'.storeBuf = s.storeBuf ++
          [⟨s.nextId, tid, t.kernel, t.ctx, t.vcore, loc, x.va, x.size, x.val, x.op, e.pc, s.pt, t.logical, .buffered,
            p.mark, t.fences⟩] ∧
        t'.block = rest ∧ t'.x = t.x ∧ SameMemory s s') ∧
      (own = true → x.op = .write → x.val < 2 ^ (8 * x.size) → s.Settled tid → MemoryCanonical s →
        ∃ s' t', exec (.storeAcceptance v sl) s = .next s' ∧ s'.thr tid = some t' ∧ s'.storeBuf = s.storeBuf ∧
          s'.read loc x.size = x.val ∧ (∀ a, a < loc ∨ loc + x.size ≤ a → s'.byteAt a = s.byteAt a) ∧
          t'.block = rest ∧ t'.x = t.x)) ∧
    (∀ (k : Nat) (e : Entry), (t.block.findIdx? fun e => e.st == .sent && decide (e.sentAt + 200000 ≤ s.pt)) = some k →
      t.block[k]? = some e → s.detGate t.ctx t.detKey = true →
      let failed := s.setThr tid { t with
        block := t.block.set k { e with st := .faulted ⟨19, 2, w64 ((e.loads.head?.map fun l => l.va).getD 0)⟩
                                        deferred := false, stores := [], loads := [] } }
      exec (.ltbExpiry v sl) s = .next failed ∧
      (s.loadAhead t (t.block.take k) e = false → ∀ stale, exec (.longResultReturn v sl k stale) s = .next failed)) ∧
    (∀ (e : Entry) (rest : List Entry) (p : Presented) (x : StoreElem) (r : List StoreElem), (∀ e ∈ t.block, e.st ≠ .sent) →
      t.run = .block → t.walking = true → t.block = e :: rest → e.phase = .presented p → p.since + 200000 ≤ s.pt →
      p.checked = false → p.bound ≤ s.pt → s.locks = [] → e.stores = x :: r →
      exec (.ltbExpiry v sl) s = .next (s.takeTrap tid ⟨19, 3, w64 x.va⟩ e.pc false) ∧
      exec (.storeAcceptance v sl) s = .next (s.takeTrap tid ⟨19, 3, w64 x.va⟩ e.pc false)) ∧
    (∀ (p : PStore) (rest : List PStore), s.storeBuf = p :: rest → p.op = .write → p.val < 2 ^ (8 * p.size) →
      (∀ q ∈ rest, q.id ≠ p.id) → s.isMoving p.loc = false → isReg p.loc = false → s.locked p.loc p.size = false →
      (isRemote p.loc = true → p.st = .delivered) → (rides p.v p.loc = true → p.st = .out) → s.riding (.store p.id) = false →
      s.detGate p.ctx (s.storeKey p) = true → s.pick = 0 → MemoryCanonical s →
      ∃ s', exec (.storePerform p.id) s = .next s' ∧ s'.read p.loc p.size = p.val ∧ s'.storeBuf = rest ∧
        ∀ a, a < p.loc ∨ p.loc + p.size ≤ a → s'.byteAt a = s.byteAt a)

/-- Events of a core and of the thread in a slot: a write of evcfg commits (R194); a timeout window ends (R110); hang reports of
a park, once each (R111); gating once every slot has been idle for 64 ac, and waking where there is a reason to (R113); illegal words,
fetch faults and breakpoints stand in place of the next instruction, which is not issued (R33, R84, R362), and the fault, found
at issue, closes the block (log 13, DEDUCED); a follow thread at an
access homed in another cluster moves there, at once where its block is empty and else once its block has retired (R73). -/
def Obligations.CoreEvents : Prop :=
  ∀ (s : State) (v sl tid : Nat) (t : Thread), s.inSlot v sl = some (tid, t) → s.thr tid = some t →
    let stands := fun (i : Instr) (x : Trap) => s.stopped tid t (s.entry t i) x
    (∀ (e : Entry) (rest : List Entry) (op : CsrOp), t.run = .block → t.walking = true → t.block = e :: rest → e.st = .done →
      e.deferred = false → e.csr = some (0x007, op) → t.place = .slot v sl → (s.inbox v).owner = none →
      let w := op.apply (s.inbox v).evcfg
      fieldOf (s.inbox v).evcfg 48 1 = 0 → fieldOf w 48 1 = 1 →
      ∃ s', exec (.evcfgWrite v sl) s = .next s' ∧ (s'.inbox v).owner = some t.ctx ∧ (s'.inbox v).ownerK = t.kernel ∧
        fieldOf (s'.inbox v).evcfg 48 1 = 1 ∧ fieldOf (s'.inbox v).evcfg 0 10 = min (fieldOf w 0 10) 512 ∧
        (∀ c, c < 4 → fieldOf (s'.inbox v).evcfg (16 + 8 * c) 8 = fieldOf w (16 + 8 * c) 8)) ∧
    (t.winIdx ≠ s.pt / 1000000 → exec (.timeoutWindowBoundary tid) s =
      .next (s.setThr tid { t with winCount := 0, winIdx := s.pt / 1000000 })) ∧
    (t.reportedA = false → t.hangs s.pt (s.vc v).hangA = true → exec (.hangReportA v sl) s =
      .next { s.setThr tid { t with reportedA := true } with reportsDue := s.reportsDue ++
        [⟨1, t.waitClass, v, sl, t.ctx, t.showPc, w64 (s.pt - t.parkedAt), s.pt⟩] }) ∧
    (t.reportedB = false → t.hangs s.pt (s.vc v).hangB = true → exec (.hangReportB v sl) s =
      .next { s.setThr tid { t with reportedB := true } with log := s.log ++
        [.hangB v sl t.showPc t.waitClass (s.pt - t.parkedAt)] }) ∧
    (s.coreIdle v = true → (s.vc v).idleSince = none →
      exec (.clockGate v) s = .next (s.updVc v fun c => { c with idleSince := some s.ac })) ∧
    (∀ a, s.coreIdle v = true → (s.vc v).idleSince = some a → (s.vc v).clockGated = false →
      (a + 64 ≤ s.ac → exec (.clockGate v) s = .next (s.updVc v fun c => { c with clockGated := true })) ∧
      (s.ac < a + 64 → exec (.clockGate v) s = .next s)) ∧
    (s.wakeDue v = true → exec (.coreWake v) s = .next (s.updVc v fun c =>
      { c with clockGated := false, powerGated := setErase c.powerGated 0, idleSince := none })) ∧
    (s.wakeDue v = false → exec (.coreWake v) s = .next s) ∧
    (t.run = .ready → t.shed = false →
      (∀ w, s.cur = (v, sl) → exec (.illegalInstruction w) s =
        .next (stands (.illegalInstruction w) ⟨16, 0, w.setWidth 64⟩)) ∧
      (s.cur = (v, sl) → (t.pc.toNat < 0x2000000 ∨ 0x2007FFC < t.pc.toNat) → exec .instructionFetchFault s =
        .next (stands .instructionFetchFault ⟨18, 1, t.pc⟩)) ∧
      (s.breaks t = true → exec (.breakpointTrap v sl) s = .next (stands (.breakpointTrap v sl) ⟨5, 1, 0⟩)) ∧
      (∀ c, t.block = [] → t.followTo = some c →
        (∀ v' sl', s.followSlot t c = some (v', sl') →
          ∃ s' t', exec (.followMove v sl) s = .next s' ∧ s'.thr tid = some t' ∧ t'.place = .slot v' sl' ∧ t'.x = t.x ∧
            t'.pc = t.pc ∧ t'.run = .ready ∧ t'.moveSpur = true ∧ SameMemory s s') ∧
        (s.followSlot t c = none → exec (.followMove v sl) s = .next (s.setThr tid { t with followTo := none }))) ∧
      (∀ i rd a imm mark size sgn c v' sl', ScalarLoad i rd a imm mark size sgn → s.cur = (v, sl) →
        t.issueTrap i (scalarForm [a] [rd] mark) = none → t.emptyRead [a] = none → t.followTo = none →
        s.followDest t i = some (c, v', sl') →
        (t.block = [] → ∃ s' t', exec i s = .next s' ∧ s'.thr tid = some t' ∧ t'.place = .slot v' sl' ∧ t'.x = t.x ∧
          t'.pc = t.pc ∧ t'.block = [] ∧ t'.run = .ready ∧ SameMemory s s') ∧
        (t.block ≠ [] → ∃ s' t', exec i s = .next s' ∧ s'.thr tid = some t' ∧ t'.run = .block ∧ t'.block = t.block ∧
          t'.pc = t.pc ∧ t'.followTo = some c ∧ t'.place = t.place ∧ SameMemory s s')))

/-- A reply fills the register that awaits it and is discarded and counted where none does (R71, R78); a TIMEOUT that passes the
limit traps its thread at the boundary it is parked at (R110); the posted fault of an
operation ends its kernel with the fault's cause (R132, R144, R149, R287); a re-read of a counter in host memory that has reached
its target meets the wait (R146), whenever it comes, since the wait's end by E rests on reads that fail (log 15, DEDUCED). A decided wait returns its verdict and its thread goes on retiring (R105, R107); the write that
brings a counter to its target by E decides a CWAIT, with the counter's value and OK (R145); a wait whose E has passed with its
condition unmet ends TIMEOUT, a poll and a ceiling noted in its detail, CWAIT with the counter's value beside it (R105 to R107,
R145). -/
def Obligations.RepliesAndWaits : Prop :=
  (∀ (s : State),
    (∀ (r : Reply) (t : Thread), (s.replies.find? fun x => x.id == r.id) = some r → s.thr r.tid = some t →
      t.placing r.id = false → t.placed = true →
      let n := (if t.winIdx = s.pt / 1000000 then t.winCount else 0) + 1
      (t.empty.getD r.reg.toNat none = some r.id → r.reg ≠ 0 → r.reg.toNat < t.x.length → t.escDue = none →
        (fieldOf r.status 0 8 = 1 → n ≤ t.tmolim.toNat) →
        ∃ s' t', exec (.replyArrival r.id) s = .next s' ∧ s'.thr r.tid = some t' ∧ t'.xr r.reg = r.status ∧
          t'.empty.getD r.reg.toNat none = none ∧ (∀ q, q ≠ r.reg → t'.xr q = t.xr q) ∧ SameMemory s s' ∧
          s'.replies = s.replies.filter fun x => x.id != r.id) ∧
      (∀ w, t.empty.getD r.reg.toNat none = some r.id → r.reg ≠ 0 → r.reg.toNat < t.x.length → t.escDue = none →
        fieldOf r.status 0 8 = 1 → t.tmolim.toNat < n → t.run = .wait → t.wait = some w → w.kind = .reply r.reg →
        t.walking = false → t.block = [] → t.issued = 0 → t.shed = false → t.light = false → t.level = 0 →
        ∃ s' t', exec (.replyArrival r.id) s = .next s' ∧ s'.thr r.tid = some t' ∧ t'.xr r.reg = r.status ∧ t'.level = 1 ∧
          t'.run = .ready ∧ t'.bank0.cause = 2 ∧ t'.bank0.val = w64 n ∧ t'.bank0.epc = (t.pc >>> 2) <<< 2 ∧ t'.winCount = 0) ∧
      (t.empty.getD r.reg.toNat none ≠ some r.id → t.rdrop.toNat < (if t.light then 0xFFFF else 0xFFFFFFFF) →
        ∃ s' t', exec (.replyArrival r.id) s = .next s' ∧ s'.thr r.tid = some t' ∧ t'.rdrop = t.rdrop + 1 ∧ t'.x = t.x ∧
          t'.empty = t.empty ∧ t'.run = t.run ∧ SameMemory s s' ∧ s'.replies = s.replies.filter fun x => x.id != r.id)) ∧
    (∀ (id k tid : Nat) (x : Trap) (pc : Word) (kn : Kernel), s.posted[id]? = some (k, tid, x, pc) → s.kern k = some kn →
      kn.status = none →
      ∃ s', exec (.postedFaultReport id) s = .next s' ∧ s'.posted = s.posted.eraseIdx id ∧
        s'.kern k = some { kn with st := .faulting, cause := x.cause, status := some (status 7 1 x.cause) } ∧
        (fieldOf (s.ctxWord kn.ctx 6) 0 48 = 0 → SameMemory s s')) ∧
    (∀ (tid : Nat) (t : Thread) (w : PWait) (loc : Nat) (va target : Word), s.thr tid = some t → t.wait = some w →
      t.susp = [] → w.verdict = none → w.kind = .counter loc va target → isHost loc = true → s.bad loc 8 = false →
      target.toNat ≤ s.read loc 8 → exec (.hostCounterPoll tid) s =
        .next (s.setThr tid { t with wait := some { w with verdict := some (s.success t 0 (w64 (s.read loc 8))) } }))) ∧
  (∀ (s : State) (tid : Nat) (t : Thread) (w : PWait) (e : Entry) (rest : List Entry),
    s.thr tid = some t → t.run = .wait → t.absent = 0 → t.walking = true → t.wait = some w → t.susp = [] → t.block = e :: rest →
    (∀ (v : Verdict), w.verdict = some v → t.migrate = none → (w.kind ≠ .monitor ∧ (∀ l, w.kind ≠ .ifence l) ∧
        ∀ p b n g o f c, w.kind ≠ .place p b n g o f c) →
      exec (.waitConditionMet tid) s = .next (s.endWait tid e w v)) ∧
    (∀ (loc : Nat) (va target : Word), w.verdict = none → w.kind = .counter loc va target → w.kind.home = some loc → e.Plain →
      w.rd ≠ 0 → w.rd.toNat + 1 < t.x.length → w.rd.toNat < 31 → s.bad loc 8 = false →
      (∀ val, s.pt ≤ w.deadline → target.toNat ≤ val → val < 2 ^ 64 → MemoryCanonical s →
        ∃ t', (s.write loc 8 val).thr tid = some t' ∧ t'.x = t.x ∧ t'.block = t.block ∧
          t'.wait = some { w with verdict := some ⟨s.pt, 0, 0, 0, w64 val⟩ }) ∧
      (w.deadline < s.pt →
        ∃ s' t', exec (.waitDeadlineExpiry tid) s = .next s' ∧ s'.thr tid = some t' ∧ t'.run = .block ∧ t'.wait = none ∧
          t'.block = rest ∧ t'.xr w.rd = w64 (s.read loc 8) ∧
          t'.xr (w.rd + 1) = status 1 ((if w.poll then 1 else 0) + (if w.ceil then 2 else 0)) 0 ∧ SameMemory s s')))

/-- A stream engine fetches the next vector of a read stream; a pop whose E has passed finds a vector of POISON and sets its bit
of sbstat; a shed thread's context leaves the engine, which takes a context that needs it while it holds fewer than two (R178 to R182). -/
def Obligations.StreamsMove : Prop :=
  ∀ (s : State) (v sl j tid : Nat) (t : Thread) (x : Stream), s.inSlot v sl = some (tid, t) → s.thr tid = some t →
    t.streams.getD j none = some x →
    (s.streamsIn t = true → t.binds j = false → x.append = false → x.fetchPos < x.total → t.lateOn j s.pt = false → s.mayFetch t j = true →
      (∀ r ∈ s.streamVec t x x.fetchPos, ∃ p, r = .ok p ∧ s.noDevice p.1 = false) →
      ∃ s' t' x' y, exec (.streamDataReady v sl j) s = .next s' ∧ s'.thr tid = some t' ∧ t'.streams.getD j none = some x' ∧
        x'.ready = x.ready ++ [y] ∧ y.pos = x.fetchPos ∧ y.fault = none ∧ y.late = false ∧
        (∀ k val loc, (s.streamVec t x x.fetchPos)[k]? = some (.ok (loc, val)) → k < x.ty.lanes → val < 2 ^ widthOf x.ty →
          laneOf y.vec (widthOf x.ty) k = val) ∧ x'.pos = x.pos ∧ t'.x = t.x ∧ t'.v = t.v ∧ SameMemory s s') ∧
    (∀ w, t.run = .wait → t.walking = false → t.wait = some w → w.kind = .stream j → w.deadline < s.pt → j < 8 →
      ∃ s' t' x' r, exec (.streamDeadline v sl) s = .next s' ∧ s'.thr tid = some t' ∧ t'.run = .ready ∧ t'.wait = none ∧
        t'.streams.getD j none = some x' ∧ x'.ready = ⟨x.cur, poisonVec x.ty, none, true⟩ :: r ∧
        t'.sbstat = t.sbstat ||| w64 (2 ^ (8 * j + 4)) ∧ t'.x = t.x ∧ SameMemory s s') ∧
    (s.shedContext v = some tid → t.place = .slot v sl → ∃ s', exec (.streamContextDrain v) s = .next s' ∧
      sl ∉ (s'.vc v).resident ∧ SameMemory s s') ∧
    (s.shedContext v = none → (s.threads.find? fun e => e.2.vcore == v && s.needsEngine e.2) = some (tid, t) → (s.vc v).resident.length < 2 →
      t.vcore = v → t.slot = sl →
      ∃ s', exec (.streamContextDrain v) s = .next s' ∧ sl ∈ (s'.vc v).resident ∧ SameMemory s s')

/-- Packets (R195 to R201): one off the ring is answered as the table of R195 says, and the answer goes back by the ring (R320): refused
where the inbox is not enabled for it; a marker kept with 64 already refused; merged into the latest packet of its flow where the
sum fits, in a full inbox too; else appended where there is room, and refused where there is none; a code of 0x80 is 0x81 with FIX
first. An acknowledged packet settles; a refused packet of an SDSTEP takes its change back, an EVSEND returns FULL
and a refused marker is sent again; the oldest settled closed step of a range sends a marker to each of its valid destinations. -/
def Obligations.PacketsTravel : Prop :=
  ∀ (s : State) (p : Packet),
    let gone := { s with packets := s.packets.filter fun q => q.id != p.id }
    ((s.packets.find? fun q => q.id == p.id) = some p →
      (s.packets.find? fun q => q.src == p.src && q.dst == p.dst && q.answer.isNone && !q.resend &&
        fieldOf q.word 52 12 == fieldOf p.word 52 12 && packetClass q.word == packetClass p.word) = some p →
      s.moving = none → s.riding (.packet p.id) = false → s.detGate p.ctx p.detKey = true →
      let ib := s.inbox p.dst
      let word := if fieldOf p.word 8 8 = 0x80 then setField (setField p.word 8 8 0x81) 7 1 1 else p.word
      let c := packetClass p.word
      let q := ib.q.getD c []
      let sum4 := fun (f : Nat → Nat) => f 0 + f 1 + f 2 + f 3
      let occ := fun (k : Nat) => ((ib.q.getD k []).filter fun w => !isMarker w).length
      let res := fun (k : Nat) => fieldOf ib.evcfg (16 + 8 * k) 8
      let cap := fieldOf ib.evcfg 0 10
      let room := sum4 occ < cap ∧ (occ c < res c ∨ sum4 (fun k => occ k - res k) < cap - sum4 res)
      let same := fun (w : Word) => isMarker w = false ∧ fieldOf w 16 48 = fieldOf word 16 48 ∧ fieldOf w 0 1 = fieldOf word 0 1
      let latest := fun (i : Nat) => i < q.length ∧ same (q.getD i 0) ∧ ∀ j, i < j → j < q.length → ¬same (q.getD j 0)
      let sum := fun (i : Nat) => packetCode (q.getD i 0) + packetCode word
      let merges := fun (i : Nat) => fieldOf (q.getD i 0) 1 3 < 7 ∧ -127 ≤ sum i ∧ sum i ≤ 127
      let said := fun (b : Bool) => State.ringPost
        { s with packets := s.packets.map fun q => if q.id = p.id then { q with answer := some b } else q }
        p.id p.dst p.src (packetClass p.word) true
      let takes := fun (q' : List Word) =>
        (((said true).updInbox p.dst fun _ => { ib with q := ib.q.set c q' }).settleMarkers p.dst).giveReceiver p.dst
      (fieldOf ib.evcfg 48 1 = 1 → ib.owner = some p.ctx →
        (isMarker p.word = true → (sum4 fun k => ((ib.q.getD k []).filter isMarker).length) < 64 →
          exec (.eventPacketArrival p.id) s = .next (takes (q ++ [word]))) ∧
        (isMarker p.word = true → 64 ≤ (sum4 fun k => ((ib.q.getD k []).filter isMarker).length) →
          exec (.eventPacketArrival p.id) s = .next (said false)) ∧
        (∀ i, isMarker p.word = false → latest i → merges i → exec (.eventPacketArrival p.id) s = .next (takes
          (q.set i (setField (setField (q.getD i 0) 8 8 (truncInt (sum i) 8)) 1 3 (fieldOf (q.getD i 0) 1 3 + 1))))) ∧
        (isMarker p.word = false → (∀ i, latest i → ¬merges i) →
          (room → exec (.eventPacketArrival p.id) s = .next (takes (q ++ [word]))) ∧
          (¬room → exec (.eventPacketArrival p.id) s = .next (said false)))) ∧
      (fieldOf ib.evcfg 48 1 = 0 ∨ ib.owner ≠ some p.ctx →
        exec (.eventPacketArrival p.id) s = .next (said false)) ∧
      (fieldOf ib.evcfg 48 1 = 1 → ib.owner = some p.ctx → isMarker p.word = false → fieldOf p.word 8 8 ≠ 0x80 →
        (∀ c, ib.q.getD c [] = []) → ib.q.length = 4 → 0 < fieldOf ib.evcfg 0 10 →
        fieldOf ib.evcfg 16 8 + fieldOf ib.evcfg 24 8 + fieldOf ib.evcfg 32 8 + fieldOf ib.evcfg 40 8 < fieldOf ib.evcfg 0 10 →
        (∀ x ∈ s.threads, x.2.ctx = p.ctx → ∀ w ∈ x.2.allWaits, ∀ u m, w.kind ≠ .recv u m) →
        exec (.eventPacketArrival p.id) s =
          .next ((said true).updInbox p.dst fun _ => { ib with q := ib.q.set (packetClass p.word) [p.word] }))) ∧
    ((s.packets.find? fun q => q.id == p.id && q.answer == some true) = some p → s.riding (.packet p.id) = false →
      (∀ a b c d f, p.from_ = .sdstep a b c d f → exec (.packetAck p.id) s = .next gone) ∧
      (∀ tid t e rest rd a b mark, p.from_ = .evsend tid → s.thr tid = some t → t.block = e :: rest → t.walking = true →
        e.phase = .accepted → e.ins = .evsend rd a b mark →
        exec (.packetAck p.id) s = .next (gone.finishX tid e rd (status 0 0 0)))) ∧
    ((s.packets.find? fun q => q.id == p.id && q.answer == some false) = some p → s.riding (.packet p.id) = false →
      (∀ slot dest amount range step, p.from_ = .sdstep slot dest amount range step → dest < ((s.sdu p.src).slot slot).2.length →
        ∃ s', exec (.packetNack p.id) s = .next s' ∧ s'.packets = gone.packets ∧
          (s'.sdu p.src).sent slot dest = (s.sdu p.src).sent slot dest - amount) ∧
      (∀ tid t e rest rd a b mark, p.from_ = .evsend tid → s.thr tid = some t → t.block = e :: rest → t.walking = true →
        e.phase = .accepted → e.ins = .evsend rd a b mark →
        exec (.packetNack p.id) s = .next (gone.finishX tid e rd (status 4 0 0))) ∧
      (∀ r k d, p.from_ = .marker r k d → exec (.packetNack p.id) s = .next { s with
        packets := s.packets.map fun q => if q.id = p.id then { q with answer := none, resend := true } else q })) ∧
    ((s.packets.find? fun q => q.id == p.id && q.resend) = some p → s.stalled = false → exec (.markerResend p.id) s =
      .next (State.ringPost { s with packets := gone.packets ++ [{ p with resend := false, sentAt := s.pt }] }
        p.id p.src p.dst (packetClass p.word) false)) ∧
    (∀ (v range : Nat) (k : SdStep), let u := s.sdu v
      (u.steps.find? fun k => k.range == range) = some k → k.marking = false → s.stalled = false →
      (∀ q ∈ s.packets, q.src = v → ∀ a b c n, q.from_ ≠ .sdstep a b c range n ∨ n ≠ k.num) →
      (∃ d ∈ List.range 4, ((u.range range).dests.getD d ⟨false, 0, 0, 0⟩).valid = true) →
      ∃ s', exec (.stepMarkerSend v range) s = .next s' ∧
        (s'.sdu v).steps = u.steps.map (fun x => if x = k then { x with marking := true } else x) ∧
        (∀ d x, d < 4 → (u.range range).dests.getD d ⟨false, 0, 0, 0⟩ = x → x.valid = true →
          ∃ q ∈ s'.packets, q.src = v ∧ q.dst = x.vcore ∧ isMarker q.word = true ∧ q.from_ = .marker range k.num d) ∧
        SameMemory s s')

/-- Engine commands (R213 to R218): a queued one that may start is Running, or Completing where it has no unit (R213, R214), and does
not start in a kernel that ends after a fault (R287); one whose E has passed stops with TIMEOUT; a finished one leaves with its
reply, after its completion add; an abort stops a communicator's commands with ABORTED. At their start TCFG declares its tiles or is
refused, TREL frees them and MZERO clears them, and a compute command is the one mprog describes (R229 to R231, R243). SDCFG and
SDRST change their ranges at once when those are quiet (R187, R188). One unit's result is the command's progress, a translation not
present pauses it (R216); the bytes a unit writes and what its units are: a copy's run, fill pattern, gathered element and full
ring (R222), a Ladle block (R223, R57), a collective's element (R224), a k-slice (R237, R59), a row of MLDA and MSTA (R242). Stations (R311 to
R318): a walk caches what its leaf lets through, SHOOT drops the translations of its range, WAKE lets paused commands run again, and
MOVE takes registrations along. -/
def Obligations.EnginesWork : Prop :=
  ∀ (s : State) (c : Cmd), (s.cmds.find? fun x => x.id == c.id) = some c →
    let put := fun (s : State) (c : Cmd) => s.cmds.map fun x => if x.id = c.id then c else x
    let works : Prop := s.stalled = false ∧ (∀ v ∈ c.members, s.vcoreMoving v = false) ∧ s.pt ≤ c.deadline ∧
      s.detGate c.ctx (s.cmdKey c) = true
    let zeros : List (BitVec 32) := List.replicate 256 0
    let dataOf := fun (bs : List (Byte × Bool)) => ofBytes (bs.map fun b => b.1)
    let failing := fun (bs : List (Byte × Bool)) => bs.any fun b => b.2
    (∀ n, works → c.st = .queued → s.mayStart c = true → (∃ v, c.eng = .copy v ∨ c.eng = .ladle v ∨ c.eng = .collective v) →
      ∃ s', exec (.commandStart c.id n) s = .next s' ∧
        s'.cmds = put s { c with st := if (s.wakeUnit c).cmdUnits c = 0 then .completing else .running } ∧ SameMemory s s') ∧
    (∀ n, c.st = .queued → s.faulting c = true → exec (.commandStart c.id n) s = .next s) ∧
    (∀ n v, works → c.st = .queued → s.mayStart c = true → c.eng = .matrix v →
      (c.op = 7 → (∀ k t, k ∈ c.accTiles → mapGet? s.tiles k = some t → t.ctx = c.ctx) →
        ∃ s', exec (.commandStart c.id n) s = .next s' ∧ s'.cmds = put s { c with st := .completing } ∧
          (∀ k ∈ c.accTiles, mapGet? s'.tiles k = some ⟨fieldOf (c.dw 2) 0 2, c.ctx,
            if (c.dw 2).getLsbD 15 then fieldOf (c.dw 2) 3 12 else c.v,
            if (c.dw 2).getLsbD 2 then zeros else ((mapGet? s.tiles k).map fun t => t.el).getD zeros⟩) ∧
          (∀ k, k ∉ c.accTiles → mapGet? s'.tiles k = mapGet? s.tiles k) ∧ SameMemory s s') ∧
      (c.op = 7 → (∃ k t, k ∈ c.accTiles ∧ mapGet? s.tiles k = some t ∧ t.ctx ≠ c.ctx) →
        ∃ s', exec (.commandStart c.id n) s = .next s' ∧ s'.tiles = s.tiles ∧ SameMemory s s' ∧
          s'.cmds = put s { c with st := .completing, code := some 11, detail := 3, spads := [] }) ∧
      (c.op = 8 → ∃ s', exec (.commandStart c.id n) s = .next s' ∧ s'.cmds = put s { c with st := .completing } ∧
        (∀ k, mapGet? s'.tiles k = if k ∈ c.accTiles then none else mapGet? s.tiles k) ∧ SameMemory s s') ∧
      (c.op = 4 → ∃ s', exec (.commandStart c.id n) s = .next s' ∧ s'.cmds = put s { c with st := .completing } ∧
        (∀ k, mapGet? s'.tiles k = (mapGet? s.tiles k).map fun t => if k ∈ c.accTiles then { t with el := zeros } else t) ∧
        SameMemory s s') ∧
      (c.op ≠ 4 → c.op ≠ 7 → c.op ≠ 8 →
        ∃ s', exec (.commandStart c.id n) s = .next s' ∧ s'.tiles = s.tiles ∧ SameMemory s s' ∧
          s'.cmds = put s { c with st := if c.matrixUnits = 0 then .completing else .running } ∧
          (∀ t, c.computes = true → s.thr c.tid = some t → ∃ t', s'.thr c.tid = some t' ∧ t'.mprogOf = some c.id ∧
            t'.mprog = w64 (c.units % 65536 + c.op * 2 ^ 24 + fieldOf (c.dw 4) 56 6 * 2 ^ 32)))) ∧
    (∀ n v mask, works → c.st = .running → c.eng = .sdu v → c.op = 1 → mask = fieldOf (c.dw 1) 0 8 →
      ((∃ r < 8, bitAt mask r = true ∧ s.rangeQuiet v r = false) → exec (.commandStart c.id n) s = .next s) ∧
      ((∀ r < 8, bitAt mask r = true → s.rangeQuiet v r = true) → ((s.sdu v).owner = none ∨ (s.sdu v).owner = some c.ctx) →
        ∃ s', exec (.commandStart c.id n) s = .next s' ∧ s'.cmds = put s { c with st := .completing } ∧ SameMemory s s' ∧
          (∀ r < 8, bitAt mask r = true → ((s'.sdu v).range r).parity = 0 ∧
            ((s'.sdu v).range r).enabled = (((s.sdu v).range r).enabled && !(c.dw 1).getLsbD 8)) ∧
          (∀ r < 8, bitAt mask r = false → (s'.sdu v).range r = (s.sdu v).range r) ∧
          ∀ e ∈ (s'.sdu v).slots, (∃ r < 8, bitAt mask r = true ∧ ((s.sdu v).range r).has e.1 = true) → e.2.2 = [0, 0, 0, 0])) ∧
    (works → c.st = .running → (∀ v, c.eng ≠ .sdu v) → c.eng ≠ .stations →
      (∀ s1 c1, s.oneUnit c = .ok (s1, c1) → ∃ s' c', exec (.commandStart c.id 1) s = .next s' ∧
        s'.mem = s1.mem ∧ s'.poison = s1.poison ∧ s'.tiles = s1.tiles ∧
        c' = (if s1.cmdUnits c1 ≤ c1.units then { c1 with st := .completing } else c1) ∧
        s'.cmds = s1.cmds.map fun x => if x.id = c.id ∧ x.st = .running then c' else x) ∧
      (∀ va, s.oneUnit c = .error (.pause va) → ∃ s', exec (.commandStart c.id 1) s = .next s' ∧
        s'.cmds = put s { c with st := .paused va } ∧ SameMemory s s' ∧
        s'.reportsDue = s.reportsDue ++ [⟨3, 1, c.v, 0, c.ctx, 0, w64 va, s.pt⟩]) ∧
      (s.oneUnit c = .error .locked → exec (.commandStart c.id 1) s = .next s)) ∧
    (∀ va n ls, s.engLocs c va n .eread = .ok ls → (∀ l ∈ ls, s.isMoving l = false ∧ s.portRoom (dieOf c.v) l = true) →
      s.engRead c va n = .ok (ls.map fun l => (BitVec.ofNat 8 (s.homeRead l 1), s.engBad c l))) ∧
    (∀ va bs ls, s.engLocs c va bs.length .ewrite = .ok ls → ls.Nodup → MemoryCanonical s →
      (∀ l ∈ ls, s.isMoving l = false ∧ isRemote l = false ∧ isHost l = false ∧ isReg l = false) →
      (∀ k ∈ s.locks, k.2.1 = c.id ∨ ∀ l ∈ ls, lineOf l ≠ k.1) →
      ∃ s', s.engWrite c va bs = .ok s' ∧ (∀ x ∈ ls.zip bs, s'.byteAt x.1 = x.2.1) ∧ (∀ a, a ∉ ls → s'.byteAt a = s.byteAt a) ∧
        ∀ x ∈ ls.zip bs, x.2.2 = true → s'.bad x.1 1 = true) ∧
    (∀ v, c.eng = .copy v →
      (∀ src dst n bs s1, ((c.op = 0 ∧ src = (c.dw 1).toNat + 64 * c.units ∧ dst = (c.dw 2).toNat + 64 * c.units ∧
            n = min 64 ((c.dw 3).toNat - 64 * c.units)) ∨
          (c.op = 1 ∧ bitAt c.flags 0 = false ∧ n = fieldOf (c.dw 3) 32 32 ∧
            src = truncInt ((c.dw 1).toNat + c.units * sextNat (fieldOf (c.dw 4) 0 32) 32) 64 ∧
            dst = truncInt ((c.dw 2).toNat + c.units * sextNat (fieldOf (c.dw 4) 32 32) 32) 64) ∨
          (c.op = 2 ∧ n = 2 ^ (c.flags % 8) ∧ dst = (c.dw 3).toNat + c.units * n ∧
            ∃ ix, s.engRead c ((c.dw 2).toNat + 4 * c.units) 4 = .ok ix ∧ failing ix = false ∧
              src = ((c.dw 1).toNat + dataOf ix * n) % 2 ^ 64)) →
        s.engRead c src n = .ok bs → s.engWrite c dst bs = .ok s1 →
        ∃ s', s.oneUnit c = .ok (s', { c with units := c.units + 1, poison := c.poison || failing bs }) ∧
          s'.mem = s1.mem ∧ s'.poison = s1.poison) ∧
      (∀ s1, c.op = 3 → s.engWrite c ((c.dw 2).toNat + 64 * c.units)
          ((List.range (min 64 ((c.dw 3).toNat - 64 * c.units))).map fun i => ((bytesOf (c.dw 1).toNat 8).getD (i % 8) 0, false)) = .ok s1 →
        s.oneUnit c = .ok (s1, { c with units := c.units + 1 })) ∧
      (∀ p k ls, c.op = 1 → bitAt c.flags 0 = true → s.engRead c (c.dw 5).toNat 8 = .ok p → s.engRead c ((c.dw 5).toNat + 8) 8 = .ok k →
        failing p = false → failing k = false → s.engLocs c (c.dw 5).toNat 8 .erw = .ok ls →
        (dataOf p + 2 ^ 64 - dataOf k) % 2 ^ 64 = c.flags / 2 → s.oneUnit c = .error .locked)) ∧
    (∀ k n bs s1 s2, c.eng = .ladle k → c.op < 2 → n = min 32 (fieldOf (c.dw 4) 0 32 - 32 * c.units) →
      s.engRead c ((c.dw 1).toNat + 32 * c.units * c.fmtSize) (n * c.fmtSize) = .ok bs →
      let xs := (List.range n).map fun i => c.fmt.val (dataOf ((bs.drop (i * c.fmtSize)).take c.fmtSize))
      let q := quantise (c.op == 1) xs
      s.engWrite c ((c.dw 2).toNat + 32 * c.units) (q.2.1.map fun d => (BitVec.ofNat 8 d, failing bs)) = .ok s1 →
      s1.engWrite c ((c.dw 3).toNat + 2 * c.units) ((bytesOf q.1 2).map fun b => (b, failing bs)) = .ok s2 →
      s.oneUnit c = .ok (s2, { c with units := c.units + 1, poison := c.poison || failing bs, detail := c.detail ||| q.2.2 }) ∧
      ((∃ x ∈ xs, ∀ neg m e, x ≠ .fin neg m e) → q.1 = 0x7FC0 ∧ q.2.2 = 1) ∧
      ((∀ x ∈ xs, ∃ neg e, x = .fin neg 0 e) → q.1 = 0 ∧ q.2.2 = 0) ∧
      (c.op = 0 → 128 ∉ q.2.1)) ∧
    (∀ k n bs sc s1, c.eng = .ladle k → c.op = 2 → n = min 32 (fieldOf (c.dw 4) 0 32 - 32 * c.units) →
      s.engRead c ((c.dw 1).toNat + 32 * c.units) n = .ok bs → s.engRead c ((c.dw 3).toNat + 2 * c.units) 2 = .ok sc →
      failing bs = false → failing sc = false →
      s.engWrite c ((c.dw 2).toNat + 32 * c.units * c.fmtSize)
        (bs.flatMap fun b => (bytesOf (dequantise c.fmt (bitAt c.flags 2) (dataOf sc) b.1.toNat).1 c.fmtSize).map fun x => (x, false)) = .ok s1 →
      ∃ d, s.oneUnit c = .ok (s1, { c with units := c.units + 1, detail := d })) ∧
    (∀ io bs s1, c.eng = .collective io → c.op = 0 → s.ranks c = 1 → s.myRank c = 0 →
      s.engRead c ((c.dw 1).toNat + c.units * c.collSize) c.collSize = .ok bs → failing bs = false →
      s.engWrite c ((c.dw 2).toNat + c.units * c.collSize) bs = .ok s1 →
      s.oneUnit c = .ok (s1, { c with units := c.units + 1 })) ∧
    (∀ a b, collFold 0 0 a b = (a + b) % 2 ^ 32 ∧
      (sextNat (collFold 0 1 a b) 32 = min (sextNat a 32) (sextNat b 32)) ∧ sextNat (collFold 0 2 a b) 32 = max (sextNat a 32) (sextNat b 32) ∧
      collFold 1 0 a b = (fp32.add a b).1 ∧ collFold 2 0 a b = (bf16.add a b).1) ∧
    (∀ v, c.eng = .matrix v → c.computes = true →
      (c.skips c.units = true → s.oneUnit c = .ok (s, { c with units := c.units + 1 })) ∧
      (c.skips c.units = false → s.sliceStop c c.units = none → (c.blocks.map fun b => b.key).Nodup →
        ∃ s' c', s.oneUnit c = .ok (s', c') ∧ c'.units = c.units + 1 ∧ SameMemory s s' ∧
          ∀ b ∈ c.blocks, ∀ t, mapGet? s.tiles b.key = some t → ∃ t', mapGet? s'.tiles b.key = some t' ∧
            t'.kind = t.kind ∧ t'.ctx = t.ctx ∧ t'.lead = t.lead ∧
            ∀ i j, i < 16 → j < 16 → t'.el.getD (16 * i + j) 0 = if bitAt b.rows i && bitAt b.cols j
              then (s.laneSlice c t.kind c.units (b.row + i) (b.col + j) (t.el.getD (16 * i + j) 0)).1 else t.el.getD (16 * i + j) 0) ∧
      (∀ kind k i j old, kind ≠ 0 → c.op ≤ 1 → c.afmt = 2 → c.bfmt = 2 →
        (s.laneSlice c kind k i j old).1 = BitVec.ofInt 32 (max (-2 ^ 31) (min (2 ^ 31 - 1) (old.toInt +
          ((c.depths k).map fun d => s.intElem c (c.aAddr k i d) * s.intElem c (c.bAddr k d j)).sum)))) ∧
      (∀ k i j old, (s.laneSlice c 0 k i j old).1 = BitVec.ofNat 32 (fp32.deliver .rne (fpSum .rne (fp32.val old.toNat ::
        (c.depths k).map fun d => (fpMul (s.fpElem c (c.aAddr k i d) c.afmt) (s.fpElem c (c.bAddr k d j) c.bfmt)).1)).1).1)) ∧
    (∀ v i t, c.eng = .matrix v → c.computes = false → c.nextRow = some i → mapGet? s.tiles (c.v * 64 + c.moveAcc) = some t → t.el.length = 256 → i < 16 →
      (c.op = 5 → (∀ e ∈ c.rowElems i, ∃ bs, s.engRead c e.2 4 = .ok bs ∧ failing bs = false) →
        ∃ s' t', s.oneUnit c = .ok (s', { c with units := c.units + 1 }) ∧ mapGet? s'.tiles (c.v * 64 + c.moveAcc) = some t' ∧
          t'.kind = t.kind ∧ t'.ctx = t.ctx ∧ t'.lead = t.lead ∧
          (∀ e ∈ c.rowElems i, ∀ bs, s.engRead c e.2 4 = .ok bs → t'.el.getD (16 * i + e.1) 0 = BitVec.ofNat 32 (dataOf bs)) ∧
          (∀ n, (∀ e ∈ c.rowElems i, n ≠ 16 * i + e.1) → t'.el.getD n 0 = t.el.getD n 0) ∧ SameMemory s s') ∧
      (∀ j va bs fl bad s1, c.op = 6 → c.rowElems i = [(j, va)] → s.storeElem c t i j = .ok (bs, fl, bad) →
        s.engWrite c va (bs.map fun b => (b, bad)) = .ok s1 →
        ∃ s' c' t', s.oneUnit c = .ok (s', c') ∧ c'.units = c.units + 1 ∧ c'.poison = (c.poison || bad) ∧ s'.mem = s1.mem ∧
          mapGet? s'.tiles (c.v * 64 + c.moveAcc) = some t' ∧
          t'.el = if bitAt c.flags 3 then t.el.set (16 * i + j) 0 else t.el) ∧
      (∀ j, c.op = 6 → bitAt c.flags 4 = false → let x := t.el.getD (16 * i + j) 0
        (c.out = 0 → s.storeElem c t i j = .ok (bytesOf x.toNat 4, 0, false)) ∧
        (c.out = 4 → t.kind = 1 → ∃ fl, s.storeElem c t i j =
          .ok (bytesOf (truncInt (max (-128) (min 127 x.toInt)) 8) 1, fl, false)) ∧
        (c.out = 3 → t.kind = 1 → ∃ fl, s.storeElem c t i j =
          .ok (bytesOf (truncInt (max (-32768) (min 32767 x.toInt)) 16) 2, fl, false)))) ∧
    (∀ n v d, works → c.st = .running → c.eng = .sdu v → c.op = 0 → s.rangeQuiet v (fieldOf (c.dw 1) 0 3) = true → (s.sdu v).refuses c.ctx c.body = none →
      (s.sdu v).ranges.length = 8 → d ∈ sdcfgDests c.body → d.valid = true →
      ∃ s' r, exec (.commandStart c.id n) s = .next s' ∧ s'.cmds = put s { c with st := .completing } ∧
        (s'.sdu v).range (fieldOf (c.dw 1) 0 3) = r ∧ r.enabled = true ∧ r.base = fieldOf (c.dw 1) 4 12 ∧
        r.count = fieldOf (c.dw 1) 16 13 ∧ r.shift = fieldOf (c.dw 1) 29 3 ∧ r.channel = fieldOf (c.dw 1) 48 12 ∧
        r.cls = fieldOf (c.dw 1) 60 2 ∧ r.dests = sdcfgDests c.body ∧ r.parity = 0) ∧
    (c.deadline ≤ s.pt → c.st ≠ .completing → c.eng ≠ .stations →
      ∃ s', exec (.commandDeadline c.id) s = .next s' ∧ s'.cmds = put s { c with st := .completing, code := some 1 } ∧
        SameMemory s s') ∧
    (c.st = .completing → s.writesHeld c = false → s.detGate c.ctx (s.cmdKey c) = true → (∀ io, c.eng ≠ .collective io) → (c.code = some 11 ∨ c.inc = 0) →
      ∃ s', exec (.commandCompletion c.id) s = .next s' ∧ s'.cmds = s.cmds.filter (fun x => x.id != c.id) ∧
        (∀ r, c.reg = some r → s'.replies = s.replies ++ [⟨c.id, c.tid, r, status c.endCode c.endDetail c.aux⟩]) ∧
        (c.reg = none → s'.replies = s.replies) ∧ SameMemory s s') ∧
    (∀ loc ls, c.st = .completing → s.writesHeld c = false → s.detGate c.ctx (s.cmdKey c) = true → (∀ io, c.eng ≠ .collective io) →
      c.code ≠ some 11 → c.inc ≠ 0 → s.engLocs c c.counterVa 8 .ewrite = .ok (loc :: ls) → s.bad loc 8 = false →
      s.isMoving loc = false → isRemote loc = false → isReg loc = false → s.locked loc 8 = false → s.read loc 8 + c.inc < 2 ^ 64 → MemoryCanonical s →
      ∃ s', exec (.commandCompletion c.id) s = .next s' ∧ s'.cmds = s.cmds.filter (fun x => x.id != c.id) ∧
        s'.read loc 8 = s.read loc 8 + c.inc ∧ ∀ a, a < loc ∨ loc + 8 ≤ a → s'.byteAt a = s.byteAt a) ∧
    (∀ io, c.eng = .collective io → c.st ≠ .completing → s.locks = [] → ∃ s' c', exec (.collectiveAbort io c.comm) s = .next s' ∧ c' ∈ s'.cmds ∧
      c'.id = c.id ∧ c'.st = .completing ∧ c'.code = some 7) ∧
    (∀ st ctx va acc leaf size, s.cached st ctx va = none → s.walk ctx va (accessDetail acc) = .ok (leaf, size) →
      leafAllows leaf acc = true → (s.tlb.filter fun x => x.st == st).length < 8192 →
      exec (.pageWalk st ctx va acc) s = .next { s with tlb := s.tlb ++ [⟨st, ctx, va - va % size, size, leaf⟩] }) ∧
    (c.eng = .stations → c.st = .queued → s.turnComes c = true →
      (c.op = 0 → ∃ s', exec (.shoot c.id) s = .next s' ∧
        s'.tlb = s.tlb.filter (fun x => !(x.ctx == c.pageCtx && c.covers x.va x.size)) ∧ SameMemory s s') ∧
      (c.op = 1 → ∀ x va, x ∈ s.cmds → x.ctx = c.pageCtx → x.st = .paused va → c.covers (va / 65536 * 65536) 65536 = true →
        (∀ y ∈ s.cmds, y.id = c.id → y = c) →
        ∃ s' x', exec (.wake c.id) s = .next s' ∧ x' ∈ s'.cmds ∧ x'.id = x.id ∧ x'.st = .running ∧ SameMemory s s') ∧
      (c.op = 2 → ∀ tid t w loc va x, s.thr tid = some t → t.wait = some w → w.verdict = none → w.kind = .counter loc va x →
        (c.dw 3).toNat ≤ loc → loc < (c.dw 3).toNat + fieldOf (c.dw 2) 0 32 * 65536 →
        ∃ s' t' w', exec (.move c.id) s = .next s' ∧ s'.thr tid = some t' ∧ t'.wait = some w' ∧
          w'.kind = .counter (loc - (c.dw 3).toNat + (c.dw 4).toNat) va x ∧ SameMemory s s')) ∧
    (c.eng = .stations → c.op = 0 → c.st = .running →
      (∀ p ∈ s.storeBuf, p.ctx = c.pageCtx → c.covers p.va p.size = true → c.deadline ≤ p.pinned) →
      (∀ e ∈ s.threads, ∀ h r p, e.2.block = h :: r → h.phase = .presented p → c.deadline ≤ p.mark) →
      ∃ s', exec (.shoot c.id) s = .next s' ∧ s'.cmds = s.cmds.map fun x => if x.id = c.id then { x with st := .completing } else x)

/-- Queues (R273 to R279): registering makes one Idle with no packet taken; a kick of an Idle queue with a packet published has it
Reading; a matching packet that passes its checks is in Holding, TAKEN advanced and its hold running, one that does not match is
read again; STALEDL makes it Stale; a counter at its target, or none, meets the precondition once the hold's translations are made,
one below it is waited for; at the hold deadline the entry ends TIMEOUT with what it still waited for; RESUME goes on, with Reading
where a further packet is known to be published, else Idle. Model's choices here, DEDUCED: that RESUME starts the times of a stale
packet anew, which descriptors are registered and the MSI-X vector of a queue (log 20), that kicks count from stage 3 on and the
first registration makes the stage 4 (log 23), and the last read of a counter that no home watches (log 15). -/
def Obligations.QueuesServe : Prop :=
  ∀ (s : State) (io qn : Nat),
    (∀ desc, let d := queueDesc desc
      io < 4 → qn < 64 → 3 ≤ s.boot.stage → s.boot.stage ≠ 15 → d.getD 0 0 ≠ 0 → fieldOf (d.getD 4 0) 0 4 ≤ 12 → s.resident (fieldOf (d.getD 4 0) 4 6) = true →
      ∃ s' x, exec (.queueRegister io qn desc) s = .next s' ∧ s'.queue io qn = some x ∧ x.desc = d ∧ x.st = .idle ∧ x.taken = 0 ∧
        mapGet? s'.qtab (queueKey io qn) = some d) ∧
    (∀ x, s.queue io qn = some x →
      (∀ n, s.published io x = some n → x.st = .idle → x.taken < n → 3 ≤ s.boot.stage → s.boot.stage ≠ 15 →
        ∃ s' x', exec (.queueKick io qn) s = .next s' ∧ s'.queue io qn = some x' ∧ x'.st = .reading ∧ x'.taken = x.taken ∧
          x'.desc = x.desc ∧ SameMemory s s') ∧
      (∀ d, x.st = .stale d → exec (.queueResume io qn) s =
        .next (s.setQueue io qn { x with st := .reading, pubs := [(x.taken + 1, s.pt)], lastRead := none, translated := false, packet := [], haltDue := false })) ∧
      (x.st = .halted → exec (.queueResume io qn) s =
        .next (s.setQueue io qn { x with st := if x.pubs.any (fun p => decide (x.taken < p.1)) then .reading else .idle
                                         lastRead := none, translated := false, packet := [], haltDue := false })) ∧
      (∀ p, x.st = .reading → x.packet = [] → x.lastRead = none → (∀ n, s.published io x = some n → n - x.taken ≤ x.size) →
        s.slotRead io x = .ok (some p) →
        (packetMatches p x.taken = true → (s.qpTouch io x.ctx x.slotVa .read).yields io qn (pkClass p) = false →
          s.packetCheck x p = none →
          ∃ s' x', exec (.packetReread io qn) s = .next s' ∧ s'.queue io qn = some x' ∧ x'.st = .holding ∧
            x'.taken = x.taken + 1 ∧ x'.packet = p ∧ x'.preMet = false ∧
            x'.hold = s.pt + (if fieldOf (x.desc.getD 5 0) 32 32 = 0 then s.ctxCeil x.ctx
              else fieldOf (x.desc.getD 5 0) 32 32 * 1000)) ∧
        (packetMatches p x.taken = false → ∃ s' x', exec (.packetReread io qn) s = .next s' ∧ s'.queue io qn = some x' ∧
          x'.st = .reading ∧ x'.lastRead = some s.pt ∧ x'.taken = x.taken ∧ SameMemory s s')) ∧
      (∀ r, x.st = .reading → x.packet = [] → x.lastRead = some r → x.t0.getD s.pt + x.staleNs < s.pt →
        ∃ s' x', exec (.queueStale io qn) s = .next s' ∧ s'.queue io qn = some x' ∧
          x'.st = .stale (if x.translated then 1 else 3) ∧ x'.taken = x.taken ∧
          s'.irqs = (if (fieldOf (x.desc.getD 4 0) 13 1 = 1) then s.irqs ++ [Config.msixVector (queueKey io qn) % 64] else s.irqs)) ∧
      (x.st = .holding → s.placedFor x = false → x.preMet = false → x.told = none → s.pt ≤ x.hold →
        (x.translated = true ∨ s.holdCheck io x = .ok) →
        (pkPre x.packet = 0 →
          exec (.preconditionMet io qn) s = .next (s.setQueue io qn { x with translated := true, preMet := true })) ∧
        (∀ loc, pkPre x.packet ≠ 0 → s.qpReadLoc io x.ctx (pkPre x.packet) 8 .read = .ok loc → s.qpBad loc 8 = false →
          exec (.preconditionMet io qn) s = .next (s.setQueue io qn (if (x.packet.getD 4 0).toNat ≤ s.homeRead loc 8
            then { x with translated := true, preMet := true }
            else { x with translated := true, preLoc := if isHost loc || isReg loc then none else some loc })))) ∧
      (∀ loc, x.st = .holding → s.placedFor x = false → x.hold < s.pt →
        (x.preMet = false → (x.translated = true ∨ s.holdCheck io x = .ok)) → pkDone x.packet = 0 → fieldOf (x.desc.getD 4 0) 12 1 = 0 →
        x.dw 3 ≠ 0 → s.qpPlace io x.ctx (x.dw 3 + x.heldNo % x.size * 8) 8 .write 1 = .ok loc → MemoryCanonical s →
        s.isMoving loc = false → isRemote loc = false → isReg loc = false → s.locked loc 8 = false →
        (∀ p ∈ s.storeBuf, p.tid ≠ s.nextId) →
        ∃ s' x', exec (.holdDeadline io qn) s = .next s' ∧ s'.queue io qn = some x' ∧
          (x.taken = x.heldNo + 1 → x.haltDue = false →
            x'.st = if x.pubs.any (fun p => decide (x.taken < p.1)) then .reading else .idle) ∧
          s'.read loc 8 = (status 1 (if x.preMet || pkPre x.packet == 0 || s.lateRead io x then 2 else 1) 0).toNat))

/-- Kernels (R280 to R289): a packet whose precondition is met and whose cores are found is placed as Loading; its image is copied to
its share; a start message begins a core's threads at 0x0200_0000 with ARGS, number and THREADS in x10 to x12, the last one makes
the kernel Running; a pool entry starts a light thread at ENTRY with its argument in x10; a faulted kernel loses its threads and
is Ending; with nothing left it is Ending, and once its stores are performed it has Ended, its entry OK where no fault came. -/
def Obligations.KernelsLive : Prop :=
  ∀ (s : State),
    (∀ io qn x g, s.queue io qn = some x → x.st = .holding → s.placedFor x = false → x.preMet = true → s.pt ≤ x.hold →
      s.classShed (pkClass x.packet) = false →
      s.threadsHeld x.ctx (pkClass x.packet) + pkThreads x.packet ≤ s.ctxCap x.ctx (pkClass x.packet) →
      s.findCores x.packet = some g →
      ∃ s' kn, exec (.kernelPlacement io qn) s = .next s' ∧ s'.kern s.nextId = some kn ∧ kn.st = .loading ∧ kn.ctx = x.ctx ∧
        kn.packet = x.packet ∧ kn.cores = g.cores ∧ kn.runs = g.runs ∧ kn.imageLoaded = false ∧ kn.status = none ∧
        SameMemory s s') ∧
    (∀ kid kn bs c, s.kern kid = some kn → kn.st = .loading → kn.imageLoaded = false → s.imageBytes kn = .ok (bs, false) →
      kn.cores = [c] → kn.runs = [] → c.tcmSize = 0 → MemoryCanonical s →
      ∃ s' kn', exec (.imageLoad kid) s = .next s' ∧ s'.kern kid = some kn' ∧ kn'.imageLoaded = true ∧ kn'.st = .loading ∧
        (∀ i, i < bs.length → s'.byteAt (istLoc c.v c.istBase + i) = bs.getD i 0) ∧
        ∀ a, a < istLoc c.v c.istBase ∨ istLoc c.v c.istBase + bs.length ≤ a → s'.byteAt a = s.byteAt a) ∧
    (∀ kid core kn c sl n, s.kern kid = some kn → kn.st = .loading → kn.imageLoaded = true →
      (kn.cores.find? fun c => c.v == core && !c.started) = some c → c.slots = [(sl, n)] →
      ∃ s' t kn', exec (.startMessage kid core) s = .next s' ∧ s'.thr s.nextId = some t ∧ t.place = .slot core sl ∧
        t.run = .ready ∧ t.light = false ∧ t.pc = 0x2000000 ∧ t.kernel = some kid ∧ t.ctx = kn.ctx ∧ t.cls = kn.cls ∧
        t.xr 10 = kn.packet.getD 6 0 ∧ t.xr 11 = w64 n ∧ t.xr 12 = w64 (pkThreads kn.packet) ∧
        (∀ r, r ≠ 10 → r ≠ 11 → r ≠ 12 → t.xr r = 0) ∧ s'.kern kid = some kn' ∧
        ((∀ x ∈ kn.cores, x.v ≠ core → x.started = true) → kn'.st = .running) ∧ SameMemory s s') ∧
    (∀ die i p v sl, s.poolNext die = some (i, p, v, sl) →
      ∃ s' t, exec (.poolDispatch die) s = .next s' ∧ s'.thr s.nextId = some t ∧ t.place = .slot v sl ∧ t.light = true ∧
        t.run = .ready ∧ t.pc = w64 p.entry ∧ t.xr 10 = p.arg ∧ (∀ r, r ≠ 10 → t.xr r = 0) ∧ t.cls = p.cls ∧ t.kernel = p.kernel ∧
        t.follow = p.follow ∧ s'.pool die = (s.pool die).eraseIdx i ∧ SameMemory s s') ∧
    (∀ kid kn, s.kern kid = some kn → kn.st = .faulting →
      ∃ s' kn', exec (.kernelEndSequence kid) s = .next s' ∧ s'.kern kid = some kn' ∧ kn'.st = .ending ∧ kn'.status = kn.status ∧
        (∀ x ∈ s'.threads, x.2.kernel ≠ some kid) ∧ (∀ x ∈ s'.pools, ∀ p ∈ x.2, p.kernel ≠ some kid)) ∧
    (∀ kid kn, s.kern kid = some kn → s.hasThreads kid = false → s.hasWork kid = false →
      ((kn.st = .running ∨ kn.st = .draining) →
        exec (.kernelEnding kid) s = .next (s.updKern kid fun kn => { kn with st := .ending })) ∧
      (kn.st = .ending → s.endWaits kid kn = false → (∀ x ∈ s.posted, x.1 ≠ kid) → kn.status = none → s.doneTrap kn = none →
        exec (.kernelEnding kid) s =
          .next ((s.endedKernel kid).finishEntry kn.io kn.q kn.inst kn.k kn.desc kn.packet 0 0 0)))

/-- Contexts, banks, requests, kills, reports and moves (R290 to R307): a Free context takes a descriptor word, and one whose KILL is
written is being killed, its queues, threads, pool entries, groups, tiles, inboxes and SDUs gone, its kernels ending and its
commands stopped, and is Free when its stores are performed; the moult engine writes an Unsaved context to its record and brings one back, its registers as the record
holds them and the rest as it was where the record was not changed meanwhile (log 8); SWAPIN, RESUME, PREEMPT and MIGRATE do what R302 and R305 say, and a request's trap is taken at the next point; a
remap with GO starts a move, and its end rebinds the two vcores. -/
def Obligations.ContextsMove : Prop :=
  ∀ (s : State),
    (∀ ctx dw val, ctx < 64 → dw < 8 → 3 ≤ s.boot.stage → s.boot.stage ≠ 15 → mapGet? s.ctxs ctx = none →
      ∃ s', exec (.contextDescriptorWrite ctx dw val) s = .next s' ∧ s'.ctxWord ctx dw = maskWord val (ctxMask dw)) ∧
    (∀ ctx x (val : Word), ctx < 64 → 3 ≤ s.boot.stage → s.boot.stage ≠ 15 → mapGet? s.ctxs ctx = some x → fieldOf (x.desc.getD 3 0) 0 1 = 1 → x.killing = false →
      val.getLsbD 1 = true →
      exec (.contextDescriptorWrite ctx 3 val) s = .next { s with ctxs := mapSet s.ctxs ctx { x with killing := true } }) ∧
    (∀ ctx x, mapGet? s.ctxs ctx = some x → x.killing = true → s.moving = none → s.queues = [] → s.threads = [] → s.cmds = [] →
      s.kernels = [] → s.storeBuf = [] →
      ∃ s', exec (.contextKill ctx) s = .next s' ∧ s'.ctxs = mapErase s.ctxs ctx ∧ (∀ e ∈ s'.tlb, e.ctx ≠ ctx) ∧
        (∀ l ∈ s'.l1, l.ctx ≠ ctx)) ∧
    (∀ ctx x, mapGet? s.ctxs ctx = some x → x.killing = true → s.moving = none →
      ∃ s', exec (.contextKill ctx) s = .next s' ∧ (∀ e ∈ s'.queues, e.2.ctx ≠ ctx) ∧ (∀ e ∈ s'.threads, e.2.ctx ≠ ctx) ∧
        (∀ e ∈ s'.pools, ∀ p ∈ e.2, p.ctx ≠ ctx) ∧ (∀ k g, mapGet? s'.groups k = some g → g.active = true → g.ctx ≠ ctx) ∧
        (∀ e ∈ s'.tiles, e.2.ctx ≠ ctx) ∧ (∀ v, (s'.inbox v).owner ≠ some ctx ∧ (s'.sdu v).owner ≠ some ctx) ∧
        (∀ e ∈ s'.kernels, e.2.ctx = ctx → e.2.st = .faulting ∨ e.2.st = .ending) ∧
        (∀ c ∈ s'.cmds, c.ctx = ctx → (c.isCollective = false ∨ s.locks = []) → c.st = .completing) ∧
        ((∃ p ∈ s.storeBuf, p.ctx = ctx) → mapGet? s'.ctxs ctx = some x)) ∧
    (∀ v sl tid t, s.inBank v sl = some (tid, t) → s.thr tid = some t → sl < (s.vc v).banks.length →
      (s.bank v sl = .unsaved → s.inCsa t.ctx (s.recordPa v sl) = true →
        ∃ s', exec (.spill v sl) s = .next s' ∧ s'.bank v sl = .spilling s.pt (s.recordPa v sl) ∧ SameMemory s s') ∧
      (∀ since pa, s.bank v sl = .spilling since pa → s.locked pa 2048 = false → MemoryCanonical s → t.x.length = 32 → t.v.length = 32 → t.m.length = 8 →
        (∀ e ∈ s.threads, ∀ w n q, e.2.place = .record w n q → q ≠ pa) →
        ∃ s' t', exec (.spillDone v sl) s = .next s' ∧ s'.bank v sl = .saved ∧ s'.thr tid = some t' ∧ t'.saved = some pa ∧
          (∀ i, i < 32 → s'.read (pa + 8 * i) 8 = (t.x.getD i 0).toNat) ∧
          (∀ a, a < pa ∨ pa + 2048 ≤ a → s'.byteAt a = s.byteAt a)) ∧
      (s.slotFree v sl = true → (s.bank v sl = .unsaved ∨ s.bank v sl = .saved) → s.vcoreMoving v = false →
        ∃ s' t', exec (.swapin v sl) s = .next s' ∧ s'.bank v sl = .empty ∧ s'.thr tid = some t' ∧ t'.place = .slot v sl ∧
          t'.x = t.x ∧ t'.v = t.v ∧ t'.m = t.m ∧ t'.pc = t.pc ∧ SameMemory s s')) ∧
    (∀ v sl tid t, (s.threads.find? fun e => match e.2.place with
        | .record _ _ p => p == s.recordPa v sl
        | .bank w n => w == v && n == sl && e.2.saved == some (s.recordPa v sl)
        | .slot _ _ => false) = some (tid, t) → sl < 4 → (s.vc v).banks.length = 4 →
      (∀ e ∈ s.vcores, ∀ b ∈ e.2.banks, ∀ since, b ≠ .filling tid since) → (s.bank v sl = .empty ∨ s.bank v sl = .saved) →
      s.inCsa t.ctx (s.recordPa v sl) = true →
      ∃ s', exec (.fill v sl) s = .next s' ∧ s'.bank v sl = .filling tid s.pt ∧ SameMemory s s') ∧
    (∀ v sl tid since t pa, s.bank v sl = .filling tid since → s.thr tid = some t → t.saved = some pa → sl < (s.vc v).banks.length →
      ∃ s' t', exec (.fillDone v sl) s = .next s' ∧ s'.bank v sl = .saved ∧ s'.thr tid = some t' ∧ t'.place = .bank v sl ∧
        (∀ i, i < 32 → t'.x.getD i 0 = w64 (s.read (pa + 8 * i) 8)) ∧ SameMemory s s' ∧
        ((∀ p ∈ t.recordParts.zipIdx, s.changedPart pa (t.image.getD p.2 []) p.1 = none) →
          t'.pc = t.pc ∧ t'.sup = t.sup ∧ t'.level = t.level ∧ t'.empty = t.empty ∧ t'.streams = t.streams ∧ t'.mon = t.mon)) ∧
    (∀ v sl tid t, s.inSlot v sl = some (tid, t) → s.thr tid = some t →
      (∀ w, t.wait = some w → t.run = .wait → w.kind = .light → t.susp = [] → exec (.resume v sl) s =
        .next (s.setThr tid { t with run := .ready, wait := none, parkedAt := s.pt })) ∧
      exec (.preempt v sl) s = .next (s.setThr tid { t with preempt := true }) ∧
      (∀ atbar, exec (.migrate v sl atbar) s =
        .next (s.setThr tid { t with migrate := some (0, if atbar then s.pt + 1000000 else s.pt, atbar) })) ∧
      (∀ d due, t.migrate = some (d, due, true) → due ≤ s.pt → exec (.migrationForceExpiry v sl) s =
        .next (s.setThr tid { t with migrate := some (0, s.pt, false) })) ∧
      (t.run = .ready → t.block = [] → t.issued = 0 → t.shed = false → t.wait = none → t.light = false → t.level = 0 →
        let trapped := fun (e : Instr) (cause detail : Nat) => ∃ s' t', exec e s = .next s' ∧ s'.thr tid = some t' ∧
          t'.level = 1 ∧ t'.sup = true ∧ t'.pc = (t.tvec >>> 2) <<< 2 ∧ t'.bank0.cause = w64 cause ∧
          t'.bank0.epc = (t.pc >>> 2) <<< 2 ∧ fieldOf t'.bank0.stat 8 8 = detail ∧ t'.x = t.x ∧ t'.v = t.v ∧ t'.m = t.m ∧
          SameMemory s s'
        (t.preempt = true → trapped (.preemptionTrap v sl) 3 0) ∧
        (∀ d due, t.migrate = some (d, due, false) → due ≤ s.pt → d < 256 → trapped (.migrationTrap v sl) 4 d))) ∧
    (∀ r rest, s.reportsDue = r :: rest → s.read 0xFF0007000000 8 - s.read 0xFF0007000008 8 < 4096 →
      s.read 0xFF0007000000 8 < 2 ^ 64 - 1 → MemoryCanonical s →
      ∃ s', exec .reportPost s = .next s' ∧ s'.reportsDue = rest ∧ s'.read 0xFF0007000000 8 = s.read 0xFF0007000000 8 + 1) ∧
    (∀ (val : Word), fieldOf val 31 1 = 1 → fieldOf val 12 1 = 0 → s.moving = none → fieldOf val 0 12 ≠ fieldOf val 16 12 →
      clusterOf (fieldOf val 0 12) = clusterOf (fieldOf val 16 12) → s.slotsEmpty (fieldOf val 0 12) = true →
      s.slotsEmpty (fieldOf val 16 12) = true →
      ∃ s', exec (.remapGo val) s = .next s' ∧ s'.moving = some ⟨fieldOf val 0 12, some (fieldOf val 16 12), s.pt⟩ ∧
        fieldOf s'.remap 32 1 = 1 ∧ fieldOf s'.remap 33 1 = 0) ∧
    (∀ m vb, s.moving = some m → m.vb = some vb → s.moveWaits m = false → s.held = [] → m.va ≠ vb →
      ∃ s', exec .remapMoveComplete s = .next s' ∧ s'.moving = none ∧ s'.position m.va = s.position vb ∧
        s'.position vb = s.position m.va ∧ fieldOf s'.remap 32 1 = 0 ∧ SameMemory s s')

/-- Links, the host and time (R322 to R334): a legal clock change stalls and then takes effect; a port with keys and a common version
comes Up and goes Down with its keys erased; the next data flit with a good tag is delivered, an acknowledgement frees what it
covers, a NAK or 1 µs of silence replays; an acknowledgement that is not authentic is answered NAK; keys are written to slots not in
use and switched; another package's and the host's accesses go where their tables allow, a failing line leaving as a poisoned
completion, and the boot status answers at its offset; a sync exchange trims the tick by at most 5 ppm, and 100 ms without a port
frees PT. Model's choices here: both key slots erased on Down, a flit of another VER answered NAK, the refused writes of receive
keys, and what answers a remote access (log 24, DEDUCED); the layout of a doorbell (log 25, PRESUMED); doorbells from stage 3 on
(log 23, DEDUCED); the trim of 1,000 times the difference (log 39, DESIGN CHOICE). -/
def Obligations.LinksCarry : Prop :=
  ∀ (s : State),
    (∀ mhz, 400 ≤ mhz → mhz ≤ 1000 → mhz % 25 = 0 → s.clockChange = none → ∃ s', exec (.ringClockChange mhz) s = .next s' ∧
      s'.stalled = true ∧ exec .clockStallComplete s' = .next { s' with mhz := mhz, clockChange := none }) ∧
    (∀ n p, n < 12 → s.ports.length = 12 → s.port n = p →
      (∀ far (offer : Offer), p.up = false → 1 ≤ s.boot.stage → s.boot.stage ≤ 4 → (∀ k ∈ p.txKeys ++ p.rxKeys, k.isSome = true) →
        offer.lo ≤ 1 → 1 ≤ offer.hi → ∃ s' p', exec (.jorraxPortUp n far offer) s = .next s' ∧ s'.port n = p' ∧ p'.up = true ∧
          p'.ver = 1 ∧ p'.peer = far.package ∧ p'.peerPort = far.port ∧ p'.txSeq = 0 ∧ p'.rxSeq = 0 ∧ p'.replay = [] ∧ p'.txKeys = p.txKeys ∧
          p'.rxKeys = p.rxKeys ∧ SameMemory s s') ∧
      (p.up = true → p.outq = [] → (∀ f ∈ p.replay, ∀ who l k, f.msg ≠ .read who l k) →
        ∃ s' p', exec (.jorraxPortDown n) s = .next s' ∧ s'.port n = p' ∧ p'.up = false ∧ p'.replay = [] ∧
        p'.txKeys = [none, none] ∧ p'.rxKeys = [none, none] ∧ (∀ e ∈ s'.routes, bitAt e.2 n = false) ∧
        s'.log = s.log ++ [.portDown n] ∧ SameMemory s s' ∧
        ∀ f id x, f ∈ p.replay → f.msg = .store id → x ∈ s'.storeBuf → x.id ≠ id) ∧
      (∀ (f : FlitText) (tag : BitVec 128) (key : Nat), p.up = true → f.type = 1 → f.seq.toNat = p.rxSeq → f.slot.toNat = p.rxSlot → f.ver.toNat = p.ver →
        p.rxKeys.getD p.rxSlot none = some key → let nonce := nonceOf p.peer p.peerPort f.seq
        Config.gcmTag key nonce (flitHeader f) f.payload = tag →
        ∃ s' p', exec (.jorraxFlitReceive n f tag) s = .next s' ∧ s'.jorraxIn = s.jorraxIn ++ [Config.gcmOpen key nonce f.payload] ∧
          s'.port n = p' ∧ p'.rxSeq = p.rxSeq + 1 ∧ p'.rxKeys = p.rxKeys ∧ (∃ a, p'.ctl = p.ctl ++ [a] ∧ a.type = 2) ∧
          SameMemory s s') ∧
      (∀ (f : FlitText) (tag : BitVec 128), p.up = true → f.type = 1 → (f.seq.toNat ≠ p.rxSeq ∨ f.ver.toNat ≠ p.ver ∨
        (∀ key, p.rxKeys.getD f.slot.toNat none = some key →
          Config.gcmTag key (nonceOf p.peer p.peerPort f.seq) (flitHeader f) f.payload ≠ tag)) →
        ∃ s' p', exec (.jorraxFlitReceive n f tag) s = .next s' ∧ s'.jorraxIn = s.jorraxIn ∧ s'.port n = p' ∧ p'.rxSeq = p.rxSeq ∧
          (∃ a, p'.ctl = p.ctl ++ [a] ∧ a.type = 3)) ∧
      (∀ (f : FlitText) (tag : BitVec 128), p.up = true → f.type = 2 →
        (∀ key, p.rxKeys.getD f.slot.toNat none = some key → f.ver.toNat = p.ver →
          Config.gcmTag key (nonceOf p.peer p.peerPort f.seq) (flitHeader f) f.payload = tag →
          exec (.jorraxFlitReceive n f tag) s = exec (.jorraxAck n f.ackSeq.toNat) s) ∧
        ((p.rxKeys.getD f.slot.toNat none = none ∨ f.ver.toNat ≠ p.ver) →
          ∃ s' p' a, exec (.jorraxFlitReceive n f tag) s = .next s' ∧ s'.port n = p' ∧ p'.replay = p.replay ∧
            p'.ctl = p.ctl ++ [a] ∧ a.type = 3)) ∧
      (∀ seq, p.up = true → p.outq = [] → (∃ f ∈ p.replay, acknowledges seq f.flit.seq.toNat = true) →
        ∃ s' p', exec (.jorraxAck n seq) s = .next s' ∧ s'.port n = p' ∧ p'.fails = 0 ∧
          p'.replay = p.replay.filter (fun f => !acknowledges seq f.flit.seq.toNat) ∧ SameMemory s s' ∧
          ∀ f id, f ∈ p.replay → acknowledges seq f.flit.seq.toNat = true → f.msg = .store id →
            ∀ x ∈ s'.storeBuf, x.id = id → x.st = .delivered) ∧
      (∀ seq, p.up = true → p.replay ≠ [] → p.fails < 16 → (∀ f ∈ p.replay, acknowledges seq f.flit.seq.toNat = false) →
        exec (.jorraxNak n seq) s = .next (s.setPort n { p with
          fails := p.fails + 1, replay := p.replay.map fun f => { f with at_ := s.pt } })) ∧
      (p.up = true → p.fails < 16 → (∃ f ∈ p.replay, f.at_ + 1000 ≤ s.pt) →
        exec (.jorraxReplayTimeout n) s = .next (s.setPort n { p with
          fails := p.fails + 1, replay := p.replay.map fun f => { f with at_ := s.pt } })) ∧
      (∀ tx slot key, slot < 2 → p.needsKey tx slot = false → exec (.keySlotWrite n tx slot key) s =
        .next (s.setPort n (if tx then { p with txKeys := p.txKeys.set slot (some key), busy := false }
          else { p with rxKeys := p.rxKeys.set slot (some key), rxRolling := p.up, busy := false }))) ∧
      (∀ tx slot key, slot < 2 → p.needsKey tx slot = true → exec (.keySlotWrite n tx slot key) s =
        .next (s.setPort n { p with busy := true })) ∧
      (p.up = true → p.rolling = false → (p.txKeys.getD (1 - p.txSlot) none).isSome = true → p.txSlot < 2 →
        (∃ f ∈ p.replay, f.flit.slot.toNat = p.txSlot) → exec (.keySwitch n) s =
          .next (s.setPort n { p with txSlot := 1 - p.txSlot, rolling := true })) ∧
      (∀ diff : Int, p.up = true → s.ptSet = true → diff.natAbs ≤ 1000 → exec (.timeSyncExchange n diff) s = .next { s with
        trim := if s.boot.timeSource = s.boot.package then 0 else max (-5000) (min 5000 (1000 * diff)), ptFree := false })) ∧
    (s.ptSet = true → s.ptFree = false → (∀ p ∈ s.ports, p.up = false) → s.lastUp + 100000000 < s.pt →
      exec .timeSyncLoss s = .next { s with ptFree := true, trim := 0, log := s.log ++ [.syncLost] }) ∧
    (MemoryCanonical s →
      (∀ src off size val loc, let e := mapGet s.imports (bitsOf off 16 14) 0
        s.serves = true → importSrc e src.toNat = true → 0 < size → off % 65536 + size ≤ 65536 →
        (importLoc e off false true = some loc → s.locked loc size = false → ∃ s', exec (.remoteAccess src off .store size val) s = .next s' ∧
          s'.read loc size = val % 2 ^ (8 * size) ∧ ∀ a, a < loc ∨ loc + size ≤ a → s'.byteAt a = s.byteAt a) ∧
        (importLoc e off true false = some loc → ∃ s', exec (.remoteAccess src off .load size val) s = .next s' ∧ s'.mem = s.mem ∧
          (s.bad loc size = false → s'.log = s.log))) ∧
      (∀ src off op size val, 0 < remoteBytes op size → off % 65536 + remoteBytes op size ≤ 65536 → s.serves = true →
        importSrc (mapGet s.imports (bitsOf off 16 14) 0) src.toNat = false →
        ∃ s', exec (.remoteAccess src off op size val) s = .next s' ∧ SameMemory s s') ∧
      (∀ src off op posted val loc, let e := mapGet s.imports (bitsOf off 16 14) 0
        s.serves = true → importSrc e src.toNat = true → importLoc e off (!posted) true = some loc → off % 65536 + 8 ≤ 65536 →
        s.locked loc 8 = false → s.bad loc 8 = false →
        (op < 9 → ∃ s', exec (.remoteAccess src off (.atomic op posted) 8 val) s = .next s' ∧
          s'.read loc 8 = (atomicResult op (w64 (s.read loc 8)) (w64 val)).toNat) ∧
        ∃ s', exec (.remoteAccess src off (.cadd posted) 8 val) s = .next s' ∧
          s'.read loc 8 = min (s.read loc 8 + val) (2 ^ 64 - 1)) ∧
      (∀ src off expect val loc, let e := mapGet s.imports (bitsOf off 16 14) 0
        s.serves = true → importSrc e src.toNat = true → importLoc e off true true = some loc → off % 65536 + 8 ≤ 65536 →
        s.locked loc 8 = false → s.bad loc 8 = false → ∃ s', exec (.remoteAccess src off (.acas expect) 8 val) s = .next s' ∧
          s'.read loc 8 = if w64 (s.read loc 8) = expect then val % 2 ^ 64 else s.read loc 8) ∧
      (∀ off val d loc, mapGet? s.doorbells (off / 8) = some d → off % 8 = 0 → off < 65536 → fieldOf (d.getD 0 0) 8 1 = 1 →
        3 ≤ s.boot.stage → s.serves = true → s.resident (fieldOf (d.getD 0 0) 0 6) = true →
        s.qpPlace 0 (fieldOf (d.getD 0 0) 0 6) (d.getD 1 0).toNat 8 .write 1 = .ok loc → isReg loc = false →
        s.locked loc 8 = false → s.bad loc 8 = false → s.isMoving loc = false → isRemote loc = false →
        (∀ x ∈ s.storeBuf, x.tid ≠ s.nextId) →
        ∃ s', exec (.counterWindowWrite off 8 val) s = .next s' ∧
          s'.read loc 8 = min (s.read loc 8 + val.toNat) (2 ^ 64 - 1)) ∧
      (∀ off n val loc, (∀ i < n, s.apertureLoc (off + i) true = some (loc + i) ∧ s.locked (loc + i) 1 = false) → s.serves = true →
        ∃ s', exec (.hostMemoryAccess true ⟨2, off⟩ n val) s = .next s' ∧ (∀ i < n, s'.byteAt (loc + i) = (bytesOf val n).getD i 0) ∧
          ∀ a, a < loc ∨ loc + n ≤ a → s'.byteAt a = s.byteAt a)) ∧
    (∀ off loc, s.apertureLoc off false = some loc → s.serves = true → s.bad loc 1 = true →
      ∃ s', exec (.hostMemoryAccess false ⟨2, off⟩ 1 0) s = .next s' ∧ s'.hostReads = s.hostReads ++ [none] ∧
        s'.log = s.log ++ [.egress (lineOf loc)] ∧ SameMemory s s') ∧
    (∃ s', exec (.hostMemoryAccess false ⟨4, 0x300000⟩ 8 0) s = .next s' ∧ s'.hostReads = s.hostReads ++ [some s.boot.bstat.toNat] ∧
      SameMemory s s')

/-- The power controller (R335 to R353): an accepted reading sets the target, 20 ms without one lowers it from there; sheds and
restores are taken at their times; a window's end takes its measures; an excess ends after 2 ms; pairs are balanced, droops
stretch a cycle, canaries move their cluster's voltage in steps of 5 mV; gating an idle unit changes no architectural state; the
temperature's thresholds act, at most one clock step each 100 µs. The target is the lesser of the two curves' values and CAP, or CAP
alone (R339), a curve's value being that of its first point, its last point or the line between two, rounded down, and CAP where its
points are out of order (R338). Model's choices here: a window's draw without ballast and what the throttle holds back of it, the
target under telemetry loss and its rounding (log 27, DEDUCED); the unit of a pair's currents and ballast and the length of a
stretched cycle (log 28, PRESUMED). -/
def Obligations.PowerIsHeld : Prop :=
  ∀ (s : State), let p := s.power
    (∀ freq vbus, p.targetOf freq vbus = if fieldOf p.pcfg 49 1 = 0 then p.cap
      else min (min (p.curve p.fPoints ((freq : Int) - p.nominal)) (p.curve p.vPoints (vbus : Int))) p.cap) ∧
    (∀ (l : List (Int × Nat)) (x : Int), (rising l = false → p.curve l x = p.cap) ∧
      (rising l = true → (∀ a r, l = a :: r → x ≤ a.1 → p.curve l x = a.2) ∧
        (∀ a, l.getLast? = some a → a.1 ≤ x → p.curve l x = a.2) ∧
        (∀ i a b, l[i]? = some a → l[i + 1]? = some b → a.1 ≤ x → x < b.1 →
          (p.curve l x : Int) = (a.2 * (b.1 - x) + b.2 * (x - a.1)) / (b.1 - a.1)))) ∧
    (∀ f, let freq := frameField f 4 4
      let vbus := frameField f 8 4
      p.accepts f = true → p.pmeas ≤ p.targetOf freq vbus → ∃ s', exec (.waisarReading f) s = .next s' ∧
      s'.power.target = p.targetOf freq vbus ∧ s'.power.lastSeq = some (frameField f 2 2) ∧ s'.power.lastReading = s.pt ∧
      s'.power.tloss = false ∧ s'.power.shed = p.shed ∧ s'.threads = s.threads ∧ SameMemory s s') ∧
    (∀ f, p.accepts f = false → exec (.waisarReading f) s = .next { s with power := { p with discarded := p.discarded + 1 } }) ∧
    (∀ f, f.etherType ≠ 0x88B5 ∨ f.payload.length ≠ 46 ∨ frameField f 0 1 ≠ p.waisarVer → p.accepts f = false) ∧
    (∀ f, f.etherType = 0x88B5 → f.payload.length = 46 → frameField f 1 1 = 2 → frameField f 4 1 ≤ 1 → 1 ≤ frameField f 5 1 →
      exec (.waisarVersionOffer f.etherType f.payload) s = .next { s with power := { p with waisarVer := 1 } }) ∧
    (p.tloss = false → p.lastReading + 20000000 ≤ s.pt → ∃ s', exec .telemetryLoss s = .next s' ∧ s'.power.tloss = true ∧
      s'.power.target = if p.target ≤ p.safe then p.target
        else (max (p.safe * 1000000) (p.target * 1000000 - p.slope * (s.pt - (p.lastReading + 20000000))) + 999999) / 1000000) ∧
    (∀ tid t d, s.thr tid = some t → t.shedReq = some d → d ≤ s.pt → t.atPoint = true → t.appends = [] →
      ∃ s' t', exec .shedForceExpiry s = .next s' ∧ s'.thr tid = some t' ∧ t'.shed = true ∧ t'.shedReq = none ∧ t'.x = t.x ∧
        t'.pc = t.pc ∧ SameMemory s s') ∧
    (∀ c t0, p.nextRestore = some c → p.restoreSince = some t0 → p.restoring = none → s.shedPending = false →
      p.roomToRestore = true → t0 + fieldOf p.prest 16 16 * 1000000 ≤ s.pt → ∃ s', exec .restoreHoldExpiry s = .next s' ∧
        s'.power.shed = p.shed - 2 ^ c ∧ s'.power.restoring = some c ∧ SameMemory s s' ∧
        ∀ tid t, s.thr tid = some t → t.cls = c → ∃ t', s'.thr tid = some t' ∧ t'.shed = false ∧ t'.x = t.x ∧ t'.pc = t.pc) ∧
    (∀ w m, p.winAt < s.pt / 100000 → p.slopeFree = true →
      (p.restoring = none → ∃ s', exec (.powerWindowEnd w m) s = .next s' ∧ s'.power.pmeas = w + p.pairBallastFor w ∧
        s'.power.ballast = 0 ∧ s'.power.winAt = s.pt / 100000 ∧ SameMemory s s') ∧
      (∀ c held, p.restoring = some c → p.tloss = false →
        held = m.getD c 0 - (p.meter.getD c 0 + (max 1 (fieldOf p.prest 32 16) + p.upFrac) / 10) → held ≠ 0 →
        ∃ s', exec (.powerWindowEnd w m) s = .next s' ∧ s'.power.pmeas = w - held + p.pairBallastFor (w - held) ∧
          s'.power.restoring = some c ∧ s'.power.restThr = min 7 (p.restThr + 1))) ∧
    (p.overcap = true → p.overSince + 2000000 ≤ s.pt → ∃ s', exec .overcapEnd s = .next s' ∧ s'.power.overcap = false ∧
      s'.power.overEnd = s.pt ∧ s'.power.ballast ≤ p.limit - (p.pmeas - p.ballast)) ∧
    (∀ mv, exec (.rackBusOutOfRange mv) s =
      .next { s with power := { p with slopeFree := decide (mv < 44000 ∨ 58000 < mv) } }) ∧
    (∀ die k ia ib, let a := die * 16 + 2 * k
      let heavy := if ia < ib then a + 1 else a
      let light := if ia < ib then a else a + 1
      (10 * (max ia ib - min ia ib) ≤ max ia ib → exec (.clusterPairCurrentSample die k ia ib) s = .next s) ∧
      (max ia ib < 10 * (max ia ib - min ia ib) → mapGet p.pairBallast heavy 0 = 0 → mapGet p.throttle light 0 = 0 →
        (∀ c, mapGet p.throttle c 0 ≤ 7) → ∃ s' n, exec (.clusterPairCurrentSample die k ia ib) s = .next s' ∧
        ((10 * (max ia ib - (min ia ib + n)) ≤ max ia ib ∧ p.pmeas + n ≤ p.limit ∧ s'.power.throttle = p.throttle ∧
            mapGet s'.power.pairBallast light 0 = mapGet p.pairBallast light 0 + n) ∨
          (n ≤ 7 ∧ mapGet p.throttle heavy 0 ≤ n ∧ s'.power.pairBallast = p.pairBallast ∧
            mapGet s'.power.throttle heavy 0 = n)))) ∧
    (∀ c, mapGet p.stretch c 0 ≠ s.ac + 1 → exec (.droopDetect c) s = .next { s with power := { p with
      stretch := mapSet p.stretch c (s.ac + 1), lag := mapSet p.lag c (mapGet p.lag c 0 + 1) } }) ∧
    (∀ c, exec (.canaryWarning c) s = .next { s with power := { p with
      canary := mapSet p.canary c (min 50 (mapGet p.canary c 0 + 5)), canaryAt := mapSet p.canaryAt c s.pt } }) ∧
    (∀ c n, mapGet p.canary c 0 = n → n ≠ 0 → mapGet p.canaryAt c 0 + 1000000 ≤ s.pt →
      (∃ s', exec (.canaryStepDown c) s = .next s' ∧ mapGet s'.power.canary c 0 = n - 5)) ∧
    (∀ v unit, unit ∈ [0, 1, 2, 3, 7] → s.unitIdle v unit = true → (unit = 0 → (s.vc v).clockGated = true) →
      Config.gateWorth v unit s.pt = true → exec (.powerGate v unit) s = .next (s.updVc v fun c => { c with powerGated := setInsert c.powerGated unit })) ∧
    (∀ v temp, p.trip = false → p.tripAt ≤ temp → ∃ s', exec (.sensorRead v temp) s = .next s' ∧ s'.power.trip = true ∧
      s'.stalled = true ∧ s'.serves = false ∧ s'.log = s.log ++ [.trip v] ∧ SameMemory s s') ∧
    (p.trip = true → ∀ v sl, s.act (.core v) = .next s ∧ s.act (.walk v sl) = .next s) ∧
    (∀ v temp, temp < p.tripAt → temp < p.migt → temp < p.thrt → ∃ s', exec (.sensorRead v temp) s = .next s' ∧
      mapGet? s'.power.temps v = some temp ∧ s'.power.trip = p.trip ∧ s'.reportsDue = s.reportsDue ∧ SameMemory s s') ∧
    (p.thermAt + 100000 ≤ s.pt → (∃ e ∈ p.temps, p.thrt ≤ e.2) → s.clockChange = none → 425 ≤ s.mhz → s.mhz ≤ 1000 →
      s.mhz % 25 = 0 → ∃ s', exec .thermalClockStep s = .next s' ∧ s'.clockChange = some (s.mhz - 25, s.pt) ∧
        s'.power.thermDrop = p.thermDrop + 1 ∧ s'.power.thermAt = s.pt)

/-- Bring-up, debug and registers (R331, R337, R354 to R358, R367 to R372): a module reset goes to stage 0 and keeps fuses; verified
firmware reaches stage 1, trained links stage 2 with PT set, a neighbour's where the package is not the time source, a verified supervisor stage 3 with its thread at 0x0200_0000 in context
0; an image that does not verify in slot 1 fails the boot; attestation signs with the next index until none is left; a soft error
marks its line; a sampling pulse is counted; a power register takes its clamped value. A supervisor image that does not verify stops
the module at STAGE 15 and nothing of it is loaded (R369). Model's choices here: the supervisor's thread in slot 0 of the image's
vcore and class 0 (log 12, DESIGN CHOICE); what a module reset keeps (log 30, DEDUCED); ERR back to 0 where slot 1 verifies after
slot 0 failed, and error 2 for a supervisor image below the minimum SVN (log 31, DEDUCED). -/
def Obligations.ModuleStarts : Prop :=
  ∀ (s : State),
    (∀ on, ∃ s', exec (.moduleReset on) s = .next s' ∧ s'.boot.stage = 0 ∧ s'.threads = [] ∧ s'.kernels = [] ∧ s'.mhz = 800 ∧
      s'.ptSet = false ∧ s'.boot.minsvn = s.boot.minsvn ∧ s'.boot.idIndex = s.boot.idIndex ∧
      (MemoryCanonical s → MemoryCanonical s' ∧ ∀ loc, isTcm loc = true ∨ isIst loc = true ∨ isSpad loc = true →
        s'.byteAt loc = 0)) ∧
    (∀ slot img, s.boot.stage = 0 → slot = s.boot.tried →
      (FirmImage.error img s.boot.rootKey s.boot.minsvn 1 = none →
        ∃ s', exec (.firmwareVerify slot img) s = .next s' ∧ s'.boot.stage = 1 ∧ s'.boot.err = 0 ∧ s'.boot.slot = slot ∧
          s'.boot.fwsvn = img.svn.toNat ∧ s'.boot.supKey = img.supKeyHash) ∧
      (∀ e, FirmImage.error img s.boot.rootKey s.boot.minsvn 1 = some e →
        ∃ s', exec (.firmwareVerify slot img) s = .next s' ∧ s'.boot.err = e ∧ s'.boot.stage = if slot = 0 then 0 else 15)) ∧
    (∀ info, let first := (info.reach.map fun p => p.toNat).foldl min info.package.toNat
      s.boot.stage = 1 → info.trained = true → info.hostLo ≤ 1 → 1 ≤ info.hostHi → info.waisarLo ≤ 1 → 1 ≤ info.waisarHi →
      ∃ s', exec (.linkBringup info) s = .next s' ∧ s'.boot.stage = 2 ∧ s'.ptSet = true ∧ s'.boot.package = info.package.toNat ∧
        s'.boot.timeSource = first ∧ (first = info.package.toNat → s'.pt = s.pt) ∧ ((∀ p ∈ s.ports, p.up = false) → s'.pt = s.pt) ∧
        ∀ n p, first ≠ info.package.toNat → p ∈ s.ports → p.up = true → info.startPt = some n → s'.pt = n.toNat) ∧
    (∀ info, s.boot.stage = 1 → info.trained = false →
      ∃ s', exec (.linkBringup info) s = .next s' ∧ s'.boot.stage = 15 ∧ s'.boot.err = 4) ∧
    (∀ img, s.boot.stage = 2 → FirmImage.error img s.boot.supKey s.boot.minsvn 6 = none →
      ∃ s' t, exec (.supervisorVerify img) s = .next s' ∧ s'.boot.stage = 3 ∧ s'.thr s.nextId = some t ∧ t.ctx = 0 ∧
        t.sup = true ∧ t.level = 0 ∧ t.pc = 0x2000000 ∧ t.place = .slot img.vcore 0 ∧ t.cls = 0) ∧
    (∀ img e, s.boot.stage = 2 → FirmImage.error img s.boot.supKey s.boot.minsvn 6 = some e →
      ∃ s', exec (.supervisorVerify img) s = .next s' ∧ s'.boot.stage = 15 ∧ s'.boot.err = e ∧ s'.threads = s.threads ∧
        s'.ctxs = s.ctxs ∧ SameMemory s s') ∧
    (∀ nonce,
      (s.boot.idIndex < 32768 → ∃ s' l, exec (.attestationRequest nonce) s = .next s' ∧ s'.boot.idIndex = s.boot.idIndex + 1 ∧
        s'.boot.refused = false ∧ s'.boot.attest = some (nonce.toNat :: l)) ∧
      (32768 ≤ s.boot.idIndex → exec (.attestationRequest nonce) s =
        .next { s with boot := { s.boot with refused := true, attest := none } })) ∧
    (∀ line, (isSram (line * 64) = true ∨ isLpddr (line * 64) = true ∨ isTcm (line * 64) = true ∨ isSpad (line * 64) = true ∨
        isIst (line * 64) = true) →
      exec (.softError line) s = .next { s with poison := setInsert s.poison line }) ∧
    (let per := fieldOf s.dbg.dsamp 0 32 * 1000
     let at_ := (s.dbg.lastPulse / per + 1) * per
     per ≠ 0 → at_ ≤ s.pt → ∃ s', exec .samplingPulse s = .next s' ∧ s'.dbg.pulses = s.dbg.pulses + 1 ∧
       s'.dbg.lastPulse = at_ ∧ (fieldOf s.dbg.dimago 48 8 = 0 → SameMemory s s')) ∧
    (∀ (w : Word), let w' := maskWord w 0xFFFFFFFF
      let stored := setField w' 16 8 (min (fieldOf w' 16 8) (fieldOf s.power.pfuse 32 8))
      exec (.registerWrite 0x100018 w) s = .next { s with power := { s.power.settleLoss s.pt with ptherm := stored } })
end

