-- ==== Sys2Proof/Laws/Encoding.lean ====
section
/-!
SUPPORT. Sys2Proof/Laws/Encoding.lean: cutting a word into its fields and joining them are inverse, and the immediates of
every format are read as they are written.
-/
namespace Sys2Proof

/-- Cutting a joined word gives its fields. -/
@[simp] theorem splitWord_joinWord (r : Raw) : splitWord (joinWord r) = r := by
  obtain ⟨f5, f2, b, a, t, d, op, lo⟩ := r
  simp only [splitWord, joinWord, Raw.mk.injEq]
  refine ⟨?_, ?_, ?_, ?_, ?_, ?_, ?_, ?_⟩ <;>
    (ext i hi; simp only [BitVec.getElem_extractLsb', BitVec.getLsbD_append]; try (repeat' split) <;>
      first | omega | (rw [BitVec.getLsbD_eq_getElem (by omega)]; congr 1; omega))

/-- Joining the fields of a word gives the word. -/
@[simp] theorem joinWord_splitWord (w : IWord) : joinWord (splitWord w) = w := by
  simp only [splitWord, joinWord]
  apply BitVec.eq_of_getLsbD_eq
  intro i hi
  simp only [BitVec.getLsbD_append, BitVec.getLsbD_extractLsb']
  repeat' split
  all_goals (rw [decide_eq_true (by omega), Bool.true_and]; congr 1; omega)

/-- A word is determined by its fields. -/
theorem splitWord_inj (w w' : IWord) (h : splitWord w = splitWord w') : w = w' := by
  rw [← joinWord_splitWord w, h, joinWord_splitWord]

@[simp] theorem low_marked (mark : Bool) : (low mark == 2#2) = mark := by cases mark <;> rfl
@[simp] theorem low_ne_0 (mark : Bool) : low mark ≠ 0#2 := by cases mark <;> decide
@[simp] theorem low_ne_1 (mark : Bool) : low mark ≠ 1#2 := by cases mark <;> decide
/-- Bits 1:0 of a word that is no other size say its marker. -/
theorem low_of_marked (lo : BitVec 2) (h0 : lo ≠ 0) (h1 : lo ≠ 1) : low (lo == 2) = lo := by
  revert lo; decide

@[simp] theorem rawU_immU (imm : BitVec 20) (rd : Reg) (op : BitVec 5) (mark : Bool) : (rawU imm rd op mark).immU = imm := by
  apply BitVec.eq_of_getLsbD_eq
  intro i hi
  simp only [Raw.immU, rawU, BitVec.getLsbD_append, BitVec.getLsbD_extractLsb']
  repeat' split
  all_goals (rw [decide_eq_true (by omega), Bool.true_and]; congr 1; omega)

@[simp] theorem rawI_immI (imm : BitVec 12) (a : Reg) (t : BitVec 3) (rd : Reg) (op : BitVec 5) (mark : Bool) :
    (rawI imm a t rd op mark).immI = imm := by
  apply BitVec.eq_of_getLsbD_eq
  intro i hi
  simp only [Raw.immI, rawI, BitVec.getLsbD_append, BitVec.getLsbD_extractLsb']
  repeat' split
  all_goals (rw [decide_eq_true (by omega), Bool.true_and]; congr 1; omega)

@[simp] theorem rawS_immS (imm : BitVec 12) (b a : Reg) (t : BitVec 3) (op : BitVec 5) (mark : Bool) :
    (rawS imm b a t op mark).immS = imm := by
  apply BitVec.eq_of_getLsbD_eq
  intro i hi
  simp only [Raw.immS, rawS, BitVec.getLsbD_append, BitVec.getLsbD_extractLsb']
  repeat' split
  all_goals (rw [decide_eq_true (by omega), Bool.true_and]; congr 1; omega)

@[simp] theorem rawB_offB (off : BitVec 12) (b a : Reg) (t : BitVec 3) (op : BitVec 5) (mark : Bool) :
    (rawB off b a t op mark).offB = off := by
  apply BitVec.eq_of_getLsbD_eq
  intro i hi
  simp only [Raw.offB, rawB, BitVec.getLsbD_append, BitVec.getLsbD_extractLsb']
  repeat' split
  all_goals first
    | omega
    | (repeat rw [decide_eq_true (by omega), Bool.true_and]
       congr 1; omega)

@[simp] theorem rawJ_offJ (off : BitVec 20) (rd : Reg) (op : BitVec 5) (mark : Bool) : (rawJ off rd op mark).offJ = off := by
  apply BitVec.eq_of_getLsbD_eq
  intro i hi
  simp only [Raw.offJ, rawJ, BitVec.getLsbD_append, BitVec.getLsbD_extractLsb']
  repeat' split
  all_goals first
    | omega
    | (repeat rw [decide_eq_true (by omega), Bool.true_and]
       congr 1; omega)

/-! ## The other fields of the formats -/

@[simp] theorem rawU_d (imm : BitVec 20) (rd : Reg) (op : BitVec 5) (mark : Bool) : (rawU imm rd op mark).d = rd := rfl
@[simp] theorem rawU_op (imm : BitVec 20) (rd : Reg) (op : BitVec 5) (mark : Bool) : (rawU imm rd op mark).op = op := rfl
@[simp] theorem rawU_lo (imm : BitVec 20) (rd : Reg) (op : BitVec 5) (mark : Bool) : (rawU imm rd op mark).lo = low mark := rfl
@[simp] theorem rawU_marked (imm : BitVec 20) (rd : Reg) (op : BitVec 5) (mark : Bool) : (rawU imm rd op mark).marked = mark := low_marked mark
@[simp] theorem rawJ_d (off : BitVec 20) (rd : Reg) (op : BitVec 5) (mark : Bool) : (rawJ off rd op mark).d = rd := rfl
@[simp] theorem rawJ_op (off : BitVec 20) (rd : Reg) (op : BitVec 5) (mark : Bool) : (rawJ off rd op mark).op = op := rfl
@[simp] theorem rawJ_lo (off : BitVec 20) (rd : Reg) (op : BitVec 5) (mark : Bool) : (rawJ off rd op mark).lo = low mark := rfl
@[simp] theorem rawJ_marked (off : BitVec 20) (rd : Reg) (op : BitVec 5) (mark : Bool) : (rawJ off rd op mark).marked = mark := low_marked mark
@[simp] theorem rawI_a (imm : BitVec 12) (a : Reg) (t : BitVec 3) (rd : Reg) (op : BitVec 5) (mark : Bool) : (rawI imm a t rd op mark).a = a := rfl
@[simp] theorem rawI_t (imm : BitVec 12) (a : Reg) (t : BitVec 3) (rd : Reg) (op : BitVec 5) (mark : Bool) : (rawI imm a t rd op mark).t = t := rfl
@[simp] theorem rawI_d (imm : BitVec 12) (a : Reg) (t : BitVec 3) (rd : Reg) (op : BitVec 5) (mark : Bool) : (rawI imm a t rd op mark).d = rd := rfl
@[simp] theorem rawI_op (imm : BitVec 12) (a : Reg) (t : BitVec 3) (rd : Reg) (op : BitVec 5) (mark : Bool) : (rawI imm a t rd op mark).op = op := rfl
@[simp] theorem rawI_lo (imm : BitVec 12) (a : Reg) (t : BitVec 3) (rd : Reg) (op : BitVec 5) (mark : Bool) : (rawI imm a t rd op mark).lo = low mark := rfl
@[simp] theorem rawI_marked (imm : BitVec 12) (a : Reg) (t : BitVec 3) (rd : Reg) (op : BitVec 5) (mark : Bool) : (rawI imm a t rd op mark).marked = mark := low_marked mark
@[simp] theorem rawS_b (imm : BitVec 12) (b a : Reg) (t : BitVec 3) (op : BitVec 5) (mark : Bool) : (rawS imm b a t op mark).b = b := rfl
@[simp] theorem rawS_a (imm : BitVec 12) (b a : Reg) (t : BitVec 3) (op : BitVec 5) (mark : Bool) : (rawS imm b a t op mark).a = a := rfl
@[simp] theorem rawS_t (imm : BitVec 12) (b a : Reg) (t : BitVec 3) (op : BitVec 5) (mark : Bool) : (rawS imm b a t op mark).t = t := rfl
@[simp] theorem rawS_op (imm : BitVec 12) (b a : Reg) (t : BitVec 3) (op : BitVec 5) (mark : Bool) : (rawS imm b a t op mark).op = op := rfl
@[simp] theorem rawS_lo (imm : BitVec 12) (b a : Reg) (t : BitVec 3) (op : BitVec 5) (mark : Bool) : (rawS imm b a t op mark).lo = low mark := rfl
@[simp] theorem rawS_marked (imm : BitVec 12) (b a : Reg) (t : BitVec 3) (op : BitVec 5) (mark : Bool) : (rawS imm b a t op mark).marked = mark := low_marked mark
@[simp] theorem rawB_b (off : BitVec 12) (b a : Reg) (t : BitVec 3) (op : BitVec 5) (mark : Bool) : (rawB off b a t op mark).b = b := rfl
@[simp] theorem rawB_a (off : BitVec 12) (b a : Reg) (t : BitVec 3) (op : BitVec 5) (mark : Bool) : (rawB off b a t op mark).a = a := rfl
@[simp] theorem rawB_t (off : BitVec 12) (b a : Reg) (t : BitVec 3) (op : BitVec 5) (mark : Bool) : (rawB off b a t op mark).t = t := rfl
@[simp] theorem rawB_op (off : BitVec 12) (b a : Reg) (t : BitVec 3) (op : BitVec 5) (mark : Bool) : (rawB off b a t op mark).op = op := rfl
@[simp] theorem rawB_lo (off : BitVec 12) (b a : Reg) (t : BitVec 3) (op : BitVec 5) (mark : Bool) : (rawB off b a t op mark).lo = low mark := rfl
@[simp] theorem rawB_marked (off : BitVec 12) (b a : Reg) (t : BitVec 3) (op : BitVec 5) (mark : Bool) : (rawB off b a t op mark).marked = mark := low_marked mark

end Sys2Proof
end

