-- ==== Sys2Proof/Laws/State.lean ====
section
/-!
SUPPORT. Sys2Proof/Laws/State.lean: what the named updates of a state and of a thread leave in each field.
-/
namespace Sys2Proof.Machine

/-! ## Updates of a state -/

@[simp] theorem State.setThr_pt (s : State) (tid : Nat) (t : Thread) : (s.setThr tid t).pt = s.pt := rfl
@[simp] theorem State.setThr_ptSet (s : State) (tid : Nat) (t : Thread) : (s.setThr tid t).ptSet = s.ptSet := rfl
@[simp] theorem State.setThr_ptLost (s : State) (tid : Nat) (t : Thread) : (s.setThr tid t).ptLost = s.ptLost := rfl
@[simp] theorem State.setThr_ptFree (s : State) (tid : Nat) (t : Thread) : (s.setThr tid t).ptFree = s.ptFree := rfl
@[simp] theorem State.setThr_lastUp (s : State) (tid : Nat) (t : Thread) : (s.setThr tid t).lastUp = s.lastUp := rfl
@[simp] theorem State.setThr_trim (s : State) (tid : Nat) (t : Thread) : (s.setThr tid t).trim = s.trim := rfl
@[simp] theorem State.setThr_ac (s : State) (tid : Nat) (t : Thread) : (s.setThr tid t).ac = s.ac := rfl
@[simp] theorem State.setThr_mhz (s : State) (tid : Nat) (t : Thread) : (s.setThr tid t).mhz = s.mhz := rfl
@[simp] theorem State.setThr_clockChange (s : State) (tid : Nat) (t : Thread) : (s.setThr tid t).clockChange = s.clockChange := rfl
@[simp] theorem State.setThr_mem (s : State) (tid : Nat) (t : Thread) : (s.setThr tid t).mem = s.mem := rfl
@[simp] theorem State.setThr_poison (s : State) (tid : Nat) (t : Thread) : (s.setThr tid t).poison = s.poison := rfl
@[simp] theorem State.setThr_owned (s : State) (tid : Nat) (t : Thread) : (s.setThr tid t).owned = s.owned := rfl
@[simp] theorem State.setThr_vcores (s : State) (tid : Nat) (t : Thread) : (s.setThr tid t).vcores = s.vcores := rfl
@[simp] theorem State.setThr_bind (s : State) (tid : Nat) (t : Thread) : (s.setThr tid t).bind = s.bind := rfl
@[simp] theorem State.setThr_l1 (s : State) (tid : Nat) (t : Thread) : (s.setThr tid t).l1 = s.l1 := rfl
@[simp] theorem State.setThr_storeBuf (s : State) (tid : Nat) (t : Thread) : (s.setThr tid t).storeBuf = s.storeBuf := rfl
@[simp] theorem State.setThr_tlb (s : State) (tid : Nat) (t : Thread) : (s.setThr tid t).tlb = s.tlb := rfl
@[simp] theorem State.setThr_cmds (s : State) (tid : Nat) (t : Thread) : (s.setThr tid t).cmds = s.cmds := rfl
@[simp] theorem State.setThr_replies (s : State) (tid : Nat) (t : Thread) : (s.setThr tid t).replies = s.replies := rfl
@[simp] theorem State.setThr_tiles (s : State) (tid : Nat) (t : Thread) : (s.setThr tid t).tiles = s.tiles := rfl
@[simp] theorem State.setThr_locks (s : State) (tid : Nat) (t : Thread) : (s.setThr tid t).locks = s.locks := rfl
@[simp] theorem State.setThr_sdus (s : State) (tid : Nat) (t : Thread) : (s.setThr tid t).sdus = s.sdus := rfl
@[simp] theorem State.setThr_inboxes (s : State) (tid : Nat) (t : Thread) : (s.setThr tid t).inboxes = s.inboxes := rfl
@[simp] theorem State.setThr_packets (s : State) (tid : Nat) (t : Thread) : (s.setThr tid t).packets = s.packets := rfl
@[simp] theorem State.setThr_groups (s : State) (tid : Nat) (t : Thread) : (s.setThr tid t).groups = s.groups := rfl
@[simp] theorem State.setThr_pools (s : State) (tid : Nat) (t : Thread) : (s.setThr tid t).pools = s.pools := rfl
@[simp] theorem State.setThr_kernels (s : State) (tid : Nat) (t : Thread) : (s.setThr tid t).kernels = s.kernels := rfl
@[simp] theorem State.setThr_qtab (s : State) (tid : Nat) (t : Thread) : (s.setThr tid t).qtab = s.qtab := rfl
@[simp] theorem State.setThr_queues (s : State) (tid : Nat) (t : Thread) : (s.setThr tid t).queues = s.queues := rfl
@[simp] theorem State.setThr_qpTurn (s : State) (tid : Nat) (t : Thread) : (s.setThr tid t).qpTurn = s.qpTurn := rfl
@[simp] theorem State.setThr_ctxs (s : State) (tid : Nat) (t : Thread) : (s.setThr tid t).ctxs = s.ctxs := rfl
@[simp] theorem State.setThr_comms (s : State) (tid : Nat) (t : Thread) : (s.setThr tid t).comms = s.comms := rfl
@[simp] theorem State.setThr_reportsDue (s : State) (tid : Nat) (t : Thread) : (s.setThr tid t).reportsDue = s.reportsDue := rfl
@[simp] theorem State.setThr_remap (s : State) (tid : Nat) (t : Thread) : (s.setThr tid t).remap = s.remap := rfl
@[simp] theorem State.setThr_moving (s : State) (tid : Nat) (t : Thread) : (s.setThr tid t).moving = s.moving := rfl
@[simp] theorem State.setThr_held (s : State) (tid : Nat) (t : Thread) : (s.setThr tid t).held = s.held := rfl
@[simp] theorem State.setThr_ports (s : State) (tid : Nat) (t : Thread) : (s.setThr tid t).ports = s.ports := rfl
@[simp] theorem State.setThr_routes (s : State) (tid : Nat) (t : Thread) : (s.setThr tid t).routes = s.routes := rfl
@[simp] theorem State.setThr_imports (s : State) (tid : Nat) (t : Thread) : (s.setThr tid t).imports = s.imports := rfl
@[simp] theorem State.setThr_apertures (s : State) (tid : Nat) (t : Thread) : (s.setThr tid t).apertures = s.apertures := rfl
@[simp] theorem State.setThr_doorbells (s : State) (tid : Nat) (t : Thread) : (s.setThr tid t).doorbells = s.doorbells := rfl
@[simp] theorem State.setThr_egress (s : State) (tid : Nat) (t : Thread) : (s.setThr tid t).egress = s.egress := rfl
@[simp] theorem State.setThr_jorraxIn (s : State) (tid : Nat) (t : Thread) : (s.setThr tid t).jorraxIn = s.jorraxIn := rfl
@[simp] theorem State.setThr_posted (s : State) (tid : Nat) (t : Thread) : (s.setThr tid t).posted = s.posted := rfl
@[simp] theorem State.setThr_irqs (s : State) (tid : Nat) (t : Thread) : (s.setThr tid t).irqs = s.irqs := rfl
@[simp] theorem State.setThr_log (s : State) (tid : Nat) (t : Thread) : (s.setThr tid t).log = s.log := rfl
@[simp] theorem State.setThr_power (s : State) (tid : Nat) (t : Thread) : (s.setThr tid t).power = s.power := rfl
@[simp] theorem State.setThr_dbg (s : State) (tid : Nat) (t : Thread) : (s.setThr tid t).dbg = s.dbg := rfl
@[simp] theorem State.setThr_boot (s : State) (tid : Nat) (t : Thread) : (s.setThr tid t).boot = s.boot := rfl
@[simp] theorem State.setThr_agenda (s : State) (tid : Nat) (t : Thread) : (s.setThr tid t).agenda = s.agenda := rfl
@[simp] theorem State.setThr_cur (s : State) (tid : Nat) (t : Thread) : (s.setThr tid t).cur = s.cur := rfl
@[simp] theorem State.setThr_pick (s : State) (tid : Nat) (t : Thread) : (s.setThr tid t).pick = s.pick := rfl
@[simp] theorem State.setThr_free (s : State) (tid : Nat) (t : Thread) : (s.setThr tid t).free = s.free := rfl
@[simp] theorem State.setThr_nextId (s : State) (tid : Nat) (t : Thread) : (s.setThr tid t).nextId = s.nextId := rfl
@[simp] theorem State.setThr_trimAcc (s : State) (tid : Nat) (t : Thread) : (s.setThr tid t).trimAcc = s.trimAcc := rfl
@[simp] theorem State.setThr_hostReads (s : State) (tid : Nat) (t : Thread) : (s.setThr tid t).hostReads = s.hostReads := rfl
@[simp] theorem State.setThr_ring (s : State) (tid : Nat) (t : Thread) : (s.setThr tid t).ring = s.ring := rfl

@[simp] theorem State.setThr_threads (s : State) (tid : Nat) (t : Thread) : (s.setThr tid t).threads = mapSet s.threads tid t := rfl
@[simp] theorem State.setThr_relHeads (s : State) (tid : Nat) (t : Thread) : (s.setThr tid t).relHeads = s.relHeads := rfl

@[simp] theorem State.updThr_pt (s : State) (tid : Nat) (f : Thread → Thread) : (s.updThr tid f).pt = s.pt := by unfold State.updThr; split <;> rfl
@[simp] theorem State.updThr_ptSet (s : State) (tid : Nat) (f : Thread → Thread) : (s.updThr tid f).ptSet = s.ptSet := by unfold State.updThr; split <;> rfl
@[simp] theorem State.updThr_ptLost (s : State) (tid : Nat) (f : Thread → Thread) : (s.updThr tid f).ptLost = s.ptLost := by unfold State.updThr; split <;> rfl
@[simp] theorem State.updThr_ptFree (s : State) (tid : Nat) (f : Thread → Thread) : (s.updThr tid f).ptFree = s.ptFree := by unfold State.updThr; split <;> rfl
@[simp] theorem State.updThr_lastUp (s : State) (tid : Nat) (f : Thread → Thread) : (s.updThr tid f).lastUp = s.lastUp := by unfold State.updThr; split <;> rfl
@[simp] theorem State.updThr_trim (s : State) (tid : Nat) (f : Thread → Thread) : (s.updThr tid f).trim = s.trim := by unfold State.updThr; split <;> rfl
@[simp] theorem State.updThr_ac (s : State) (tid : Nat) (f : Thread → Thread) : (s.updThr tid f).ac = s.ac := by unfold State.updThr; split <;> rfl
@[simp] theorem State.updThr_mhz (s : State) (tid : Nat) (f : Thread → Thread) : (s.updThr tid f).mhz = s.mhz := by unfold State.updThr; split <;> rfl
@[simp] theorem State.updThr_clockChange (s : State) (tid : Nat) (f : Thread → Thread) : (s.updThr tid f).clockChange = s.clockChange := by unfold State.updThr; split <;> rfl
@[simp] theorem State.updThr_mem (s : State) (tid : Nat) (f : Thread → Thread) : (s.updThr tid f).mem = s.mem := by unfold State.updThr; split <;> rfl
@[simp] theorem State.updThr_poison (s : State) (tid : Nat) (f : Thread → Thread) : (s.updThr tid f).poison = s.poison := by unfold State.updThr; split <;> rfl
@[simp] theorem State.updThr_owned (s : State) (tid : Nat) (f : Thread → Thread) : (s.updThr tid f).owned = s.owned := by unfold State.updThr; split <;> rfl
@[simp] theorem State.updThr_vcores (s : State) (tid : Nat) (f : Thread → Thread) : (s.updThr tid f).vcores = s.vcores := by unfold State.updThr; split <;> rfl
@[simp] theorem State.updThr_bind (s : State) (tid : Nat) (f : Thread → Thread) : (s.updThr tid f).bind = s.bind := by unfold State.updThr; split <;> rfl
@[simp] theorem State.updThr_l1 (s : State) (tid : Nat) (f : Thread → Thread) : (s.updThr tid f).l1 = s.l1 := by unfold State.updThr; split <;> rfl
@[simp] theorem State.updThr_storeBuf (s : State) (tid : Nat) (f : Thread → Thread) : (s.updThr tid f).storeBuf = s.storeBuf := by unfold State.updThr; split <;> rfl
@[simp] theorem State.updThr_tlb (s : State) (tid : Nat) (f : Thread → Thread) : (s.updThr tid f).tlb = s.tlb := by unfold State.updThr; split <;> rfl
@[simp] theorem State.updThr_cmds (s : State) (tid : Nat) (f : Thread → Thread) : (s.updThr tid f).cmds = s.cmds := by unfold State.updThr; split <;> rfl
@[simp] theorem State.updThr_replies (s : State) (tid : Nat) (f : Thread → Thread) : (s.updThr tid f).replies = s.replies := by unfold State.updThr; split <;> rfl
@[simp] theorem State.updThr_tiles (s : State) (tid : Nat) (f : Thread → Thread) : (s.updThr tid f).tiles = s.tiles := by unfold State.updThr; split <;> rfl
@[simp] theorem State.updThr_locks (s : State) (tid : Nat) (f : Thread → Thread) : (s.updThr tid f).locks = s.locks := by unfold State.updThr; split <;> rfl
@[simp] theorem State.updThr_sdus (s : State) (tid : Nat) (f : Thread → Thread) : (s.updThr tid f).sdus = s.sdus := by unfold State.updThr; split <;> rfl
@[simp] theorem State.updThr_inboxes (s : State) (tid : Nat) (f : Thread → Thread) : (s.updThr tid f).inboxes = s.inboxes := by unfold State.updThr; split <;> rfl
@[simp] theorem State.updThr_packets (s : State) (tid : Nat) (f : Thread → Thread) : (s.updThr tid f).packets = s.packets := by unfold State.updThr; split <;> rfl
@[simp] theorem State.updThr_groups (s : State) (tid : Nat) (f : Thread → Thread) : (s.updThr tid f).groups = s.groups := by unfold State.updThr; split <;> rfl
@[simp] theorem State.updThr_pools (s : State) (tid : Nat) (f : Thread → Thread) : (s.updThr tid f).pools = s.pools := by unfold State.updThr; split <;> rfl
@[simp] theorem State.updThr_kernels (s : State) (tid : Nat) (f : Thread → Thread) : (s.updThr tid f).kernels = s.kernels := by unfold State.updThr; split <;> rfl
@[simp] theorem State.updThr_qtab (s : State) (tid : Nat) (f : Thread → Thread) : (s.updThr tid f).qtab = s.qtab := by unfold State.updThr; split <;> rfl
@[simp] theorem State.updThr_queues (s : State) (tid : Nat) (f : Thread → Thread) : (s.updThr tid f).queues = s.queues := by unfold State.updThr; split <;> rfl
@[simp] theorem State.updThr_qpTurn (s : State) (tid : Nat) (f : Thread → Thread) : (s.updThr tid f).qpTurn = s.qpTurn := by unfold State.updThr; split <;> rfl
@[simp] theorem State.updThr_ctxs (s : State) (tid : Nat) (f : Thread → Thread) : (s.updThr tid f).ctxs = s.ctxs := by unfold State.updThr; split <;> rfl
@[simp] theorem State.updThr_comms (s : State) (tid : Nat) (f : Thread → Thread) : (s.updThr tid f).comms = s.comms := by unfold State.updThr; split <;> rfl
@[simp] theorem State.updThr_reportsDue (s : State) (tid : Nat) (f : Thread → Thread) : (s.updThr tid f).reportsDue = s.reportsDue := by unfold State.updThr; split <;> rfl
@[simp] theorem State.updThr_remap (s : State) (tid : Nat) (f : Thread → Thread) : (s.updThr tid f).remap = s.remap := by unfold State.updThr; split <;> rfl
@[simp] theorem State.updThr_moving (s : State) (tid : Nat) (f : Thread → Thread) : (s.updThr tid f).moving = s.moving := by unfold State.updThr; split <;> rfl
@[simp] theorem State.updThr_held (s : State) (tid : Nat) (f : Thread → Thread) : (s.updThr tid f).held = s.held := by unfold State.updThr; split <;> rfl
@[simp] theorem State.updThr_ports (s : State) (tid : Nat) (f : Thread → Thread) : (s.updThr tid f).ports = s.ports := by unfold State.updThr; split <;> rfl
@[simp] theorem State.updThr_routes (s : State) (tid : Nat) (f : Thread → Thread) : (s.updThr tid f).routes = s.routes := by unfold State.updThr; split <;> rfl
@[simp] theorem State.updThr_imports (s : State) (tid : Nat) (f : Thread → Thread) : (s.updThr tid f).imports = s.imports := by unfold State.updThr; split <;> rfl
@[simp] theorem State.updThr_apertures (s : State) (tid : Nat) (f : Thread → Thread) : (s.updThr tid f).apertures = s.apertures := by unfold State.updThr; split <;> rfl
@[simp] theorem State.updThr_doorbells (s : State) (tid : Nat) (f : Thread → Thread) : (s.updThr tid f).doorbells = s.doorbells := by unfold State.updThr; split <;> rfl
@[simp] theorem State.updThr_egress (s : State) (tid : Nat) (f : Thread → Thread) : (s.updThr tid f).egress = s.egress := by unfold State.updThr; split <;> rfl
@[simp] theorem State.updThr_jorraxIn (s : State) (tid : Nat) (f : Thread → Thread) : (s.updThr tid f).jorraxIn = s.jorraxIn := by unfold State.updThr; split <;> rfl
@[simp] theorem State.updThr_posted (s : State) (tid : Nat) (f : Thread → Thread) : (s.updThr tid f).posted = s.posted := by unfold State.updThr; split <;> rfl
@[simp] theorem State.updThr_irqs (s : State) (tid : Nat) (f : Thread → Thread) : (s.updThr tid f).irqs = s.irqs := by unfold State.updThr; split <;> rfl
@[simp] theorem State.updThr_log (s : State) (tid : Nat) (f : Thread → Thread) : (s.updThr tid f).log = s.log := by unfold State.updThr; split <;> rfl
@[simp] theorem State.updThr_power (s : State) (tid : Nat) (f : Thread → Thread) : (s.updThr tid f).power = s.power := by unfold State.updThr; split <;> rfl
@[simp] theorem State.updThr_dbg (s : State) (tid : Nat) (f : Thread → Thread) : (s.updThr tid f).dbg = s.dbg := by unfold State.updThr; split <;> rfl
@[simp] theorem State.updThr_boot (s : State) (tid : Nat) (f : Thread → Thread) : (s.updThr tid f).boot = s.boot := by unfold State.updThr; split <;> rfl
@[simp] theorem State.updThr_agenda (s : State) (tid : Nat) (f : Thread → Thread) : (s.updThr tid f).agenda = s.agenda := by unfold State.updThr; split <;> rfl
@[simp] theorem State.updThr_cur (s : State) (tid : Nat) (f : Thread → Thread) : (s.updThr tid f).cur = s.cur := by unfold State.updThr; split <;> rfl
@[simp] theorem State.updThr_pick (s : State) (tid : Nat) (f : Thread → Thread) : (s.updThr tid f).pick = s.pick := by unfold State.updThr; split <;> rfl
@[simp] theorem State.updThr_free (s : State) (tid : Nat) (f : Thread → Thread) : (s.updThr tid f).free = s.free := by unfold State.updThr; split <;> rfl
@[simp] theorem State.updThr_nextId (s : State) (tid : Nat) (f : Thread → Thread) : (s.updThr tid f).nextId = s.nextId := by unfold State.updThr; split <;> rfl
@[simp] theorem State.updThr_trimAcc (s : State) (tid : Nat) (f : Thread → Thread) : (s.updThr tid f).trimAcc = s.trimAcc := by unfold State.updThr; split <;> rfl
@[simp] theorem State.updThr_hostReads (s : State) (tid : Nat) (f : Thread → Thread) : (s.updThr tid f).hostReads = s.hostReads := by unfold State.updThr; split <;> rfl
@[simp] theorem State.updThr_ring (s : State) (tid : Nat) (f : Thread → Thread) : (s.updThr tid f).ring = s.ring := by unfold State.updThr; split <;> rfl
@[simp] theorem State.updThr_relHeads (s : State) (tid : Nat) (f : Thread → Thread) : (s.updThr tid f).relHeads = s.relHeads := by unfold State.updThr; split <;> rfl

@[simp] theorem State.updVc_pt (s : State) (v : Nat) (f : VCore → VCore) : (s.updVc v f).pt = s.pt := rfl
@[simp] theorem State.updVc_ptSet (s : State) (v : Nat) (f : VCore → VCore) : (s.updVc v f).ptSet = s.ptSet := rfl
@[simp] theorem State.updVc_ptLost (s : State) (v : Nat) (f : VCore → VCore) : (s.updVc v f).ptLost = s.ptLost := rfl
@[simp] theorem State.updVc_ptFree (s : State) (v : Nat) (f : VCore → VCore) : (s.updVc v f).ptFree = s.ptFree := rfl
@[simp] theorem State.updVc_lastUp (s : State) (v : Nat) (f : VCore → VCore) : (s.updVc v f).lastUp = s.lastUp := rfl
@[simp] theorem State.updVc_trim (s : State) (v : Nat) (f : VCore → VCore) : (s.updVc v f).trim = s.trim := rfl
@[simp] theorem State.updVc_ac (s : State) (v : Nat) (f : VCore → VCore) : (s.updVc v f).ac = s.ac := rfl
@[simp] theorem State.updVc_mhz (s : State) (v : Nat) (f : VCore → VCore) : (s.updVc v f).mhz = s.mhz := rfl
@[simp] theorem State.updVc_clockChange (s : State) (v : Nat) (f : VCore → VCore) : (s.updVc v f).clockChange = s.clockChange := rfl
@[simp] theorem State.updVc_mem (s : State) (v : Nat) (f : VCore → VCore) : (s.updVc v f).mem = s.mem := rfl
@[simp] theorem State.updVc_poison (s : State) (v : Nat) (f : VCore → VCore) : (s.updVc v f).poison = s.poison := rfl
@[simp] theorem State.updVc_owned (s : State) (v : Nat) (f : VCore → VCore) : (s.updVc v f).owned = s.owned := rfl
@[simp] theorem State.updVc_threads (s : State) (v : Nat) (f : VCore → VCore) : (s.updVc v f).threads = s.threads := rfl
@[simp] theorem State.updVc_bind (s : State) (v : Nat) (f : VCore → VCore) : (s.updVc v f).bind = s.bind := rfl
@[simp] theorem State.updVc_l1 (s : State) (v : Nat) (f : VCore → VCore) : (s.updVc v f).l1 = s.l1 := rfl
@[simp] theorem State.updVc_storeBuf (s : State) (v : Nat) (f : VCore → VCore) : (s.updVc v f).storeBuf = s.storeBuf := rfl
@[simp] theorem State.updVc_tlb (s : State) (v : Nat) (f : VCore → VCore) : (s.updVc v f).tlb = s.tlb := rfl
@[simp] theorem State.updVc_cmds (s : State) (v : Nat) (f : VCore → VCore) : (s.updVc v f).cmds = s.cmds := rfl
@[simp] theorem State.updVc_replies (s : State) (v : Nat) (f : VCore → VCore) : (s.updVc v f).replies = s.replies := rfl
@[simp] theorem State.updVc_tiles (s : State) (v : Nat) (f : VCore → VCore) : (s.updVc v f).tiles = s.tiles := rfl
@[simp] theorem State.updVc_locks (s : State) (v : Nat) (f : VCore → VCore) : (s.updVc v f).locks = s.locks := rfl
@[simp] theorem State.updVc_sdus (s : State) (v : Nat) (f : VCore → VCore) : (s.updVc v f).sdus = s.sdus := rfl
@[simp] theorem State.updVc_inboxes (s : State) (v : Nat) (f : VCore → VCore) : (s.updVc v f).inboxes = s.inboxes := rfl
@[simp] theorem State.updVc_packets (s : State) (v : Nat) (f : VCore → VCore) : (s.updVc v f).packets = s.packets := rfl
@[simp] theorem State.updVc_groups (s : State) (v : Nat) (f : VCore → VCore) : (s.updVc v f).groups = s.groups := rfl
@[simp] theorem State.updVc_pools (s : State) (v : Nat) (f : VCore → VCore) : (s.updVc v f).pools = s.pools := rfl
@[simp] theorem State.updVc_kernels (s : State) (v : Nat) (f : VCore → VCore) : (s.updVc v f).kernels = s.kernels := rfl
@[simp] theorem State.updVc_qtab (s : State) (v : Nat) (f : VCore → VCore) : (s.updVc v f).qtab = s.qtab := rfl
@[simp] theorem State.updVc_queues (s : State) (v : Nat) (f : VCore → VCore) : (s.updVc v f).queues = s.queues := rfl
@[simp] theorem State.updVc_qpTurn (s : State) (v : Nat) (f : VCore → VCore) : (s.updVc v f).qpTurn = s.qpTurn := rfl
@[simp] theorem State.updVc_ctxs (s : State) (v : Nat) (f : VCore → VCore) : (s.updVc v f).ctxs = s.ctxs := rfl
@[simp] theorem State.updVc_comms (s : State) (v : Nat) (f : VCore → VCore) : (s.updVc v f).comms = s.comms := rfl
@[simp] theorem State.updVc_reportsDue (s : State) (v : Nat) (f : VCore → VCore) : (s.updVc v f).reportsDue = s.reportsDue := rfl
@[simp] theorem State.updVc_remap (s : State) (v : Nat) (f : VCore → VCore) : (s.updVc v f).remap = s.remap := rfl
@[simp] theorem State.updVc_moving (s : State) (v : Nat) (f : VCore → VCore) : (s.updVc v f).moving = s.moving := rfl
@[simp] theorem State.updVc_held (s : State) (v : Nat) (f : VCore → VCore) : (s.updVc v f).held = s.held := rfl
@[simp] theorem State.updVc_ports (s : State) (v : Nat) (f : VCore → VCore) : (s.updVc v f).ports = s.ports := rfl
@[simp] theorem State.updVc_routes (s : State) (v : Nat) (f : VCore → VCore) : (s.updVc v f).routes = s.routes := rfl
@[simp] theorem State.updVc_imports (s : State) (v : Nat) (f : VCore → VCore) : (s.updVc v f).imports = s.imports := rfl
@[simp] theorem State.updVc_apertures (s : State) (v : Nat) (f : VCore → VCore) : (s.updVc v f).apertures = s.apertures := rfl
@[simp] theorem State.updVc_doorbells (s : State) (v : Nat) (f : VCore → VCore) : (s.updVc v f).doorbells = s.doorbells := rfl
@[simp] theorem State.updVc_egress (s : State) (v : Nat) (f : VCore → VCore) : (s.updVc v f).egress = s.egress := rfl
@[simp] theorem State.updVc_jorraxIn (s : State) (v : Nat) (f : VCore → VCore) : (s.updVc v f).jorraxIn = s.jorraxIn := rfl
@[simp] theorem State.updVc_posted (s : State) (v : Nat) (f : VCore → VCore) : (s.updVc v f).posted = s.posted := rfl
@[simp] theorem State.updVc_irqs (s : State) (v : Nat) (f : VCore → VCore) : (s.updVc v f).irqs = s.irqs := rfl
@[simp] theorem State.updVc_log (s : State) (v : Nat) (f : VCore → VCore) : (s.updVc v f).log = s.log := rfl
@[simp] theorem State.updVc_power (s : State) (v : Nat) (f : VCore → VCore) : (s.updVc v f).power = s.power := rfl
@[simp] theorem State.updVc_dbg (s : State) (v : Nat) (f : VCore → VCore) : (s.updVc v f).dbg = s.dbg := rfl
@[simp] theorem State.updVc_boot (s : State) (v : Nat) (f : VCore → VCore) : (s.updVc v f).boot = s.boot := rfl
@[simp] theorem State.updVc_agenda (s : State) (v : Nat) (f : VCore → VCore) : (s.updVc v f).agenda = s.agenda := rfl
@[simp] theorem State.updVc_cur (s : State) (v : Nat) (f : VCore → VCore) : (s.updVc v f).cur = s.cur := rfl
@[simp] theorem State.updVc_pick (s : State) (v : Nat) (f : VCore → VCore) : (s.updVc v f).pick = s.pick := rfl
@[simp] theorem State.updVc_free (s : State) (v : Nat) (f : VCore → VCore) : (s.updVc v f).free = s.free := rfl
@[simp] theorem State.updVc_nextId (s : State) (v : Nat) (f : VCore → VCore) : (s.updVc v f).nextId = s.nextId := rfl
@[simp] theorem State.updVc_trimAcc (s : State) (v : Nat) (f : VCore → VCore) : (s.updVc v f).trimAcc = s.trimAcc := rfl
@[simp] theorem State.updVc_hostReads (s : State) (v : Nat) (f : VCore → VCore) : (s.updVc v f).hostReads = s.hostReads := rfl
@[simp] theorem State.updVc_ring (s : State) (v : Nat) (f : VCore → VCore) : (s.updVc v f).ring = s.ring := rfl

@[simp] theorem State.updVc_vcores (s : State) (v : Nat) (f : VCore → VCore) : (s.updVc v f).vcores = mapSet s.vcores v (f (s.vc v)) := rfl
@[simp] theorem State.updVc_relHeads (s : State) (v : Nat) (f : VCore → VCore) : (s.updVc v f).relHeads = s.relHeads := rfl

@[simp] theorem State.mapThr_pt (s : State) (f : Nat → Thread → Thread) : (s.mapThr f).pt = s.pt := rfl
@[simp] theorem State.mapThr_ac (s : State) (f : Nat → Thread → Thread) : (s.mapThr f).ac = s.ac := rfl
@[simp] theorem State.mapThr_mem (s : State) (f : Nat → Thread → Thread) : (s.mapThr f).mem = s.mem := rfl
@[simp] theorem State.mapThr_poison (s : State) (f : Nat → Thread → Thread) : (s.mapThr f).poison = s.poison := rfl
@[simp] theorem State.mapThr_owned (s : State) (f : Nat → Thread → Thread) : (s.mapThr f).owned = s.owned := rfl
@[simp] theorem State.mapThr_vcores (s : State) (f : Nat → Thread → Thread) : (s.mapThr f).vcores = s.vcores := rfl
@[simp] theorem State.mapThr_l1 (s : State) (f : Nat → Thread → Thread) : (s.mapThr f).l1 = s.l1 := rfl
@[simp] theorem State.mapThr_storeBuf (s : State) (f : Nat → Thread → Thread) : (s.mapThr f).storeBuf = s.storeBuf := rfl
@[simp] theorem State.mapThr_tlb (s : State) (f : Nat → Thread → Thread) : (s.mapThr f).tlb = s.tlb := rfl
@[simp] theorem State.mapThr_cmds (s : State) (f : Nat → Thread → Thread) : (s.mapThr f).cmds = s.cmds := rfl
@[simp] theorem State.mapThr_replies (s : State) (f : Nat → Thread → Thread) : (s.mapThr f).replies = s.replies := rfl
@[simp] theorem State.mapThr_sdus (s : State) (f : Nat → Thread → Thread) : (s.mapThr f).sdus = s.sdus := rfl
@[simp] theorem State.mapThr_inboxes (s : State) (f : Nat → Thread → Thread) : (s.mapThr f).inboxes = s.inboxes := rfl
@[simp] theorem State.mapThr_packets (s : State) (f : Nat → Thread → Thread) : (s.mapThr f).packets = s.packets := rfl
@[simp] theorem State.mapThr_groups (s : State) (f : Nat → Thread → Thread) : (s.mapThr f).groups = s.groups := rfl
@[simp] theorem State.mapThr_pools (s : State) (f : Nat → Thread → Thread) : (s.mapThr f).pools = s.pools := rfl
@[simp] theorem State.mapThr_kernels (s : State) (f : Nat → Thread → Thread) : (s.mapThr f).kernels = s.kernels := rfl
@[simp] theorem State.mapThr_queues (s : State) (f : Nat → Thread → Thread) : (s.mapThr f).queues = s.queues := rfl
@[simp] theorem State.mapThr_ctxs (s : State) (f : Nat → Thread → Thread) : (s.mapThr f).ctxs = s.ctxs := rfl
@[simp] theorem State.mapThr_moving (s : State) (f : Nat → Thread → Thread) : (s.mapThr f).moving = s.moving := rfl
@[simp] theorem State.mapThr_held (s : State) (f : Nat → Thread → Thread) : (s.mapThr f).held = s.held := rfl
@[simp] theorem State.mapThr_power (s : State) (f : Nat → Thread → Thread) : (s.mapThr f).power = s.power := rfl
@[simp] theorem State.mapThr_dbg (s : State) (f : Nat → Thread → Thread) : (s.mapThr f).dbg = s.dbg := rfl
@[simp] theorem State.mapThr_boot (s : State) (f : Nat → Thread → Thread) : (s.mapThr f).boot = s.boot := rfl
@[simp] theorem State.mapThr_cur (s : State) (f : Nat → Thread → Thread) : (s.mapThr f).cur = s.cur := rfl
@[simp] theorem State.mapThr_free (s : State) (f : Nat → Thread → Thread) : (s.mapThr f).free = s.free := rfl
@[simp] theorem State.mapThr_nextId (s : State) (f : Nat → Thread → Thread) : (s.mapThr f).nextId = s.nextId := rfl
@[simp] theorem State.mapThr_trimAcc (s : State) (f : Nat → Thread → Thread) : (s.mapThr f).trimAcc = s.trimAcc := rfl
@[simp] theorem State.mapThr_hostReads (s : State) (f : Nat → Thread → Thread) : (s.mapThr f).hostReads = s.hostReads := rfl
@[simp] theorem State.mapThr_ring (s : State) (f : Nat → Thread → Thread) : (s.mapThr f).ring = s.ring := rfl
@[simp] theorem State.mapThr_relHeads (s : State) (f : Nat → Thread → Thread) : (s.mapThr f).relHeads = s.relHeads := rfl

@[simp] theorem State.dropThr_pt (s : State) (tid : Nat) : (s.dropThr tid).pt = s.pt := rfl
@[simp] theorem State.dropThr_ac (s : State) (tid : Nat) : (s.dropThr tid).ac = s.ac := rfl
@[simp] theorem State.dropThr_mem (s : State) (tid : Nat) : (s.dropThr tid).mem = s.mem := rfl
@[simp] theorem State.dropThr_poison (s : State) (tid : Nat) : (s.dropThr tid).poison = s.poison := rfl
@[simp] theorem State.dropThr_owned (s : State) (tid : Nat) : (s.dropThr tid).owned = s.owned := rfl
@[simp] theorem State.dropThr_vcores (s : State) (tid : Nat) : (s.dropThr tid).vcores = s.vcores := rfl
@[simp] theorem State.dropThr_l1 (s : State) (tid : Nat) : (s.dropThr tid).l1 = s.l1 := rfl
@[simp] theorem State.dropThr_storeBuf (s : State) (tid : Nat) : (s.dropThr tid).storeBuf = s.storeBuf := rfl
@[simp] theorem State.dropThr_tlb (s : State) (tid : Nat) : (s.dropThr tid).tlb = s.tlb := rfl
@[simp] theorem State.dropThr_cmds (s : State) (tid : Nat) : (s.dropThr tid).cmds = s.cmds := rfl
@[simp] theorem State.dropThr_replies (s : State) (tid : Nat) : (s.dropThr tid).replies = s.replies := rfl
@[simp] theorem State.dropThr_sdus (s : State) (tid : Nat) : (s.dropThr tid).sdus = s.sdus := rfl
@[simp] theorem State.dropThr_inboxes (s : State) (tid : Nat) : (s.dropThr tid).inboxes = s.inboxes := rfl
@[simp] theorem State.dropThr_packets (s : State) (tid : Nat) : (s.dropThr tid).packets = s.packets := rfl
@[simp] theorem State.dropThr_groups (s : State) (tid : Nat) : (s.dropThr tid).groups = s.groups := rfl
@[simp] theorem State.dropThr_pools (s : State) (tid : Nat) : (s.dropThr tid).pools = s.pools := rfl
@[simp] theorem State.dropThr_kernels (s : State) (tid : Nat) : (s.dropThr tid).kernels = s.kernels := rfl
@[simp] theorem State.dropThr_queues (s : State) (tid : Nat) : (s.dropThr tid).queues = s.queues := rfl
@[simp] theorem State.dropThr_ctxs (s : State) (tid : Nat) : (s.dropThr tid).ctxs = s.ctxs := rfl
@[simp] theorem State.dropThr_moving (s : State) (tid : Nat) : (s.dropThr tid).moving = s.moving := rfl
@[simp] theorem State.dropThr_held (s : State) (tid : Nat) : (s.dropThr tid).held = s.held := rfl
@[simp] theorem State.dropThr_power (s : State) (tid : Nat) : (s.dropThr tid).power = s.power := rfl
@[simp] theorem State.dropThr_dbg (s : State) (tid : Nat) : (s.dropThr tid).dbg = s.dbg := rfl
@[simp] theorem State.dropThr_boot (s : State) (tid : Nat) : (s.dropThr tid).boot = s.boot := rfl
@[simp] theorem State.dropThr_cur (s : State) (tid : Nat) : (s.dropThr tid).cur = s.cur := rfl
@[simp] theorem State.dropThr_free (s : State) (tid : Nat) : (s.dropThr tid).free = s.free := rfl
@[simp] theorem State.dropThr_nextId (s : State) (tid : Nat) : (s.dropThr tid).nextId = s.nextId := rfl
@[simp] theorem State.dropThr_trimAcc (s : State) (tid : Nat) : (s.dropThr tid).trimAcc = s.trimAcc := rfl
@[simp] theorem State.dropThr_hostReads (s : State) (tid : Nat) : (s.dropThr tid).hostReads = s.hostReads := rfl
@[simp] theorem State.dropThr_ring (s : State) (tid : Nat) : (s.dropThr tid).ring = s.ring := rfl
@[simp] theorem State.dropThr_relHeads (s : State) (tid : Nat) : (s.dropThr tid).relHeads = s.relHeads := rfl

@[simp] theorem State.updSdu_pt (s : State) (v : Nat) (f : Sdu → Sdu) : (s.updSdu v f).pt = s.pt := rfl
@[simp] theorem State.updSdu_ac (s : State) (v : Nat) (f : Sdu → Sdu) : (s.updSdu v f).ac = s.ac := rfl
@[simp] theorem State.updSdu_mem (s : State) (v : Nat) (f : Sdu → Sdu) : (s.updSdu v f).mem = s.mem := rfl
@[simp] theorem State.updSdu_poison (s : State) (v : Nat) (f : Sdu → Sdu) : (s.updSdu v f).poison = s.poison := rfl
@[simp] theorem State.updSdu_owned (s : State) (v : Nat) (f : Sdu → Sdu) : (s.updSdu v f).owned = s.owned := rfl
@[simp] theorem State.updSdu_threads (s : State) (v : Nat) (f : Sdu → Sdu) : (s.updSdu v f).threads = s.threads := rfl
@[simp] theorem State.updSdu_vcores (s : State) (v : Nat) (f : Sdu → Sdu) : (s.updSdu v f).vcores = s.vcores := rfl
@[simp] theorem State.updSdu_l1 (s : State) (v : Nat) (f : Sdu → Sdu) : (s.updSdu v f).l1 = s.l1 := rfl
@[simp] theorem State.updSdu_storeBuf (s : State) (v : Nat) (f : Sdu → Sdu) : (s.updSdu v f).storeBuf = s.storeBuf := rfl
@[simp] theorem State.updSdu_tlb (s : State) (v : Nat) (f : Sdu → Sdu) : (s.updSdu v f).tlb = s.tlb := rfl
@[simp] theorem State.updSdu_cmds (s : State) (v : Nat) (f : Sdu → Sdu) : (s.updSdu v f).cmds = s.cmds := rfl
@[simp] theorem State.updSdu_replies (s : State) (v : Nat) (f : Sdu → Sdu) : (s.updSdu v f).replies = s.replies := rfl
@[simp] theorem State.updSdu_inboxes (s : State) (v : Nat) (f : Sdu → Sdu) : (s.updSdu v f).inboxes = s.inboxes := rfl
@[simp] theorem State.updSdu_packets (s : State) (v : Nat) (f : Sdu → Sdu) : (s.updSdu v f).packets = s.packets := rfl
@[simp] theorem State.updSdu_groups (s : State) (v : Nat) (f : Sdu → Sdu) : (s.updSdu v f).groups = s.groups := rfl
@[simp] theorem State.updSdu_pools (s : State) (v : Nat) (f : Sdu → Sdu) : (s.updSdu v f).pools = s.pools := rfl
@[simp] theorem State.updSdu_kernels (s : State) (v : Nat) (f : Sdu → Sdu) : (s.updSdu v f).kernels = s.kernels := rfl
@[simp] theorem State.updSdu_queues (s : State) (v : Nat) (f : Sdu → Sdu) : (s.updSdu v f).queues = s.queues := rfl
@[simp] theorem State.updSdu_ctxs (s : State) (v : Nat) (f : Sdu → Sdu) : (s.updSdu v f).ctxs = s.ctxs := rfl
@[simp] theorem State.updSdu_moving (s : State) (v : Nat) (f : Sdu → Sdu) : (s.updSdu v f).moving = s.moving := rfl
@[simp] theorem State.updSdu_held (s : State) (v : Nat) (f : Sdu → Sdu) : (s.updSdu v f).held = s.held := rfl
@[simp] theorem State.updSdu_power (s : State) (v : Nat) (f : Sdu → Sdu) : (s.updSdu v f).power = s.power := rfl
@[simp] theorem State.updSdu_dbg (s : State) (v : Nat) (f : Sdu → Sdu) : (s.updSdu v f).dbg = s.dbg := rfl
@[simp] theorem State.updSdu_boot (s : State) (v : Nat) (f : Sdu → Sdu) : (s.updSdu v f).boot = s.boot := rfl
@[simp] theorem State.updSdu_cur (s : State) (v : Nat) (f : Sdu → Sdu) : (s.updSdu v f).cur = s.cur := rfl
@[simp] theorem State.updSdu_free (s : State) (v : Nat) (f : Sdu → Sdu) : (s.updSdu v f).free = s.free := rfl
@[simp] theorem State.updSdu_nextId (s : State) (v : Nat) (f : Sdu → Sdu) : (s.updSdu v f).nextId = s.nextId := rfl
@[simp] theorem State.updSdu_trimAcc (s : State) (v : Nat) (f : Sdu → Sdu) : (s.updSdu v f).trimAcc = s.trimAcc := rfl
@[simp] theorem State.updSdu_hostReads (s : State) (v : Nat) (f : Sdu → Sdu) : (s.updSdu v f).hostReads = s.hostReads := rfl
@[simp] theorem State.updSdu_ring (s : State) (v : Nat) (f : Sdu → Sdu) : (s.updSdu v f).ring = s.ring := rfl
@[simp] theorem State.updSdu_relHeads (s : State) (v : Nat) (f : Sdu → Sdu) : (s.updSdu v f).relHeads = s.relHeads := rfl

@[simp] theorem State.updInbox_pt (s : State) (v : Nat) (f : Inbox → Inbox) : (s.updInbox v f).pt = s.pt := rfl
@[simp] theorem State.updInbox_ac (s : State) (v : Nat) (f : Inbox → Inbox) : (s.updInbox v f).ac = s.ac := rfl
@[simp] theorem State.updInbox_mem (s : State) (v : Nat) (f : Inbox → Inbox) : (s.updInbox v f).mem = s.mem := rfl
@[simp] theorem State.updInbox_poison (s : State) (v : Nat) (f : Inbox → Inbox) : (s.updInbox v f).poison = s.poison := rfl
@[simp] theorem State.updInbox_owned (s : State) (v : Nat) (f : Inbox → Inbox) : (s.updInbox v f).owned = s.owned := rfl
@[simp] theorem State.updInbox_threads (s : State) (v : Nat) (f : Inbox → Inbox) : (s.updInbox v f).threads = s.threads := rfl
@[simp] theorem State.updInbox_vcores (s : State) (v : Nat) (f : Inbox → Inbox) : (s.updInbox v f).vcores = s.vcores := rfl
@[simp] theorem State.updInbox_l1 (s : State) (v : Nat) (f : Inbox → Inbox) : (s.updInbox v f).l1 = s.l1 := rfl
@[simp] theorem State.updInbox_storeBuf (s : State) (v : Nat) (f : Inbox → Inbox) : (s.updInbox v f).storeBuf = s.storeBuf := rfl
@[simp] theorem State.updInbox_tlb (s : State) (v : Nat) (f : Inbox → Inbox) : (s.updInbox v f).tlb = s.tlb := rfl
@[simp] theorem State.updInbox_cmds (s : State) (v : Nat) (f : Inbox → Inbox) : (s.updInbox v f).cmds = s.cmds := rfl
@[simp] theorem State.updInbox_replies (s : State) (v : Nat) (f : Inbox → Inbox) : (s.updInbox v f).replies = s.replies := rfl
@[simp] theorem State.updInbox_sdus (s : State) (v : Nat) (f : Inbox → Inbox) : (s.updInbox v f).sdus = s.sdus := rfl
@[simp] theorem State.updInbox_packets (s : State) (v : Nat) (f : Inbox → Inbox) : (s.updInbox v f).packets = s.packets := rfl
@[simp] theorem State.updInbox_groups (s : State) (v : Nat) (f : Inbox → Inbox) : (s.updInbox v f).groups = s.groups := rfl
@[simp] theorem State.updInbox_pools (s : State) (v : Nat) (f : Inbox → Inbox) : (s.updInbox v f).pools = s.pools := rfl
@[simp] theorem State.updInbox_kernels (s : State) (v : Nat) (f : Inbox → Inbox) : (s.updInbox v f).kernels = s.kernels := rfl
@[simp] theorem State.updInbox_queues (s : State) (v : Nat) (f : Inbox → Inbox) : (s.updInbox v f).queues = s.queues := rfl
@[simp] theorem State.updInbox_ctxs (s : State) (v : Nat) (f : Inbox → Inbox) : (s.updInbox v f).ctxs = s.ctxs := rfl
@[simp] theorem State.updInbox_moving (s : State) (v : Nat) (f : Inbox → Inbox) : (s.updInbox v f).moving = s.moving := rfl
@[simp] theorem State.updInbox_held (s : State) (v : Nat) (f : Inbox → Inbox) : (s.updInbox v f).held = s.held := rfl
@[simp] theorem State.updInbox_power (s : State) (v : Nat) (f : Inbox → Inbox) : (s.updInbox v f).power = s.power := rfl
@[simp] theorem State.updInbox_dbg (s : State) (v : Nat) (f : Inbox → Inbox) : (s.updInbox v f).dbg = s.dbg := rfl
@[simp] theorem State.updInbox_boot (s : State) (v : Nat) (f : Inbox → Inbox) : (s.updInbox v f).boot = s.boot := rfl
@[simp] theorem State.updInbox_cur (s : State) (v : Nat) (f : Inbox → Inbox) : (s.updInbox v f).cur = s.cur := rfl
@[simp] theorem State.updInbox_free (s : State) (v : Nat) (f : Inbox → Inbox) : (s.updInbox v f).free = s.free := rfl
@[simp] theorem State.updInbox_nextId (s : State) (v : Nat) (f : Inbox → Inbox) : (s.updInbox v f).nextId = s.nextId := rfl
@[simp] theorem State.updInbox_trimAcc (s : State) (v : Nat) (f : Inbox → Inbox) : (s.updInbox v f).trimAcc = s.trimAcc := rfl
@[simp] theorem State.updInbox_hostReads (s : State) (v : Nat) (f : Inbox → Inbox) : (s.updInbox v f).hostReads = s.hostReads := rfl
@[simp] theorem State.updInbox_ring (s : State) (v : Nat) (f : Inbox → Inbox) : (s.updInbox v f).ring = s.ring := rfl
@[simp] theorem State.updInbox_relHeads (s : State) (v : Nat) (f : Inbox → Inbox) : (s.updInbox v f).relHeads = s.relHeads := rfl

@[simp] theorem State.setGroup_pt (s : State) (key : Nat) (g : Group) : (s.setGroup key g).pt = s.pt := rfl
@[simp] theorem State.setGroup_ac (s : State) (key : Nat) (g : Group) : (s.setGroup key g).ac = s.ac := rfl
@[simp] theorem State.setGroup_mem (s : State) (key : Nat) (g : Group) : (s.setGroup key g).mem = s.mem := rfl
@[simp] theorem State.setGroup_poison (s : State) (key : Nat) (g : Group) : (s.setGroup key g).poison = s.poison := rfl
@[simp] theorem State.setGroup_owned (s : State) (key : Nat) (g : Group) : (s.setGroup key g).owned = s.owned := rfl
@[simp] theorem State.setGroup_threads (s : State) (key : Nat) (g : Group) : (s.setGroup key g).threads = s.threads := rfl
@[simp] theorem State.setGroup_vcores (s : State) (key : Nat) (g : Group) : (s.setGroup key g).vcores = s.vcores := rfl
@[simp] theorem State.setGroup_l1 (s : State) (key : Nat) (g : Group) : (s.setGroup key g).l1 = s.l1 := rfl
@[simp] theorem State.setGroup_storeBuf (s : State) (key : Nat) (g : Group) : (s.setGroup key g).storeBuf = s.storeBuf := rfl
@[simp] theorem State.setGroup_tlb (s : State) (key : Nat) (g : Group) : (s.setGroup key g).tlb = s.tlb := rfl
@[simp] theorem State.setGroup_cmds (s : State) (key : Nat) (g : Group) : (s.setGroup key g).cmds = s.cmds := rfl
@[simp] theorem State.setGroup_replies (s : State) (key : Nat) (g : Group) : (s.setGroup key g).replies = s.replies := rfl
@[simp] theorem State.setGroup_sdus (s : State) (key : Nat) (g : Group) : (s.setGroup key g).sdus = s.sdus := rfl
@[simp] theorem State.setGroup_inboxes (s : State) (key : Nat) (g : Group) : (s.setGroup key g).inboxes = s.inboxes := rfl
@[simp] theorem State.setGroup_packets (s : State) (key : Nat) (g : Group) : (s.setGroup key g).packets = s.packets := rfl
@[simp] theorem State.setGroup_pools (s : State) (key : Nat) (g : Group) : (s.setGroup key g).pools = s.pools := rfl
@[simp] theorem State.setGroup_kernels (s : State) (key : Nat) (g : Group) : (s.setGroup key g).kernels = s.kernels := rfl
@[simp] theorem State.setGroup_queues (s : State) (key : Nat) (g : Group) : (s.setGroup key g).queues = s.queues := rfl
@[simp] theorem State.setGroup_ctxs (s : State) (key : Nat) (g : Group) : (s.setGroup key g).ctxs = s.ctxs := rfl
@[simp] theorem State.setGroup_moving (s : State) (key : Nat) (g : Group) : (s.setGroup key g).moving = s.moving := rfl
@[simp] theorem State.setGroup_held (s : State) (key : Nat) (g : Group) : (s.setGroup key g).held = s.held := rfl
@[simp] theorem State.setGroup_power (s : State) (key : Nat) (g : Group) : (s.setGroup key g).power = s.power := rfl
@[simp] theorem State.setGroup_dbg (s : State) (key : Nat) (g : Group) : (s.setGroup key g).dbg = s.dbg := rfl
@[simp] theorem State.setGroup_boot (s : State) (key : Nat) (g : Group) : (s.setGroup key g).boot = s.boot := rfl
@[simp] theorem State.setGroup_cur (s : State) (key : Nat) (g : Group) : (s.setGroup key g).cur = s.cur := rfl
@[simp] theorem State.setGroup_free (s : State) (key : Nat) (g : Group) : (s.setGroup key g).free = s.free := rfl
@[simp] theorem State.setGroup_nextId (s : State) (key : Nat) (g : Group) : (s.setGroup key g).nextId = s.nextId := rfl
@[simp] theorem State.setGroup_trimAcc (s : State) (key : Nat) (g : Group) : (s.setGroup key g).trimAcc = s.trimAcc := rfl
@[simp] theorem State.setGroup_hostReads (s : State) (key : Nat) (g : Group) : (s.setGroup key g).hostReads = s.hostReads := rfl
@[simp] theorem State.setGroup_ring (s : State) (key : Nat) (g : Group) : (s.setGroup key g).ring = s.ring := rfl
@[simp] theorem State.setGroup_relHeads (s : State) (key : Nat) (g : Group) : (s.setGroup key g).relHeads = s.relHeads := rfl

@[simp] theorem State.setPool_pt (s : State) (die : Nat) (p : List PoolEntry) : (s.setPool die p).pt = s.pt := rfl
@[simp] theorem State.setPool_ac (s : State) (die : Nat) (p : List PoolEntry) : (s.setPool die p).ac = s.ac := rfl
@[simp] theorem State.setPool_mem (s : State) (die : Nat) (p : List PoolEntry) : (s.setPool die p).mem = s.mem := rfl
@[simp] theorem State.setPool_poison (s : State) (die : Nat) (p : List PoolEntry) : (s.setPool die p).poison = s.poison := rfl
@[simp] theorem State.setPool_owned (s : State) (die : Nat) (p : List PoolEntry) : (s.setPool die p).owned = s.owned := rfl
@[simp] theorem State.setPool_threads (s : State) (die : Nat) (p : List PoolEntry) : (s.setPool die p).threads = s.threads := rfl
@[simp] theorem State.setPool_vcores (s : State) (die : Nat) (p : List PoolEntry) : (s.setPool die p).vcores = s.vcores := rfl
@[simp] theorem State.setPool_l1 (s : State) (die : Nat) (p : List PoolEntry) : (s.setPool die p).l1 = s.l1 := rfl
@[simp] theorem State.setPool_storeBuf (s : State) (die : Nat) (p : List PoolEntry) : (s.setPool die p).storeBuf = s.storeBuf := rfl
@[simp] theorem State.setPool_tlb (s : State) (die : Nat) (p : List PoolEntry) : (s.setPool die p).tlb = s.tlb := rfl
@[simp] theorem State.setPool_cmds (s : State) (die : Nat) (p : List PoolEntry) : (s.setPool die p).cmds = s.cmds := rfl
@[simp] theorem State.setPool_replies (s : State) (die : Nat) (p : List PoolEntry) : (s.setPool die p).replies = s.replies := rfl
@[simp] theorem State.setPool_sdus (s : State) (die : Nat) (p : List PoolEntry) : (s.setPool die p).sdus = s.sdus := rfl
@[simp] theorem State.setPool_inboxes (s : State) (die : Nat) (p : List PoolEntry) : (s.setPool die p).inboxes = s.inboxes := rfl
@[simp] theorem State.setPool_packets (s : State) (die : Nat) (p : List PoolEntry) : (s.setPool die p).packets = s.packets := rfl
@[simp] theorem State.setPool_groups (s : State) (die : Nat) (p : List PoolEntry) : (s.setPool die p).groups = s.groups := rfl
@[simp] theorem State.setPool_kernels (s : State) (die : Nat) (p : List PoolEntry) : (s.setPool die p).kernels = s.kernels := rfl
@[simp] theorem State.setPool_queues (s : State) (die : Nat) (p : List PoolEntry) : (s.setPool die p).queues = s.queues := rfl
@[simp] theorem State.setPool_ctxs (s : State) (die : Nat) (p : List PoolEntry) : (s.setPool die p).ctxs = s.ctxs := rfl
@[simp] theorem State.setPool_moving (s : State) (die : Nat) (p : List PoolEntry) : (s.setPool die p).moving = s.moving := rfl
@[simp] theorem State.setPool_held (s : State) (die : Nat) (p : List PoolEntry) : (s.setPool die p).held = s.held := rfl
@[simp] theorem State.setPool_power (s : State) (die : Nat) (p : List PoolEntry) : (s.setPool die p).power = s.power := rfl
@[simp] theorem State.setPool_dbg (s : State) (die : Nat) (p : List PoolEntry) : (s.setPool die p).dbg = s.dbg := rfl
@[simp] theorem State.setPool_boot (s : State) (die : Nat) (p : List PoolEntry) : (s.setPool die p).boot = s.boot := rfl
@[simp] theorem State.setPool_cur (s : State) (die : Nat) (p : List PoolEntry) : (s.setPool die p).cur = s.cur := rfl
@[simp] theorem State.setPool_free (s : State) (die : Nat) (p : List PoolEntry) : (s.setPool die p).free = s.free := rfl
@[simp] theorem State.setPool_nextId (s : State) (die : Nat) (p : List PoolEntry) : (s.setPool die p).nextId = s.nextId := rfl
@[simp] theorem State.setPool_trimAcc (s : State) (die : Nat) (p : List PoolEntry) : (s.setPool die p).trimAcc = s.trimAcc := rfl
@[simp] theorem State.setPool_hostReads (s : State) (die : Nat) (p : List PoolEntry) : (s.setPool die p).hostReads = s.hostReads := rfl
@[simp] theorem State.setPool_ring (s : State) (die : Nat) (p : List PoolEntry) : (s.setPool die p).ring = s.ring := rfl
@[simp] theorem State.setPool_relHeads (s : State) (die : Nat) (p : List PoolEntry) : (s.setPool die p).relHeads = s.relHeads := rfl

@[simp] theorem State.updKern_pt (s : State) (k : Nat) (f : Kernel → Kernel) : (s.updKern k f).pt = s.pt := by unfold State.updKern; split <;> rfl
@[simp] theorem State.updKern_ac (s : State) (k : Nat) (f : Kernel → Kernel) : (s.updKern k f).ac = s.ac := by unfold State.updKern; split <;> rfl
@[simp] theorem State.updKern_mem (s : State) (k : Nat) (f : Kernel → Kernel) : (s.updKern k f).mem = s.mem := by unfold State.updKern; split <;> rfl
@[simp] theorem State.updKern_poison (s : State) (k : Nat) (f : Kernel → Kernel) : (s.updKern k f).poison = s.poison := by unfold State.updKern; split <;> rfl
@[simp] theorem State.updKern_owned (s : State) (k : Nat) (f : Kernel → Kernel) : (s.updKern k f).owned = s.owned := by unfold State.updKern; split <;> rfl
@[simp] theorem State.updKern_threads (s : State) (k : Nat) (f : Kernel → Kernel) : (s.updKern k f).threads = s.threads := by unfold State.updKern; split <;> rfl
@[simp] theorem State.updKern_vcores (s : State) (k : Nat) (f : Kernel → Kernel) : (s.updKern k f).vcores = s.vcores := by unfold State.updKern; split <;> rfl
@[simp] theorem State.updKern_l1 (s : State) (k : Nat) (f : Kernel → Kernel) : (s.updKern k f).l1 = s.l1 := by unfold State.updKern; split <;> rfl
@[simp] theorem State.updKern_storeBuf (s : State) (k : Nat) (f : Kernel → Kernel) : (s.updKern k f).storeBuf = s.storeBuf := by unfold State.updKern; split <;> rfl
@[simp] theorem State.updKern_tlb (s : State) (k : Nat) (f : Kernel → Kernel) : (s.updKern k f).tlb = s.tlb := by unfold State.updKern; split <;> rfl
@[simp] theorem State.updKern_cmds (s : State) (k : Nat) (f : Kernel → Kernel) : (s.updKern k f).cmds = s.cmds := by unfold State.updKern; split <;> rfl
@[simp] theorem State.updKern_replies (s : State) (k : Nat) (f : Kernel → Kernel) : (s.updKern k f).replies = s.replies := by unfold State.updKern; split <;> rfl
@[simp] theorem State.updKern_sdus (s : State) (k : Nat) (f : Kernel → Kernel) : (s.updKern k f).sdus = s.sdus := by unfold State.updKern; split <;> rfl
@[simp] theorem State.updKern_inboxes (s : State) (k : Nat) (f : Kernel → Kernel) : (s.updKern k f).inboxes = s.inboxes := by unfold State.updKern; split <;> rfl
@[simp] theorem State.updKern_packets (s : State) (k : Nat) (f : Kernel → Kernel) : (s.updKern k f).packets = s.packets := by unfold State.updKern; split <;> rfl
@[simp] theorem State.updKern_groups (s : State) (k : Nat) (f : Kernel → Kernel) : (s.updKern k f).groups = s.groups := by unfold State.updKern; split <;> rfl
@[simp] theorem State.updKern_pools (s : State) (k : Nat) (f : Kernel → Kernel) : (s.updKern k f).pools = s.pools := by unfold State.updKern; split <;> rfl
@[simp] theorem State.updKern_queues (s : State) (k : Nat) (f : Kernel → Kernel) : (s.updKern k f).queues = s.queues := by unfold State.updKern; split <;> rfl
@[simp] theorem State.updKern_ctxs (s : State) (k : Nat) (f : Kernel → Kernel) : (s.updKern k f).ctxs = s.ctxs := by unfold State.updKern; split <;> rfl
@[simp] theorem State.updKern_moving (s : State) (k : Nat) (f : Kernel → Kernel) : (s.updKern k f).moving = s.moving := by unfold State.updKern; split <;> rfl
@[simp] theorem State.updKern_held (s : State) (k : Nat) (f : Kernel → Kernel) : (s.updKern k f).held = s.held := by unfold State.updKern; split <;> rfl
@[simp] theorem State.updKern_power (s : State) (k : Nat) (f : Kernel → Kernel) : (s.updKern k f).power = s.power := by unfold State.updKern; split <;> rfl
@[simp] theorem State.updKern_dbg (s : State) (k : Nat) (f : Kernel → Kernel) : (s.updKern k f).dbg = s.dbg := by unfold State.updKern; split <;> rfl
@[simp] theorem State.updKern_boot (s : State) (k : Nat) (f : Kernel → Kernel) : (s.updKern k f).boot = s.boot := by unfold State.updKern; split <;> rfl
@[simp] theorem State.updKern_cur (s : State) (k : Nat) (f : Kernel → Kernel) : (s.updKern k f).cur = s.cur := by unfold State.updKern; split <;> rfl
@[simp] theorem State.updKern_free (s : State) (k : Nat) (f : Kernel → Kernel) : (s.updKern k f).free = s.free := by unfold State.updKern; split <;> rfl
@[simp] theorem State.updKern_nextId (s : State) (k : Nat) (f : Kernel → Kernel) : (s.updKern k f).nextId = s.nextId := by unfold State.updKern; split <;> rfl
@[simp] theorem State.updKern_trimAcc (s : State) (k : Nat) (f : Kernel → Kernel) : (s.updKern k f).trimAcc = s.trimAcc := by unfold State.updKern; split <;> rfl
@[simp] theorem State.updKern_hostReads (s : State) (k : Nat) (f : Kernel → Kernel) : (s.updKern k f).hostReads = s.hostReads := by unfold State.updKern; split <;> rfl
@[simp] theorem State.updKern_ring (s : State) (k : Nat) (f : Kernel → Kernel) : (s.updKern k f).ring = s.ring := by unfold State.updKern; split <;> rfl
@[simp] theorem State.updKern_relHeads (s : State) (k : Nat) (f : Kernel → Kernel) : (s.updKern k f).relHeads = s.relHeads := by unfold State.updKern; split <;> rfl

@[simp] theorem State.report_pt (s : State) (r : Report) : (s.report r).pt = s.pt := rfl
@[simp] theorem State.report_ac (s : State) (r : Report) : (s.report r).ac = s.ac := rfl
@[simp] theorem State.report_mem (s : State) (r : Report) : (s.report r).mem = s.mem := rfl
@[simp] theorem State.report_poison (s : State) (r : Report) : (s.report r).poison = s.poison := rfl
@[simp] theorem State.report_owned (s : State) (r : Report) : (s.report r).owned = s.owned := rfl
@[simp] theorem State.report_threads (s : State) (r : Report) : (s.report r).threads = s.threads := rfl
@[simp] theorem State.report_vcores (s : State) (r : Report) : (s.report r).vcores = s.vcores := rfl
@[simp] theorem State.report_l1 (s : State) (r : Report) : (s.report r).l1 = s.l1 := rfl
@[simp] theorem State.report_storeBuf (s : State) (r : Report) : (s.report r).storeBuf = s.storeBuf := rfl
@[simp] theorem State.report_tlb (s : State) (r : Report) : (s.report r).tlb = s.tlb := rfl
@[simp] theorem State.report_cmds (s : State) (r : Report) : (s.report r).cmds = s.cmds := rfl
@[simp] theorem State.report_replies (s : State) (r : Report) : (s.report r).replies = s.replies := rfl
@[simp] theorem State.report_sdus (s : State) (r : Report) : (s.report r).sdus = s.sdus := rfl
@[simp] theorem State.report_inboxes (s : State) (r : Report) : (s.report r).inboxes = s.inboxes := rfl
@[simp] theorem State.report_packets (s : State) (r : Report) : (s.report r).packets = s.packets := rfl
@[simp] theorem State.report_groups (s : State) (r : Report) : (s.report r).groups = s.groups := rfl
@[simp] theorem State.report_pools (s : State) (r : Report) : (s.report r).pools = s.pools := rfl
@[simp] theorem State.report_kernels (s : State) (r : Report) : (s.report r).kernels = s.kernels := rfl
@[simp] theorem State.report_queues (s : State) (r : Report) : (s.report r).queues = s.queues := rfl
@[simp] theorem State.report_ctxs (s : State) (r : Report) : (s.report r).ctxs = s.ctxs := rfl
@[simp] theorem State.report_moving (s : State) (r : Report) : (s.report r).moving = s.moving := rfl
@[simp] theorem State.report_held (s : State) (r : Report) : (s.report r).held = s.held := rfl
@[simp] theorem State.report_power (s : State) (r : Report) : (s.report r).power = s.power := rfl
@[simp] theorem State.report_dbg (s : State) (r : Report) : (s.report r).dbg = s.dbg := rfl
@[simp] theorem State.report_boot (s : State) (r : Report) : (s.report r).boot = s.boot := rfl
@[simp] theorem State.report_cur (s : State) (r : Report) : (s.report r).cur = s.cur := rfl
@[simp] theorem State.report_free (s : State) (r : Report) : (s.report r).free = s.free := rfl
@[simp] theorem State.report_nextId (s : State) (r : Report) : (s.report r).nextId = s.nextId := rfl
@[simp] theorem State.report_trimAcc (s : State) (r : Report) : (s.report r).trimAcc = s.trimAcc := rfl
@[simp] theorem State.report_hostReads (s : State) (r : Report) : (s.report r).hostReads = s.hostReads := rfl
@[simp] theorem State.report_ring (s : State) (r : Report) : (s.report r).ring = s.ring := rfl
@[simp] theorem State.report_relHeads (s : State) (r : Report) : (s.report r).relHeads = s.relHeads := rfl

@[simp] theorem State.noteWrite_pt (s : State) (old : State) (loc n : Nat) : (s.noteWrite old loc n).pt = s.pt := rfl
@[simp] theorem State.noteWrite_ac (s : State) (old : State) (loc n : Nat) : (s.noteWrite old loc n).ac = s.ac := rfl
@[simp] theorem State.noteWrite_mem (s : State) (old : State) (loc n : Nat) : (s.noteWrite old loc n).mem = s.mem := rfl
@[simp] theorem State.noteWrite_poison (s : State) (old : State) (loc n : Nat) : (s.noteWrite old loc n).poison = s.poison := rfl
@[simp] theorem State.noteWrite_owned (s : State) (old : State) (loc n : Nat) : (s.noteWrite old loc n).owned = s.owned := rfl
@[simp] theorem State.noteWrite_vcores (s : State) (old : State) (loc n : Nat) : (s.noteWrite old loc n).vcores = s.vcores := rfl
@[simp] theorem State.noteWrite_l1 (s : State) (old : State) (loc n : Nat) : (s.noteWrite old loc n).l1 = s.l1 := rfl
@[simp] theorem State.noteWrite_storeBuf (s : State) (old : State) (loc n : Nat) : (s.noteWrite old loc n).storeBuf = s.storeBuf := rfl
@[simp] theorem State.noteWrite_tlb (s : State) (old : State) (loc n : Nat) : (s.noteWrite old loc n).tlb = s.tlb := rfl
@[simp] theorem State.noteWrite_cmds (s : State) (old : State) (loc n : Nat) : (s.noteWrite old loc n).cmds = s.cmds := rfl
@[simp] theorem State.noteWrite_replies (s : State) (old : State) (loc n : Nat) : (s.noteWrite old loc n).replies = s.replies := rfl
@[simp] theorem State.noteWrite_sdus (s : State) (old : State) (loc n : Nat) : (s.noteWrite old loc n).sdus = s.sdus := rfl
@[simp] theorem State.noteWrite_inboxes (s : State) (old : State) (loc n : Nat) : (s.noteWrite old loc n).inboxes = s.inboxes := rfl
@[simp] theorem State.noteWrite_packets (s : State) (old : State) (loc n : Nat) : (s.noteWrite old loc n).packets = s.packets := rfl
@[simp] theorem State.noteWrite_groups (s : State) (old : State) (loc n : Nat) : (s.noteWrite old loc n).groups = s.groups := rfl
@[simp] theorem State.noteWrite_pools (s : State) (old : State) (loc n : Nat) : (s.noteWrite old loc n).pools = s.pools := rfl
@[simp] theorem State.noteWrite_kernels (s : State) (old : State) (loc n : Nat) : (s.noteWrite old loc n).kernels = s.kernels := rfl
@[simp] theorem State.noteWrite_ctxs (s : State) (old : State) (loc n : Nat) : (s.noteWrite old loc n).ctxs = s.ctxs := rfl
@[simp] theorem State.noteWrite_moving (s : State) (old : State) (loc n : Nat) : (s.noteWrite old loc n).moving = s.moving := rfl
@[simp] theorem State.noteWrite_held (s : State) (old : State) (loc n : Nat) : (s.noteWrite old loc n).held = s.held := rfl
@[simp] theorem State.noteWrite_power (s : State) (old : State) (loc n : Nat) : (s.noteWrite old loc n).power = s.power := rfl
@[simp] theorem State.noteWrite_dbg (s : State) (old : State) (loc n : Nat) : (s.noteWrite old loc n).dbg = s.dbg := rfl
@[simp] theorem State.noteWrite_boot (s : State) (old : State) (loc n : Nat) : (s.noteWrite old loc n).boot = s.boot := rfl
@[simp] theorem State.noteWrite_cur (s : State) (old : State) (loc n : Nat) : (s.noteWrite old loc n).cur = s.cur := rfl
@[simp] theorem State.noteWrite_free (s : State) (old : State) (loc n : Nat) : (s.noteWrite old loc n).free = s.free := rfl
@[simp] theorem State.noteWrite_nextId (s : State) (old : State) (loc n : Nat) : (s.noteWrite old loc n).nextId = s.nextId := rfl
@[simp] theorem State.noteWrite_trimAcc (s : State) (old : State) (loc n : Nat) : (s.noteWrite old loc n).trimAcc = s.trimAcc := rfl
@[simp] theorem State.noteWrite_hostReads (s : State) (old : State) (loc n : Nat) : (s.noteWrite old loc n).hostReads = s.hostReads := rfl
@[simp] theorem State.noteWrite_ring (s : State) (old : State) (loc n : Nat) : (s.noteWrite old loc n).ring = s.ring := rfl
@[simp] theorem State.noteWrite_relHeads (s : State) (old : State) (loc n : Nat) : (s.noteWrite old loc n).relHeads = s.relHeads := rfl

/-! ## Updates of a thread -/

@[simp] theorem Thread.setX_place (t : Thread) (r : Reg) (val : Word) : (t.setX r val).place = t.place := by unfold Thread.setX; split <;> rfl
@[simp] theorem Thread.setX_run (t : Thread) (r : Reg) (val : Word) : (t.setX r val).run = t.run := by unfold Thread.setX; split <;> rfl
@[simp] theorem Thread.setX_shed (t : Thread) (r : Reg) (val : Word) : (t.setX r val).shed = t.shed := by unfold Thread.setX; split <;> rfl
@[simp] theorem Thread.setX_light (t : Thread) (r : Reg) (val : Word) : (t.setX r val).light = t.light := by unfold Thread.setX; split <;> rfl
@[simp] theorem Thread.setX_ctx (t : Thread) (r : Reg) (val : Word) : (t.setX r val).ctx = t.ctx := by unfold Thread.setX; split <;> rfl
@[simp] theorem Thread.setX_cls (t : Thread) (r : Reg) (val : Word) : (t.setX r val).cls = t.cls := by unfold Thread.setX; split <;> rfl
@[simp] theorem Thread.setX_kernel (t : Thread) (r : Reg) (val : Word) : (t.setX r val).kernel = t.kernel := by unfold Thread.setX; split <;> rfl
@[simp] theorem Thread.setX_follow (t : Thread) (r : Reg) (val : Word) : (t.setX r val).follow = t.follow := by unfold Thread.setX; split <;> rfl
@[simp] theorem Thread.setX_pc (t : Thread) (r : Reg) (val : Word) : (t.setX r val).pc = t.pc := by unfold Thread.setX; split <;> rfl
@[simp] theorem Thread.setX_v (t : Thread) (r : Reg) (val : Word) : (t.setX r val).v = t.v := by unfold Thread.setX; split <;> rfl
@[simp] theorem Thread.setX_m (t : Thread) (r : Reg) (val : Word) : (t.setX r val).m = t.m := by unfold Thread.setX; split <;> rfl
@[simp] theorem Thread.setX_sup (t : Thread) (r : Reg) (val : Word) : (t.setX r val).sup = t.sup := by unfold Thread.setX; split <;> rfl
@[simp] theorem Thread.setX_level (t : Thread) (r : Reg) (val : Word) : (t.setX r val).level = t.level := by unfold Thread.setX; split <;> rfl
@[simp] theorem Thread.setX_vflags (t : Thread) (r : Reg) (val : Word) : (t.setX r val).vflags = t.vflags := by unfold Thread.setX; split <;> rfl
@[simp] theorem Thread.setX_lutb (t : Thread) (r : Reg) (val : Word) : (t.setX r val).lutb = t.lutb := by unfold Thread.setX; split <;> rfl
@[simp] theorem Thread.setX_mfmt (t : Thread) (r : Reg) (val : Word) : (t.setX r val).mfmt = t.mfmt := by unfold Thread.setX; split <;> rfl
@[simp] theorem Thread.setX_mscl (t : Thread) (r : Reg) (val : Word) : (t.setX r val).mscl = t.mscl := by unfold Thread.setX; split <;> rfl
@[simp] theorem Thread.setX_mprog (t : Thread) (r : Reg) (val : Word) : (t.setX r val).mprog = t.mprog := by unfold Thread.setX; split <;> rfl
@[simp] theorem Thread.setX_mprogOf (t : Thread) (r : Reg) (val : Word) : (t.setX r val).mprogOf = t.mprogOf := by unfold Thread.setX; split <;> rfl
@[simp] theorem Thread.setX_sdcnt (t : Thread) (r : Reg) (val : Word) : (t.setX r val).sdcnt = t.sdcnt := by unfold Thread.setX; split <;> rfl
@[simp] theorem Thread.setX_sbstat (t : Thread) (r : Reg) (val : Word) : (t.setX r val).sbstat = t.sbstat := by unfold Thread.setX; split <;> rfl
@[simp] theorem Thread.setX_rdrop (t : Thread) (r : Reg) (val : Word) : (t.setX r val).rdrop = t.rdrop := by unfold Thread.setX; split <;> rfl
@[simp] theorem Thread.setX_tmocnt (t : Thread) (r : Reg) (val : Word) : (t.setX r val).tmocnt = t.tmocnt := by unfold Thread.setX; split <;> rfl
@[simp] theorem Thread.setX_tmolim (t : Thread) (r : Reg) (val : Word) : (t.setX r val).tmolim = t.tmolim := by unfold Thread.setX; split <;> rfl
@[simp] theorem Thread.setX_wceil (t : Thread) (r : Reg) (val : Word) : (t.setX r val).wceil = t.wceil := by unfold Thread.setX; split <;> rfl
@[simp] theorem Thread.setX_tvec (t : Thread) (r : Reg) (val : Word) : (t.setX r val).tvec = t.tvec := by unfold Thread.setX; split <;> rfl
@[simp] theorem Thread.setX_bank0 (t : Thread) (r : Reg) (val : Word) : (t.setX r val).bank0 = t.bank0 := by unfold Thread.setX; split <;> rfl
@[simp] theorem Thread.setX_bank1 (t : Thread) (r : Reg) (val : Word) : (t.setX r val).bank1 = t.bank1 := by unfold Thread.setX; split <;> rfl
@[simp] theorem Thread.setX_empty (t : Thread) (r : Reg) (val : Word) : (t.setX r val).empty = t.empty := by unfold Thread.setX; split <;> rfl
@[simp] theorem Thread.setX_winCount (t : Thread) (r : Reg) (val : Word) : (t.setX r val).winCount = t.winCount := by unfold Thread.setX; split <;> rfl
@[simp] theorem Thread.setX_winIdx (t : Thread) (r : Reg) (val : Word) : (t.setX r val).winIdx = t.winIdx := by unfold Thread.setX; split <;> rfl
@[simp] theorem Thread.setX_block (t : Thread) (r : Reg) (val : Word) : (t.setX r val).block = t.block := by unfold Thread.setX; split <;> rfl
@[simp] theorem Thread.setX_issued (t : Thread) (r : Reg) (val : Word) : (t.setX r val).issued = t.issued := by unfold Thread.setX; split <;> rfl
@[simp] theorem Thread.setX_walking (t : Thread) (r : Reg) (val : Word) : (t.setX r val).walking = t.walking := by unfold Thread.setX; split <;> rfl
@[simp] theorem Thread.setX_snap (t : Thread) (r : Reg) (val : Word) : (t.setX r val).snap = t.snap := by unfold Thread.setX; split <;> rfl
@[simp] theorem Thread.setX_wait (t : Thread) (r : Reg) (val : Word) : (t.setX r val).wait = t.wait := by unfold Thread.setX; split <;> rfl
@[simp] theorem Thread.setX_susp (t : Thread) (r : Reg) (val : Word) : (t.setX r val).susp = t.susp := by unfold Thread.setX; split <;> rfl
@[simp] theorem Thread.setX_mon (t : Thread) (r : Reg) (val : Word) : (t.setX r val).mon = t.mon := by unfold Thread.setX; split <;> rfl
@[simp] theorem Thread.setX_moveSpur (t : Thread) (r : Reg) (val : Word) : (t.setX r val).moveSpur = t.moveSpur := by unfold Thread.setX; split <;> rfl
@[simp] theorem Thread.setX_streams (t : Thread) (r : Reg) (val : Word) : (t.setX r val).streams = t.streams := by unfold Thread.setX; split <;> rfl
@[simp] theorem Thread.setX_logical (t : Thread) (r : Reg) (val : Word) : (t.setX r val).logical = t.logical := by unfold Thread.setX; split <;> rfl
@[simp] theorem Thread.setX_bpIgnore (t : Thread) (r : Reg) (val : Word) : (t.setX r val).bpIgnore = t.bpIgnore := by unfold Thread.setX; split <;> rfl
@[simp] theorem Thread.setX_preempt (t : Thread) (r : Reg) (val : Word) : (t.setX r val).preempt = t.preempt := by unfold Thread.setX; split <;> rfl
@[simp] theorem Thread.setX_migrate (t : Thread) (r : Reg) (val : Word) : (t.setX r val).migrate = t.migrate := by unfold Thread.setX; split <;> rfl
@[simp] theorem Thread.setX_migrating (t : Thread) (r : Reg) (val : Word) : (t.setX r val).migrating = t.migrating := by unfold Thread.setX; split <;> rfl
@[simp] theorem Thread.setX_shedReq (t : Thread) (r : Reg) (val : Word) : (t.setX r val).shedReq = t.shedReq := by unfold Thread.setX; split <;> rfl
@[simp] theorem Thread.setX_parkedAt (t : Thread) (r : Reg) (val : Word) : (t.setX r val).parkedAt = t.parkedAt := by unfold Thread.setX; split <;> rfl
@[simp] theorem Thread.setX_reportedA (t : Thread) (r : Reg) (val : Word) : (t.setX r val).reportedA = t.reportedA := by unfold Thread.setX; split <;> rfl
@[simp] theorem Thread.setX_reportedB (t : Thread) (r : Reg) (val : Word) : (t.setX r val).reportedB = t.reportedB := by unfold Thread.setX; split <;> rfl
@[simp] theorem Thread.setX_stale (t : Thread) (r : Reg) (val : Word) : (t.setX r val).stale = t.stale := by unfold Thread.setX; split <;> rfl
@[simp] theorem Thread.setX_saved (t : Thread) (r : Reg) (val : Word) : (t.setX r val).saved = t.saved := by unfold Thread.setX; split <;> rfl
@[simp] theorem Thread.setX_pcoreAt (t : Thread) (r : Reg) (val : Word) : (t.setX r val).pcoreAt = t.pcoreAt := by unfold Thread.setX; split <;> rfl
@[simp] theorem Thread.setX_escDue (t : Thread) (r : Reg) (val : Word) : (t.setX r val).escDue = t.escDue := by unfold Thread.setX; split <;> rfl
@[simp] theorem Thread.setX_issuedAt (t : Thread) (r : Reg) (val : Word) : (t.setX r val).issuedAt = t.issuedAt := by unfold Thread.setX; split <;> rfl
@[simp] theorem Thread.setX_hwAc (t : Thread) (r : Reg) (val : Word) : (t.setX r val).hwAc = t.hwAc := by unfold Thread.setX; split <;> rfl
@[simp] theorem Thread.setX_hw (t : Thread) (r : Reg) (val : Word) : (t.setX r val).hw = t.hw := by unfold Thread.setX; split <;> rfl
@[simp] theorem Thread.setX_followTo (t : Thread) (r : Reg) (val : Word) : (t.setX r val).followTo = t.followTo := by unfold Thread.setX; split <;> rfl
@[simp] theorem Thread.setX_image (t : Thread) (r : Reg) (val : Word) : (t.setX r val).image = t.image := by unfold Thread.setX; split <;> rfl
@[simp] theorem Thread.setX_fences (t : Thread) (r : Reg) (val : Word) : (t.setX r val).fences = t.fences := by unfold Thread.setX; split <;> rfl

@[simp] theorem Thread.setV_place (t : Thread) (w : VWrite) : (t.setV w).place = t.place := rfl
@[simp] theorem Thread.setV_run (t : Thread) (w : VWrite) : (t.setV w).run = t.run := rfl
@[simp] theorem Thread.setV_shed (t : Thread) (w : VWrite) : (t.setV w).shed = t.shed := rfl
@[simp] theorem Thread.setV_light (t : Thread) (w : VWrite) : (t.setV w).light = t.light := rfl
@[simp] theorem Thread.setV_ctx (t : Thread) (w : VWrite) : (t.setV w).ctx = t.ctx := rfl
@[simp] theorem Thread.setV_cls (t : Thread) (w : VWrite) : (t.setV w).cls = t.cls := rfl
@[simp] theorem Thread.setV_kernel (t : Thread) (w : VWrite) : (t.setV w).kernel = t.kernel := rfl
@[simp] theorem Thread.setV_follow (t : Thread) (w : VWrite) : (t.setV w).follow = t.follow := rfl
@[simp] theorem Thread.setV_pc (t : Thread) (w : VWrite) : (t.setV w).pc = t.pc := rfl
@[simp] theorem Thread.setV_x (t : Thread) (w : VWrite) : (t.setV w).x = t.x := rfl
@[simp] theorem Thread.setV_m (t : Thread) (w : VWrite) : (t.setV w).m = t.m := rfl
@[simp] theorem Thread.setV_sup (t : Thread) (w : VWrite) : (t.setV w).sup = t.sup := rfl
@[simp] theorem Thread.setV_level (t : Thread) (w : VWrite) : (t.setV w).level = t.level := rfl
@[simp] theorem Thread.setV_vflags (t : Thread) (w : VWrite) : (t.setV w).vflags = t.vflags := rfl
@[simp] theorem Thread.setV_lutb (t : Thread) (w : VWrite) : (t.setV w).lutb = t.lutb := rfl
@[simp] theorem Thread.setV_mfmt (t : Thread) (w : VWrite) : (t.setV w).mfmt = t.mfmt := rfl
@[simp] theorem Thread.setV_mscl (t : Thread) (w : VWrite) : (t.setV w).mscl = t.mscl := rfl
@[simp] theorem Thread.setV_mprog (t : Thread) (w : VWrite) : (t.setV w).mprog = t.mprog := rfl
@[simp] theorem Thread.setV_mprogOf (t : Thread) (w : VWrite) : (t.setV w).mprogOf = t.mprogOf := rfl
@[simp] theorem Thread.setV_sdcnt (t : Thread) (w : VWrite) : (t.setV w).sdcnt = t.sdcnt := rfl
@[simp] theorem Thread.setV_sbstat (t : Thread) (w : VWrite) : (t.setV w).sbstat = t.sbstat := rfl
@[simp] theorem Thread.setV_rdrop (t : Thread) (w : VWrite) : (t.setV w).rdrop = t.rdrop := rfl
@[simp] theorem Thread.setV_tmocnt (t : Thread) (w : VWrite) : (t.setV w).tmocnt = t.tmocnt := rfl
@[simp] theorem Thread.setV_tmolim (t : Thread) (w : VWrite) : (t.setV w).tmolim = t.tmolim := rfl
@[simp] theorem Thread.setV_wceil (t : Thread) (w : VWrite) : (t.setV w).wceil = t.wceil := rfl
@[simp] theorem Thread.setV_tvec (t : Thread) (w : VWrite) : (t.setV w).tvec = t.tvec := rfl
@[simp] theorem Thread.setV_bank0 (t : Thread) (w : VWrite) : (t.setV w).bank0 = t.bank0 := rfl
@[simp] theorem Thread.setV_bank1 (t : Thread) (w : VWrite) : (t.setV w).bank1 = t.bank1 := rfl
@[simp] theorem Thread.setV_empty (t : Thread) (w : VWrite) : (t.setV w).empty = t.empty := rfl
@[simp] theorem Thread.setV_winCount (t : Thread) (w : VWrite) : (t.setV w).winCount = t.winCount := rfl
@[simp] theorem Thread.setV_winIdx (t : Thread) (w : VWrite) : (t.setV w).winIdx = t.winIdx := rfl
@[simp] theorem Thread.setV_block (t : Thread) (w : VWrite) : (t.setV w).block = t.block := rfl
@[simp] theorem Thread.setV_issued (t : Thread) (w : VWrite) : (t.setV w).issued = t.issued := rfl
@[simp] theorem Thread.setV_walking (t : Thread) (w : VWrite) : (t.setV w).walking = t.walking := rfl
@[simp] theorem Thread.setV_snap (t : Thread) (w : VWrite) : (t.setV w).snap = t.snap := rfl
@[simp] theorem Thread.setV_wait (t : Thread) (w : VWrite) : (t.setV w).wait = t.wait := rfl
@[simp] theorem Thread.setV_susp (t : Thread) (w : VWrite) : (t.setV w).susp = t.susp := rfl
@[simp] theorem Thread.setV_mon (t : Thread) (w : VWrite) : (t.setV w).mon = t.mon := rfl
@[simp] theorem Thread.setV_moveSpur (t : Thread) (w : VWrite) : (t.setV w).moveSpur = t.moveSpur := rfl
@[simp] theorem Thread.setV_streams (t : Thread) (w : VWrite) : (t.setV w).streams = t.streams := rfl
@[simp] theorem Thread.setV_logical (t : Thread) (w : VWrite) : (t.setV w).logical = t.logical := rfl
@[simp] theorem Thread.setV_bpIgnore (t : Thread) (w : VWrite) : (t.setV w).bpIgnore = t.bpIgnore := rfl
@[simp] theorem Thread.setV_preempt (t : Thread) (w : VWrite) : (t.setV w).preempt = t.preempt := rfl
@[simp] theorem Thread.setV_migrate (t : Thread) (w : VWrite) : (t.setV w).migrate = t.migrate := rfl
@[simp] theorem Thread.setV_migrating (t : Thread) (w : VWrite) : (t.setV w).migrating = t.migrating := rfl
@[simp] theorem Thread.setV_shedReq (t : Thread) (w : VWrite) : (t.setV w).shedReq = t.shedReq := rfl
@[simp] theorem Thread.setV_parkedAt (t : Thread) (w : VWrite) : (t.setV w).parkedAt = t.parkedAt := rfl
@[simp] theorem Thread.setV_reportedA (t : Thread) (w : VWrite) : (t.setV w).reportedA = t.reportedA := rfl
@[simp] theorem Thread.setV_reportedB (t : Thread) (w : VWrite) : (t.setV w).reportedB = t.reportedB := rfl
@[simp] theorem Thread.setV_stale (t : Thread) (w : VWrite) : (t.setV w).stale = t.stale := rfl
@[simp] theorem Thread.setV_saved (t : Thread) (w : VWrite) : (t.setV w).saved = t.saved := rfl
@[simp] theorem Thread.setV_pcoreAt (t : Thread) (w : VWrite) : (t.setV w).pcoreAt = t.pcoreAt := rfl
@[simp] theorem Thread.setV_escDue (t : Thread) (w : VWrite) : (t.setV w).escDue = t.escDue := rfl
@[simp] theorem Thread.setV_issuedAt (t : Thread) (w : VWrite) : (t.setV w).issuedAt = t.issuedAt := rfl
@[simp] theorem Thread.setV_hwAc (t : Thread) (w : VWrite) : (t.setV w).hwAc = t.hwAc := rfl
@[simp] theorem Thread.setV_hw (t : Thread) (w : VWrite) : (t.setV w).hw = t.hw := rfl
@[simp] theorem Thread.setV_followTo (t : Thread) (w : VWrite) : (t.setV w).followTo = t.followTo := rfl
@[simp] theorem Thread.setV_image (t : Thread) (w : VWrite) : (t.setV w).image = t.image := rfl
@[simp] theorem Thread.setV_fences (t : Thread) (w : VWrite) : (t.setV w).fences = t.fences := rfl

@[simp] theorem Thread.setM_place (t : Thread) (w : MWrite) : (t.setM w).place = t.place := by unfold Thread.setM; split <;> rfl
@[simp] theorem Thread.setM_run (t : Thread) (w : MWrite) : (t.setM w).run = t.run := by unfold Thread.setM; split <;> rfl
@[simp] theorem Thread.setM_shed (t : Thread) (w : MWrite) : (t.setM w).shed = t.shed := by unfold Thread.setM; split <;> rfl
@[simp] theorem Thread.setM_light (t : Thread) (w : MWrite) : (t.setM w).light = t.light := by unfold Thread.setM; split <;> rfl
@[simp] theorem Thread.setM_ctx (t : Thread) (w : MWrite) : (t.setM w).ctx = t.ctx := by unfold Thread.setM; split <;> rfl
@[simp] theorem Thread.setM_cls (t : Thread) (w : MWrite) : (t.setM w).cls = t.cls := by unfold Thread.setM; split <;> rfl
@[simp] theorem Thread.setM_kernel (t : Thread) (w : MWrite) : (t.setM w).kernel = t.kernel := by unfold Thread.setM; split <;> rfl
@[simp] theorem Thread.setM_follow (t : Thread) (w : MWrite) : (t.setM w).follow = t.follow := by unfold Thread.setM; split <;> rfl
@[simp] theorem Thread.setM_pc (t : Thread) (w : MWrite) : (t.setM w).pc = t.pc := by unfold Thread.setM; split <;> rfl
@[simp] theorem Thread.setM_x (t : Thread) (w : MWrite) : (t.setM w).x = t.x := by unfold Thread.setM; split <;> rfl
@[simp] theorem Thread.setM_v (t : Thread) (w : MWrite) : (t.setM w).v = t.v := by unfold Thread.setM; split <;> rfl
@[simp] theorem Thread.setM_sup (t : Thread) (w : MWrite) : (t.setM w).sup = t.sup := by unfold Thread.setM; split <;> rfl
@[simp] theorem Thread.setM_level (t : Thread) (w : MWrite) : (t.setM w).level = t.level := by unfold Thread.setM; split <;> rfl
@[simp] theorem Thread.setM_vflags (t : Thread) (w : MWrite) : (t.setM w).vflags = t.vflags := by unfold Thread.setM; split <;> rfl
@[simp] theorem Thread.setM_lutb (t : Thread) (w : MWrite) : (t.setM w).lutb = t.lutb := by unfold Thread.setM; split <;> rfl
@[simp] theorem Thread.setM_mfmt (t : Thread) (w : MWrite) : (t.setM w).mfmt = t.mfmt := by unfold Thread.setM; split <;> rfl
@[simp] theorem Thread.setM_mscl (t : Thread) (w : MWrite) : (t.setM w).mscl = t.mscl := by unfold Thread.setM; split <;> rfl
@[simp] theorem Thread.setM_mprog (t : Thread) (w : MWrite) : (t.setM w).mprog = t.mprog := by unfold Thread.setM; split <;> rfl
@[simp] theorem Thread.setM_mprogOf (t : Thread) (w : MWrite) : (t.setM w).mprogOf = t.mprogOf := by unfold Thread.setM; split <;> rfl
@[simp] theorem Thread.setM_sdcnt (t : Thread) (w : MWrite) : (t.setM w).sdcnt = t.sdcnt := by unfold Thread.setM; split <;> rfl
@[simp] theorem Thread.setM_sbstat (t : Thread) (w : MWrite) : (t.setM w).sbstat = t.sbstat := by unfold Thread.setM; split <;> rfl
@[simp] theorem Thread.setM_rdrop (t : Thread) (w : MWrite) : (t.setM w).rdrop = t.rdrop := by unfold Thread.setM; split <;> rfl
@[simp] theorem Thread.setM_tmocnt (t : Thread) (w : MWrite) : (t.setM w).tmocnt = t.tmocnt := by unfold Thread.setM; split <;> rfl
@[simp] theorem Thread.setM_tmolim (t : Thread) (w : MWrite) : (t.setM w).tmolim = t.tmolim := by unfold Thread.setM; split <;> rfl
@[simp] theorem Thread.setM_wceil (t : Thread) (w : MWrite) : (t.setM w).wceil = t.wceil := by unfold Thread.setM; split <;> rfl
@[simp] theorem Thread.setM_tvec (t : Thread) (w : MWrite) : (t.setM w).tvec = t.tvec := by unfold Thread.setM; split <;> rfl
@[simp] theorem Thread.setM_bank0 (t : Thread) (w : MWrite) : (t.setM w).bank0 = t.bank0 := by unfold Thread.setM; split <;> rfl
@[simp] theorem Thread.setM_bank1 (t : Thread) (w : MWrite) : (t.setM w).bank1 = t.bank1 := by unfold Thread.setM; split <;> rfl
@[simp] theorem Thread.setM_empty (t : Thread) (w : MWrite) : (t.setM w).empty = t.empty := by unfold Thread.setM; split <;> rfl
@[simp] theorem Thread.setM_winCount (t : Thread) (w : MWrite) : (t.setM w).winCount = t.winCount := by unfold Thread.setM; split <;> rfl
@[simp] theorem Thread.setM_winIdx (t : Thread) (w : MWrite) : (t.setM w).winIdx = t.winIdx := by unfold Thread.setM; split <;> rfl
@[simp] theorem Thread.setM_block (t : Thread) (w : MWrite) : (t.setM w).block = t.block := by unfold Thread.setM; split <;> rfl
@[simp] theorem Thread.setM_issued (t : Thread) (w : MWrite) : (t.setM w).issued = t.issued := by unfold Thread.setM; split <;> rfl
@[simp] theorem Thread.setM_walking (t : Thread) (w : MWrite) : (t.setM w).walking = t.walking := by unfold Thread.setM; split <;> rfl
@[simp] theorem Thread.setM_snap (t : Thread) (w : MWrite) : (t.setM w).snap = t.snap := by unfold Thread.setM; split <;> rfl
@[simp] theorem Thread.setM_wait (t : Thread) (w : MWrite) : (t.setM w).wait = t.wait := by unfold Thread.setM; split <;> rfl
@[simp] theorem Thread.setM_susp (t : Thread) (w : MWrite) : (t.setM w).susp = t.susp := by unfold Thread.setM; split <;> rfl
@[simp] theorem Thread.setM_mon (t : Thread) (w : MWrite) : (t.setM w).mon = t.mon := by unfold Thread.setM; split <;> rfl
@[simp] theorem Thread.setM_moveSpur (t : Thread) (w : MWrite) : (t.setM w).moveSpur = t.moveSpur := by unfold Thread.setM; split <;> rfl
@[simp] theorem Thread.setM_streams (t : Thread) (w : MWrite) : (t.setM w).streams = t.streams := by unfold Thread.setM; split <;> rfl
@[simp] theorem Thread.setM_logical (t : Thread) (w : MWrite) : (t.setM w).logical = t.logical := by unfold Thread.setM; split <;> rfl
@[simp] theorem Thread.setM_bpIgnore (t : Thread) (w : MWrite) : (t.setM w).bpIgnore = t.bpIgnore := by unfold Thread.setM; split <;> rfl
@[simp] theorem Thread.setM_preempt (t : Thread) (w : MWrite) : (t.setM w).preempt = t.preempt := by unfold Thread.setM; split <;> rfl
@[simp] theorem Thread.setM_migrate (t : Thread) (w : MWrite) : (t.setM w).migrate = t.migrate := by unfold Thread.setM; split <;> rfl
@[simp] theorem Thread.setM_migrating (t : Thread) (w : MWrite) : (t.setM w).migrating = t.migrating := by unfold Thread.setM; split <;> rfl
@[simp] theorem Thread.setM_shedReq (t : Thread) (w : MWrite) : (t.setM w).shedReq = t.shedReq := by unfold Thread.setM; split <;> rfl
@[simp] theorem Thread.setM_parkedAt (t : Thread) (w : MWrite) : (t.setM w).parkedAt = t.parkedAt := by unfold Thread.setM; split <;> rfl
@[simp] theorem Thread.setM_reportedA (t : Thread) (w : MWrite) : (t.setM w).reportedA = t.reportedA := by unfold Thread.setM; split <;> rfl
@[simp] theorem Thread.setM_reportedB (t : Thread) (w : MWrite) : (t.setM w).reportedB = t.reportedB := by unfold Thread.setM; split <;> rfl
@[simp] theorem Thread.setM_stale (t : Thread) (w : MWrite) : (t.setM w).stale = t.stale := by unfold Thread.setM; split <;> rfl
@[simp] theorem Thread.setM_saved (t : Thread) (w : MWrite) : (t.setM w).saved = t.saved := by unfold Thread.setM; split <;> rfl
@[simp] theorem Thread.setM_pcoreAt (t : Thread) (w : MWrite) : (t.setM w).pcoreAt = t.pcoreAt := by unfold Thread.setM; split <;> rfl
@[simp] theorem Thread.setM_escDue (t : Thread) (w : MWrite) : (t.setM w).escDue = t.escDue := by unfold Thread.setM; split <;> rfl
@[simp] theorem Thread.setM_issuedAt (t : Thread) (w : MWrite) : (t.setM w).issuedAt = t.issuedAt := by unfold Thread.setM; split <;> rfl
@[simp] theorem Thread.setM_hwAc (t : Thread) (w : MWrite) : (t.setM w).hwAc = t.hwAc := by unfold Thread.setM; split <;> rfl
@[simp] theorem Thread.setM_hw (t : Thread) (w : MWrite) : (t.setM w).hw = t.hw := by unfold Thread.setM; split <;> rfl
@[simp] theorem Thread.setM_followTo (t : Thread) (w : MWrite) : (t.setM w).followTo = t.followTo := by unfold Thread.setM; split <;> rfl
@[simp] theorem Thread.setM_image (t : Thread) (w : MWrite) : (t.setM w).image = t.image := by unfold Thread.setM; split <;> rfl
@[simp] theorem Thread.setM_fences (t : Thread) (w : MWrite) : (t.setM w).fences = t.fences := by unfold Thread.setM; split <;> rfl

@[simp] theorem Thread.countCsr_place (t : Thread) (n : Nat) : (t.countCsr n).place = t.place := by
  unfold Thread.countCsr; split <;> rfl
@[simp] theorem Thread.countCsr_run (t : Thread) (n : Nat) : (t.countCsr n).run = t.run := by
  unfold Thread.countCsr; split <;> rfl
@[simp] theorem Thread.countCsr_shed (t : Thread) (n : Nat) : (t.countCsr n).shed = t.shed := by
  unfold Thread.countCsr; split <;> rfl
@[simp] theorem Thread.countCsr_light (t : Thread) (n : Nat) : (t.countCsr n).light = t.light := by
  unfold Thread.countCsr; split <;> rfl
@[simp] theorem Thread.countCsr_ctx (t : Thread) (n : Nat) : (t.countCsr n).ctx = t.ctx := by
  unfold Thread.countCsr; split <;> rfl
@[simp] theorem Thread.countCsr_cls (t : Thread) (n : Nat) : (t.countCsr n).cls = t.cls := by
  unfold Thread.countCsr; split <;> rfl
@[simp] theorem Thread.countCsr_kernel (t : Thread) (n : Nat) : (t.countCsr n).kernel = t.kernel := by
  unfold Thread.countCsr; split <;> rfl
@[simp] theorem Thread.countCsr_follow (t : Thread) (n : Nat) : (t.countCsr n).follow = t.follow := by
  unfold Thread.countCsr; split <;> rfl
@[simp] theorem Thread.countCsr_pc (t : Thread) (n : Nat) : (t.countCsr n).pc = t.pc := by
  unfold Thread.countCsr; split <;> rfl
@[simp] theorem Thread.countCsr_v (t : Thread) (n : Nat) : (t.countCsr n).v = t.v := by
  unfold Thread.countCsr; split <;> rfl
@[simp] theorem Thread.countCsr_m (t : Thread) (n : Nat) : (t.countCsr n).m = t.m := by
  unfold Thread.countCsr; split <;> rfl
@[simp] theorem Thread.countCsr_sup (t : Thread) (n : Nat) : (t.countCsr n).sup = t.sup := by
  unfold Thread.countCsr; split <;> rfl
@[simp] theorem Thread.countCsr_level (t : Thread) (n : Nat) : (t.countCsr n).level = t.level := by
  unfold Thread.countCsr; split <;> rfl
@[simp] theorem Thread.countCsr_vflags (t : Thread) (n : Nat) : (t.countCsr n).vflags = t.vflags := by
  unfold Thread.countCsr; split <;> rfl
@[simp] theorem Thread.countCsr_lutb (t : Thread) (n : Nat) : (t.countCsr n).lutb = t.lutb := by
  unfold Thread.countCsr; split <;> rfl
@[simp] theorem Thread.countCsr_mfmt (t : Thread) (n : Nat) : (t.countCsr n).mfmt = t.mfmt := by
  unfold Thread.countCsr; split <;> rfl
@[simp] theorem Thread.countCsr_mscl (t : Thread) (n : Nat) : (t.countCsr n).mscl = t.mscl := by
  unfold Thread.countCsr; split <;> rfl
@[simp] theorem Thread.countCsr_mprog (t : Thread) (n : Nat) : (t.countCsr n).mprog = t.mprog := by
  unfold Thread.countCsr; split <;> rfl
@[simp] theorem Thread.countCsr_mprogOf (t : Thread) (n : Nat) : (t.countCsr n).mprogOf = t.mprogOf := by
  unfold Thread.countCsr; split <;> rfl
@[simp] theorem Thread.countCsr_sdcnt (t : Thread) (n : Nat) : (t.countCsr n).sdcnt = t.sdcnt := by
  unfold Thread.countCsr; split <;> rfl
@[simp] theorem Thread.countCsr_sbstat (t : Thread) (n : Nat) : (t.countCsr n).sbstat = t.sbstat := by
  unfold Thread.countCsr; split <;> rfl
@[simp] theorem Thread.countCsr_tmolim (t : Thread) (n : Nat) : (t.countCsr n).tmolim = t.tmolim := by
  unfold Thread.countCsr; split <;> rfl
@[simp] theorem Thread.countCsr_wceil (t : Thread) (n : Nat) : (t.countCsr n).wceil = t.wceil := by
  unfold Thread.countCsr; split <;> rfl
@[simp] theorem Thread.countCsr_tvec (t : Thread) (n : Nat) : (t.countCsr n).tvec = t.tvec := by
  unfold Thread.countCsr; split <;> rfl
@[simp] theorem Thread.countCsr_bank0 (t : Thread) (n : Nat) : (t.countCsr n).bank0 = t.bank0 := by
  unfold Thread.countCsr; split <;> rfl
@[simp] theorem Thread.countCsr_bank1 (t : Thread) (n : Nat) : (t.countCsr n).bank1 = t.bank1 := by
  unfold Thread.countCsr; split <;> rfl
@[simp] theorem Thread.countCsr_winCount (t : Thread) (n : Nat) : (t.countCsr n).winCount = t.winCount := by
  unfold Thread.countCsr; split <;> rfl
@[simp] theorem Thread.countCsr_winIdx (t : Thread) (n : Nat) : (t.countCsr n).winIdx = t.winIdx := by
  unfold Thread.countCsr; split <;> rfl
@[simp] theorem Thread.countCsr_block (t : Thread) (n : Nat) : (t.countCsr n).block = t.block := by
  unfold Thread.countCsr; split <;> rfl
@[simp] theorem Thread.countCsr_issued (t : Thread) (n : Nat) : (t.countCsr n).issued = t.issued := by
  unfold Thread.countCsr; split <;> rfl
@[simp] theorem Thread.countCsr_walking (t : Thread) (n : Nat) : (t.countCsr n).walking = t.walking := by
  unfold Thread.countCsr; split <;> rfl
@[simp] theorem Thread.countCsr_snap (t : Thread) (n : Nat) : (t.countCsr n).snap = t.snap := by
  unfold Thread.countCsr; split <;> rfl
@[simp] theorem Thread.countCsr_wait (t : Thread) (n : Nat) : (t.countCsr n).wait = t.wait := by
  unfold Thread.countCsr; split <;> rfl
@[simp] theorem Thread.countCsr_susp (t : Thread) (n : Nat) : (t.countCsr n).susp = t.susp := by
  unfold Thread.countCsr; split <;> rfl
@[simp] theorem Thread.countCsr_mon (t : Thread) (n : Nat) : (t.countCsr n).mon = t.mon := by
  unfold Thread.countCsr; split <;> rfl
@[simp] theorem Thread.countCsr_moveSpur (t : Thread) (n : Nat) : (t.countCsr n).moveSpur = t.moveSpur := by
  unfold Thread.countCsr; split <;> rfl
@[simp] theorem Thread.countCsr_streams (t : Thread) (n : Nat) : (t.countCsr n).streams = t.streams := by
  unfold Thread.countCsr; split <;> rfl
@[simp] theorem Thread.countCsr_logical (t : Thread) (n : Nat) : (t.countCsr n).logical = t.logical := by
  unfold Thread.countCsr; split <;> rfl
@[simp] theorem Thread.countCsr_bpIgnore (t : Thread) (n : Nat) : (t.countCsr n).bpIgnore = t.bpIgnore := by
  unfold Thread.countCsr; split <;> rfl
@[simp] theorem Thread.countCsr_preempt (t : Thread) (n : Nat) : (t.countCsr n).preempt = t.preempt := by
  unfold Thread.countCsr; split <;> rfl
@[simp] theorem Thread.countCsr_migrate (t : Thread) (n : Nat) : (t.countCsr n).migrate = t.migrate := by
  unfold Thread.countCsr; split <;> rfl
@[simp] theorem Thread.countCsr_migrating (t : Thread) (n : Nat) : (t.countCsr n).migrating = t.migrating := by
  unfold Thread.countCsr; split <;> rfl
@[simp] theorem Thread.countCsr_shedReq (t : Thread) (n : Nat) : (t.countCsr n).shedReq = t.shedReq := by
  unfold Thread.countCsr; split <;> rfl
@[simp] theorem Thread.countCsr_parkedAt (t : Thread) (n : Nat) : (t.countCsr n).parkedAt = t.parkedAt := by
  unfold Thread.countCsr; split <;> rfl
@[simp] theorem Thread.countCsr_reportedA (t : Thread) (n : Nat) : (t.countCsr n).reportedA = t.reportedA := by
  unfold Thread.countCsr; split <;> rfl
@[simp] theorem Thread.countCsr_reportedB (t : Thread) (n : Nat) : (t.countCsr n).reportedB = t.reportedB := by
  unfold Thread.countCsr; split <;> rfl
@[simp] theorem Thread.countCsr_stale (t : Thread) (n : Nat) : (t.countCsr n).stale = t.stale := by
  unfold Thread.countCsr; split <;> rfl
@[simp] theorem Thread.countCsr_saved (t : Thread) (n : Nat) : (t.countCsr n).saved = t.saved := by
  unfold Thread.countCsr; split <;> rfl
@[simp] theorem Thread.countCsr_pcoreAt (t : Thread) (n : Nat) : (t.countCsr n).pcoreAt = t.pcoreAt := by
  unfold Thread.countCsr; split <;> rfl
@[simp] theorem Thread.countCsr_escDue (t : Thread) (n : Nat) : (t.countCsr n).escDue = t.escDue := by
  unfold Thread.countCsr; split <;> rfl
@[simp] theorem Thread.countCsr_issuedAt (t : Thread) (n : Nat) : (t.countCsr n).issuedAt = t.issuedAt := by
  unfold Thread.countCsr; split <;> rfl
@[simp] theorem Thread.countCsr_followTo (t : Thread) (n : Nat) : (t.countCsr n).followTo = t.followTo := by
  unfold Thread.countCsr; split <;> rfl
@[simp] theorem Thread.countCsr_image (t : Thread) (n : Nat) : (t.countCsr n).image = t.image := by
  unfold Thread.countCsr; split <;> rfl
@[simp] theorem Thread.countCsr_x (t : Thread) (n : Nat) : (t.countCsr n).x = t.x := by
  unfold Thread.countCsr; split <;> rfl
@[simp] theorem Thread.countCsr_empty (t : Thread) (n : Nat) : (t.countCsr n).empty = t.empty := by
  unfold Thread.countCsr; split <;> rfl
@[simp] theorem Thread.countCsr_hw (t : Thread) (n : Nat) : (t.countCsr n).hw = t.hw := by
  unfold Thread.countCsr; split <;> rfl
@[simp] theorem Thread.countCsr_hwAc (t : Thread) (n : Nat) : (t.countCsr n).hwAc = t.hwAc := by
  unfold Thread.countCsr; split <;> rfl
@[simp] theorem Thread.countCsr_drop_tmocnt (t : Thread) : (t.countCsr 0x009).tmocnt = t.tmocnt := rfl
@[simp] theorem Thread.countCsr_fences (t : Thread) (n : Nat) : (t.countCsr n).fences = t.fences := by
  unfold Thread.countCsr; split <;> rfl

@[simp] theorem Thread.noteHw_place (t : Thread) (ac : Nat) (h : HwChange) : (t.noteHw ac h).place = t.place := rfl
@[simp] theorem Thread.noteHw_run (t : Thread) (ac : Nat) (h : HwChange) : (t.noteHw ac h).run = t.run := rfl
@[simp] theorem Thread.noteHw_shed (t : Thread) (ac : Nat) (h : HwChange) : (t.noteHw ac h).shed = t.shed := rfl
@[simp] theorem Thread.noteHw_light (t : Thread) (ac : Nat) (h : HwChange) : (t.noteHw ac h).light = t.light := rfl
@[simp] theorem Thread.noteHw_ctx (t : Thread) (ac : Nat) (h : HwChange) : (t.noteHw ac h).ctx = t.ctx := rfl
@[simp] theorem Thread.noteHw_cls (t : Thread) (ac : Nat) (h : HwChange) : (t.noteHw ac h).cls = t.cls := rfl
@[simp] theorem Thread.noteHw_kernel (t : Thread) (ac : Nat) (h : HwChange) : (t.noteHw ac h).kernel = t.kernel := rfl
@[simp] theorem Thread.noteHw_follow (t : Thread) (ac : Nat) (h : HwChange) : (t.noteHw ac h).follow = t.follow := rfl
@[simp] theorem Thread.noteHw_pc (t : Thread) (ac : Nat) (h : HwChange) : (t.noteHw ac h).pc = t.pc := rfl
@[simp] theorem Thread.noteHw_v (t : Thread) (ac : Nat) (h : HwChange) : (t.noteHw ac h).v = t.v := rfl
@[simp] theorem Thread.noteHw_m (t : Thread) (ac : Nat) (h : HwChange) : (t.noteHw ac h).m = t.m := rfl
@[simp] theorem Thread.noteHw_sup (t : Thread) (ac : Nat) (h : HwChange) : (t.noteHw ac h).sup = t.sup := rfl
@[simp] theorem Thread.noteHw_level (t : Thread) (ac : Nat) (h : HwChange) : (t.noteHw ac h).level = t.level := rfl
@[simp] theorem Thread.noteHw_vflags (t : Thread) (ac : Nat) (h : HwChange) : (t.noteHw ac h).vflags = t.vflags := rfl
@[simp] theorem Thread.noteHw_lutb (t : Thread) (ac : Nat) (h : HwChange) : (t.noteHw ac h).lutb = t.lutb := rfl
@[simp] theorem Thread.noteHw_mfmt (t : Thread) (ac : Nat) (h : HwChange) : (t.noteHw ac h).mfmt = t.mfmt := rfl
@[simp] theorem Thread.noteHw_mscl (t : Thread) (ac : Nat) (h : HwChange) : (t.noteHw ac h).mscl = t.mscl := rfl
@[simp] theorem Thread.noteHw_mprog (t : Thread) (ac : Nat) (h : HwChange) : (t.noteHw ac h).mprog = t.mprog := rfl
@[simp] theorem Thread.noteHw_mprogOf (t : Thread) (ac : Nat) (h : HwChange) : (t.noteHw ac h).mprogOf = t.mprogOf := rfl
@[simp] theorem Thread.noteHw_sdcnt (t : Thread) (ac : Nat) (h : HwChange) : (t.noteHw ac h).sdcnt = t.sdcnt := rfl
@[simp] theorem Thread.noteHw_sbstat (t : Thread) (ac : Nat) (h : HwChange) : (t.noteHw ac h).sbstat = t.sbstat := rfl
@[simp] theorem Thread.noteHw_tmocnt (t : Thread) (ac : Nat) (h : HwChange) : (t.noteHw ac h).tmocnt = t.tmocnt := rfl
@[simp] theorem Thread.noteHw_tmolim (t : Thread) (ac : Nat) (h : HwChange) : (t.noteHw ac h).tmolim = t.tmolim := rfl
@[simp] theorem Thread.noteHw_wceil (t : Thread) (ac : Nat) (h : HwChange) : (t.noteHw ac h).wceil = t.wceil := rfl
@[simp] theorem Thread.noteHw_tvec (t : Thread) (ac : Nat) (h : HwChange) : (t.noteHw ac h).tvec = t.tvec := rfl
@[simp] theorem Thread.noteHw_bank0 (t : Thread) (ac : Nat) (h : HwChange) : (t.noteHw ac h).bank0 = t.bank0 := rfl
@[simp] theorem Thread.noteHw_bank1 (t : Thread) (ac : Nat) (h : HwChange) : (t.noteHw ac h).bank1 = t.bank1 := rfl
@[simp] theorem Thread.noteHw_winCount (t : Thread) (ac : Nat) (h : HwChange) : (t.noteHw ac h).winCount = t.winCount := rfl
@[simp] theorem Thread.noteHw_winIdx (t : Thread) (ac : Nat) (h : HwChange) : (t.noteHw ac h).winIdx = t.winIdx := rfl
@[simp] theorem Thread.noteHw_block (t : Thread) (ac : Nat) (h : HwChange) : (t.noteHw ac h).block = t.block := rfl
@[simp] theorem Thread.noteHw_issued (t : Thread) (ac : Nat) (h : HwChange) : (t.noteHw ac h).issued = t.issued := rfl
@[simp] theorem Thread.noteHw_walking (t : Thread) (ac : Nat) (h : HwChange) : (t.noteHw ac h).walking = t.walking := rfl
@[simp] theorem Thread.noteHw_snap (t : Thread) (ac : Nat) (h : HwChange) : (t.noteHw ac h).snap = t.snap := rfl
@[simp] theorem Thread.noteHw_wait (t : Thread) (ac : Nat) (h : HwChange) : (t.noteHw ac h).wait = t.wait := rfl
@[simp] theorem Thread.noteHw_susp (t : Thread) (ac : Nat) (h : HwChange) : (t.noteHw ac h).susp = t.susp := rfl
@[simp] theorem Thread.noteHw_mon (t : Thread) (ac : Nat) (h : HwChange) : (t.noteHw ac h).mon = t.mon := rfl
@[simp] theorem Thread.noteHw_moveSpur (t : Thread) (ac : Nat) (h : HwChange) : (t.noteHw ac h).moveSpur = t.moveSpur := rfl
@[simp] theorem Thread.noteHw_streams (t : Thread) (ac : Nat) (h : HwChange) : (t.noteHw ac h).streams = t.streams := rfl
@[simp] theorem Thread.noteHw_logical (t : Thread) (ac : Nat) (h : HwChange) : (t.noteHw ac h).logical = t.logical := rfl
@[simp] theorem Thread.noteHw_bpIgnore (t : Thread) (ac : Nat) (h : HwChange) : (t.noteHw ac h).bpIgnore = t.bpIgnore := rfl
@[simp] theorem Thread.noteHw_preempt (t : Thread) (ac : Nat) (h : HwChange) : (t.noteHw ac h).preempt = t.preempt := rfl
@[simp] theorem Thread.noteHw_migrate (t : Thread) (ac : Nat) (h : HwChange) : (t.noteHw ac h).migrate = t.migrate := rfl
@[simp] theorem Thread.noteHw_migrating (t : Thread) (ac : Nat) (h : HwChange) : (t.noteHw ac h).migrating = t.migrating := rfl
@[simp] theorem Thread.noteHw_shedReq (t : Thread) (ac : Nat) (h : HwChange) : (t.noteHw ac h).shedReq = t.shedReq := rfl
@[simp] theorem Thread.noteHw_parkedAt (t : Thread) (ac : Nat) (h : HwChange) : (t.noteHw ac h).parkedAt = t.parkedAt := rfl
@[simp] theorem Thread.noteHw_reportedA (t : Thread) (ac : Nat) (h : HwChange) : (t.noteHw ac h).reportedA = t.reportedA := rfl
@[simp] theorem Thread.noteHw_reportedB (t : Thread) (ac : Nat) (h : HwChange) : (t.noteHw ac h).reportedB = t.reportedB := rfl
@[simp] theorem Thread.noteHw_stale (t : Thread) (ac : Nat) (h : HwChange) : (t.noteHw ac h).stale = t.stale := rfl
@[simp] theorem Thread.noteHw_saved (t : Thread) (ac : Nat) (h : HwChange) : (t.noteHw ac h).saved = t.saved := rfl
@[simp] theorem Thread.noteHw_pcoreAt (t : Thread) (ac : Nat) (h : HwChange) : (t.noteHw ac h).pcoreAt = t.pcoreAt := rfl
@[simp] theorem Thread.noteHw_escDue (t : Thread) (ac : Nat) (h : HwChange) : (t.noteHw ac h).escDue = t.escDue := rfl
@[simp] theorem Thread.noteHw_issuedAt (t : Thread) (ac : Nat) (h : HwChange) : (t.noteHw ac h).issuedAt = t.issuedAt := rfl
@[simp] theorem Thread.noteHw_followTo (t : Thread) (ac : Nat) (h : HwChange) : (t.noteHw ac h).followTo = t.followTo := rfl
@[simp] theorem Thread.noteHw_image (t : Thread) (ac : Nat) (h : HwChange) : (t.noteHw ac h).image = t.image := rfl
@[simp] theorem Thread.noteHw_x (t : Thread) (ac : Nat) (h : HwChange) : (t.noteHw ac h).x = t.x := rfl
@[simp] theorem Thread.noteHw_empty (t : Thread) (ac : Nat) (h : HwChange) : (t.noteHw ac h).empty = t.empty := rfl
@[simp] theorem Thread.noteHw_rdrop (t : Thread) (ac : Nat) (h : HwChange) : (t.noteHw ac h).rdrop = t.rdrop := rfl
@[simp] theorem Thread.noteHw_fences (t : Thread) (ac : Nat) (h : HwChange) : (t.noteHw ac h).fences = t.fences := rfl

@[simp] theorem Thread.noteBase_place (t : Thread) (ac n : Nat) (v : Word) : (t.noteBase ac n v).place = t.place := by
  unfold Thread.noteBase; split <;> simp
@[simp] theorem Thread.noteBase_run (t : Thread) (ac n : Nat) (v : Word) : (t.noteBase ac n v).run = t.run := by
  unfold Thread.noteBase; split <;> simp
@[simp] theorem Thread.noteBase_shed (t : Thread) (ac n : Nat) (v : Word) : (t.noteBase ac n v).shed = t.shed := by
  unfold Thread.noteBase; split <;> simp
@[simp] theorem Thread.noteBase_light (t : Thread) (ac n : Nat) (v : Word) : (t.noteBase ac n v).light = t.light := by
  unfold Thread.noteBase; split <;> simp
@[simp] theorem Thread.noteBase_ctx (t : Thread) (ac n : Nat) (v : Word) : (t.noteBase ac n v).ctx = t.ctx := by
  unfold Thread.noteBase; split <;> simp
@[simp] theorem Thread.noteBase_cls (t : Thread) (ac n : Nat) (v : Word) : (t.noteBase ac n v).cls = t.cls := by
  unfold Thread.noteBase; split <;> simp
@[simp] theorem Thread.noteBase_kernel (t : Thread) (ac n : Nat) (v : Word) : (t.noteBase ac n v).kernel = t.kernel := by
  unfold Thread.noteBase; split <;> simp
@[simp] theorem Thread.noteBase_follow (t : Thread) (ac n : Nat) (v : Word) : (t.noteBase ac n v).follow = t.follow := by
  unfold Thread.noteBase; split <;> simp
@[simp] theorem Thread.noteBase_pc (t : Thread) (ac n : Nat) (v : Word) : (t.noteBase ac n v).pc = t.pc := by
  unfold Thread.noteBase; split <;> simp
@[simp] theorem Thread.noteBase_v (t : Thread) (ac n : Nat) (v : Word) : (t.noteBase ac n v).v = t.v := by
  unfold Thread.noteBase; split <;> simp
@[simp] theorem Thread.noteBase_m (t : Thread) (ac n : Nat) (v : Word) : (t.noteBase ac n v).m = t.m := by
  unfold Thread.noteBase; split <;> simp
@[simp] theorem Thread.noteBase_sup (t : Thread) (ac n : Nat) (v : Word) : (t.noteBase ac n v).sup = t.sup := by
  unfold Thread.noteBase; split <;> simp
@[simp] theorem Thread.noteBase_level (t : Thread) (ac n : Nat) (v : Word) : (t.noteBase ac n v).level = t.level := by
  unfold Thread.noteBase; split <;> simp
@[simp] theorem Thread.noteBase_vflags (t : Thread) (ac n : Nat) (v : Word) : (t.noteBase ac n v).vflags = t.vflags := by
  unfold Thread.noteBase; split <;> simp
@[simp] theorem Thread.noteBase_lutb (t : Thread) (ac n : Nat) (v : Word) : (t.noteBase ac n v).lutb = t.lutb := by
  unfold Thread.noteBase; split <;> simp
@[simp] theorem Thread.noteBase_mfmt (t : Thread) (ac n : Nat) (v : Word) : (t.noteBase ac n v).mfmt = t.mfmt := by
  unfold Thread.noteBase; split <;> simp
@[simp] theorem Thread.noteBase_mscl (t : Thread) (ac n : Nat) (v : Word) : (t.noteBase ac n v).mscl = t.mscl := by
  unfold Thread.noteBase; split <;> simp
@[simp] theorem Thread.noteBase_mprog (t : Thread) (ac n : Nat) (v : Word) : (t.noteBase ac n v).mprog = t.mprog := by
  unfold Thread.noteBase; split <;> simp
@[simp] theorem Thread.noteBase_mprogOf (t : Thread) (ac n : Nat) (v : Word) : (t.noteBase ac n v).mprogOf = t.mprogOf := by
  unfold Thread.noteBase; split <;> simp
@[simp] theorem Thread.noteBase_sdcnt (t : Thread) (ac n : Nat) (v : Word) : (t.noteBase ac n v).sdcnt = t.sdcnt := by
  unfold Thread.noteBase; split <;> simp
@[simp] theorem Thread.noteBase_sbstat (t : Thread) (ac n : Nat) (v : Word) : (t.noteBase ac n v).sbstat = t.sbstat := by
  unfold Thread.noteBase; split <;> simp
@[simp] theorem Thread.noteBase_tmocnt (t : Thread) (ac n : Nat) (v : Word) : (t.noteBase ac n v).tmocnt = t.tmocnt := by
  unfold Thread.noteBase; split <;> simp
@[simp] theorem Thread.noteBase_tmolim (t : Thread) (ac n : Nat) (v : Word) : (t.noteBase ac n v).tmolim = t.tmolim := by
  unfold Thread.noteBase; split <;> simp
@[simp] theorem Thread.noteBase_wceil (t : Thread) (ac n : Nat) (v : Word) : (t.noteBase ac n v).wceil = t.wceil := by
  unfold Thread.noteBase; split <;> simp
@[simp] theorem Thread.noteBase_tvec (t : Thread) (ac n : Nat) (v : Word) : (t.noteBase ac n v).tvec = t.tvec := by
  unfold Thread.noteBase; split <;> simp
@[simp] theorem Thread.noteBase_bank0 (t : Thread) (ac n : Nat) (v : Word) : (t.noteBase ac n v).bank0 = t.bank0 := by
  unfold Thread.noteBase; split <;> simp
@[simp] theorem Thread.noteBase_bank1 (t : Thread) (ac n : Nat) (v : Word) : (t.noteBase ac n v).bank1 = t.bank1 := by
  unfold Thread.noteBase; split <;> simp
@[simp] theorem Thread.noteBase_winCount (t : Thread) (ac n : Nat) (v : Word) : (t.noteBase ac n v).winCount = t.winCount := by
  unfold Thread.noteBase; split <;> simp
@[simp] theorem Thread.noteBase_winIdx (t : Thread) (ac n : Nat) (v : Word) : (t.noteBase ac n v).winIdx = t.winIdx := by
  unfold Thread.noteBase; split <;> simp
@[simp] theorem Thread.noteBase_block (t : Thread) (ac n : Nat) (v : Word) : (t.noteBase ac n v).block = t.block := by
  unfold Thread.noteBase; split <;> simp
@[simp] theorem Thread.noteBase_issued (t : Thread) (ac n : Nat) (v : Word) : (t.noteBase ac n v).issued = t.issued := by
  unfold Thread.noteBase; split <;> simp
@[simp] theorem Thread.noteBase_walking (t : Thread) (ac n : Nat) (v : Word) : (t.noteBase ac n v).walking = t.walking := by
  unfold Thread.noteBase; split <;> simp
@[simp] theorem Thread.noteBase_snap (t : Thread) (ac n : Nat) (v : Word) : (t.noteBase ac n v).snap = t.snap := by
  unfold Thread.noteBase; split <;> simp
@[simp] theorem Thread.noteBase_wait (t : Thread) (ac n : Nat) (v : Word) : (t.noteBase ac n v).wait = t.wait := by
  unfold Thread.noteBase; split <;> simp
@[simp] theorem Thread.noteBase_susp (t : Thread) (ac n : Nat) (v : Word) : (t.noteBase ac n v).susp = t.susp := by
  unfold Thread.noteBase; split <;> simp
@[simp] theorem Thread.noteBase_mon (t : Thread) (ac n : Nat) (v : Word) : (t.noteBase ac n v).mon = t.mon := by
  unfold Thread.noteBase; split <;> simp
@[simp] theorem Thread.noteBase_moveSpur (t : Thread) (ac n : Nat) (v : Word) : (t.noteBase ac n v).moveSpur = t.moveSpur := by
  unfold Thread.noteBase; split <;> simp
@[simp] theorem Thread.noteBase_streams (t : Thread) (ac n : Nat) (v : Word) : (t.noteBase ac n v).streams = t.streams := by
  unfold Thread.noteBase; split <;> simp
@[simp] theorem Thread.noteBase_logical (t : Thread) (ac n : Nat) (v : Word) : (t.noteBase ac n v).logical = t.logical := by
  unfold Thread.noteBase; split <;> simp
@[simp] theorem Thread.noteBase_bpIgnore (t : Thread) (ac n : Nat) (v : Word) : (t.noteBase ac n v).bpIgnore = t.bpIgnore := by
  unfold Thread.noteBase; split <;> simp
@[simp] theorem Thread.noteBase_preempt (t : Thread) (ac n : Nat) (v : Word) : (t.noteBase ac n v).preempt = t.preempt := by
  unfold Thread.noteBase; split <;> simp
@[simp] theorem Thread.noteBase_migrate (t : Thread) (ac n : Nat) (v : Word) : (t.noteBase ac n v).migrate = t.migrate := by
  unfold Thread.noteBase; split <;> simp
@[simp] theorem Thread.noteBase_migrating (t : Thread) (ac n : Nat) (v : Word) : (t.noteBase ac n v).migrating = t.migrating := by
  unfold Thread.noteBase; split <;> simp
@[simp] theorem Thread.noteBase_shedReq (t : Thread) (ac n : Nat) (v : Word) : (t.noteBase ac n v).shedReq = t.shedReq := by
  unfold Thread.noteBase; split <;> simp
@[simp] theorem Thread.noteBase_parkedAt (t : Thread) (ac n : Nat) (v : Word) : (t.noteBase ac n v).parkedAt = t.parkedAt := by
  unfold Thread.noteBase; split <;> simp
@[simp] theorem Thread.noteBase_reportedA (t : Thread) (ac n : Nat) (v : Word) : (t.noteBase ac n v).reportedA = t.reportedA := by
  unfold Thread.noteBase; split <;> simp
@[simp] theorem Thread.noteBase_reportedB (t : Thread) (ac n : Nat) (v : Word) : (t.noteBase ac n v).reportedB = t.reportedB := by
  unfold Thread.noteBase; split <;> simp
@[simp] theorem Thread.noteBase_stale (t : Thread) (ac n : Nat) (v : Word) : (t.noteBase ac n v).stale = t.stale := by
  unfold Thread.noteBase; split <;> simp
@[simp] theorem Thread.noteBase_saved (t : Thread) (ac n : Nat) (v : Word) : (t.noteBase ac n v).saved = t.saved := by
  unfold Thread.noteBase; split <;> simp
@[simp] theorem Thread.noteBase_pcoreAt (t : Thread) (ac n : Nat) (v : Word) : (t.noteBase ac n v).pcoreAt = t.pcoreAt := by
  unfold Thread.noteBase; split <;> simp
@[simp] theorem Thread.noteBase_escDue (t : Thread) (ac n : Nat) (v : Word) : (t.noteBase ac n v).escDue = t.escDue := by
  unfold Thread.noteBase; split <;> simp
@[simp] theorem Thread.noteBase_issuedAt (t : Thread) (ac n : Nat) (v : Word) : (t.noteBase ac n v).issuedAt = t.issuedAt := by
  unfold Thread.noteBase; split <;> simp
@[simp] theorem Thread.noteBase_followTo (t : Thread) (ac n : Nat) (v : Word) : (t.noteBase ac n v).followTo = t.followTo := by
  unfold Thread.noteBase; split <;> simp
@[simp] theorem Thread.noteBase_image (t : Thread) (ac n : Nat) (v : Word) : (t.noteBase ac n v).image = t.image := by
  unfold Thread.noteBase; split <;> simp
@[simp] theorem Thread.noteBase_x (t : Thread) (ac n : Nat) (v : Word) : (t.noteBase ac n v).x = t.x := by
  unfold Thread.noteBase; split <;> simp
@[simp] theorem Thread.noteBase_empty (t : Thread) (ac n : Nat) (v : Word) : (t.noteBase ac n v).empty = t.empty := by
  unfold Thread.noteBase; split <;> simp
@[simp] theorem Thread.noteBase_rdrop (t : Thread) (ac n : Nat) (v : Word) : (t.noteBase ac n v).rdrop = t.rdrop := by
  unfold Thread.noteBase; split <;> simp
@[simp] theorem Thread.noteBase_fences (t : Thread) (ac n : Nat) (v : Word) : (t.noteBase ac n v).fences = t.fences := by
  unfold Thread.noteBase; split <;> simp

@[simp] theorem Thread.commitX_place (ac : Nat) (t : Thread) (w : XWrite) : (Thread.commitX ac t w).place = t.place := by
  unfold Thread.commitX; split; · rfl
  · split <;> simp
@[simp] theorem Thread.commitX_run (ac : Nat) (t : Thread) (w : XWrite) : (Thread.commitX ac t w).run = t.run := by
  unfold Thread.commitX; split; · rfl
  · split <;> simp
@[simp] theorem Thread.commitX_shed (ac : Nat) (t : Thread) (w : XWrite) : (Thread.commitX ac t w).shed = t.shed := by
  unfold Thread.commitX; split; · rfl
  · split <;> simp
@[simp] theorem Thread.commitX_light (ac : Nat) (t : Thread) (w : XWrite) : (Thread.commitX ac t w).light = t.light := by
  unfold Thread.commitX; split; · rfl
  · split <;> simp
@[simp] theorem Thread.commitX_ctx (ac : Nat) (t : Thread) (w : XWrite) : (Thread.commitX ac t w).ctx = t.ctx := by
  unfold Thread.commitX; split; · rfl
  · split <;> simp
@[simp] theorem Thread.commitX_cls (ac : Nat) (t : Thread) (w : XWrite) : (Thread.commitX ac t w).cls = t.cls := by
  unfold Thread.commitX; split; · rfl
  · split <;> simp
@[simp] theorem Thread.commitX_kernel (ac : Nat) (t : Thread) (w : XWrite) : (Thread.commitX ac t w).kernel = t.kernel := by
  unfold Thread.commitX; split; · rfl
  · split <;> simp
@[simp] theorem Thread.commitX_follow (ac : Nat) (t : Thread) (w : XWrite) : (Thread.commitX ac t w).follow = t.follow := by
  unfold Thread.commitX; split; · rfl
  · split <;> simp
@[simp] theorem Thread.commitX_pc (ac : Nat) (t : Thread) (w : XWrite) : (Thread.commitX ac t w).pc = t.pc := by
  unfold Thread.commitX; split; · rfl
  · split <;> simp
@[simp] theorem Thread.commitX_v (ac : Nat) (t : Thread) (w : XWrite) : (Thread.commitX ac t w).v = t.v := by
  unfold Thread.commitX; split; · rfl
  · split <;> simp
@[simp] theorem Thread.commitX_m (ac : Nat) (t : Thread) (w : XWrite) : (Thread.commitX ac t w).m = t.m := by
  unfold Thread.commitX; split; · rfl
  · split <;> simp
@[simp] theorem Thread.commitX_sup (ac : Nat) (t : Thread) (w : XWrite) : (Thread.commitX ac t w).sup = t.sup := by
  unfold Thread.commitX; split; · rfl
  · split <;> simp
@[simp] theorem Thread.commitX_level (ac : Nat) (t : Thread) (w : XWrite) : (Thread.commitX ac t w).level = t.level := by
  unfold Thread.commitX; split; · rfl
  · split <;> simp
@[simp] theorem Thread.commitX_vflags (ac : Nat) (t : Thread) (w : XWrite) : (Thread.commitX ac t w).vflags = t.vflags := by
  unfold Thread.commitX; split; · rfl
  · split <;> simp
@[simp] theorem Thread.commitX_lutb (ac : Nat) (t : Thread) (w : XWrite) : (Thread.commitX ac t w).lutb = t.lutb := by
  unfold Thread.commitX; split; · rfl
  · split <;> simp
@[simp] theorem Thread.commitX_mfmt (ac : Nat) (t : Thread) (w : XWrite) : (Thread.commitX ac t w).mfmt = t.mfmt := by
  unfold Thread.commitX; split; · rfl
  · split <;> simp
@[simp] theorem Thread.commitX_mscl (ac : Nat) (t : Thread) (w : XWrite) : (Thread.commitX ac t w).mscl = t.mscl := by
  unfold Thread.commitX; split; · rfl
  · split <;> simp
@[simp] theorem Thread.commitX_mprog (ac : Nat) (t : Thread) (w : XWrite) : (Thread.commitX ac t w).mprog = t.mprog := by
  unfold Thread.commitX; split; · rfl
  · split <;> simp
@[simp] theorem Thread.commitX_mprogOf (ac : Nat) (t : Thread) (w : XWrite) : (Thread.commitX ac t w).mprogOf = t.mprogOf := by
  unfold Thread.commitX; split; · rfl
  · split <;> simp
@[simp] theorem Thread.commitX_sdcnt (ac : Nat) (t : Thread) (w : XWrite) : (Thread.commitX ac t w).sdcnt = t.sdcnt := by
  unfold Thread.commitX; split; · rfl
  · split <;> simp
@[simp] theorem Thread.commitX_sbstat (ac : Nat) (t : Thread) (w : XWrite) : (Thread.commitX ac t w).sbstat = t.sbstat := by
  unfold Thread.commitX; split; · rfl
  · split <;> simp
@[simp] theorem Thread.commitX_tmocnt (ac : Nat) (t : Thread) (w : XWrite) : (Thread.commitX ac t w).tmocnt = t.tmocnt := by
  unfold Thread.commitX; split; · rfl
  · split <;> simp
@[simp] theorem Thread.commitX_tmolim (ac : Nat) (t : Thread) (w : XWrite) : (Thread.commitX ac t w).tmolim = t.tmolim := by
  unfold Thread.commitX; split; · rfl
  · split <;> simp
@[simp] theorem Thread.commitX_wceil (ac : Nat) (t : Thread) (w : XWrite) : (Thread.commitX ac t w).wceil = t.wceil := by
  unfold Thread.commitX; split; · rfl
  · split <;> simp
@[simp] theorem Thread.commitX_tvec (ac : Nat) (t : Thread) (w : XWrite) : (Thread.commitX ac t w).tvec = t.tvec := by
  unfold Thread.commitX; split; · rfl
  · split <;> simp
@[simp] theorem Thread.commitX_bank0 (ac : Nat) (t : Thread) (w : XWrite) : (Thread.commitX ac t w).bank0 = t.bank0 := by
  unfold Thread.commitX; split; · rfl
  · split <;> simp
@[simp] theorem Thread.commitX_bank1 (ac : Nat) (t : Thread) (w : XWrite) : (Thread.commitX ac t w).bank1 = t.bank1 := by
  unfold Thread.commitX; split; · rfl
  · split <;> simp
@[simp] theorem Thread.commitX_winCount (ac : Nat) (t : Thread) (w : XWrite) : (Thread.commitX ac t w).winCount = t.winCount := by
  unfold Thread.commitX; split; · rfl
  · split <;> simp
@[simp] theorem Thread.commitX_winIdx (ac : Nat) (t : Thread) (w : XWrite) : (Thread.commitX ac t w).winIdx = t.winIdx := by
  unfold Thread.commitX; split; · rfl
  · split <;> simp
@[simp] theorem Thread.commitX_block (ac : Nat) (t : Thread) (w : XWrite) : (Thread.commitX ac t w).block = t.block := by
  unfold Thread.commitX; split; · rfl
  · split <;> simp
@[simp] theorem Thread.commitX_issued (ac : Nat) (t : Thread) (w : XWrite) : (Thread.commitX ac t w).issued = t.issued := by
  unfold Thread.commitX; split; · rfl
  · split <;> simp
@[simp] theorem Thread.commitX_walking (ac : Nat) (t : Thread) (w : XWrite) : (Thread.commitX ac t w).walking = t.walking := by
  unfold Thread.commitX; split; · rfl
  · split <;> simp
@[simp] theorem Thread.commitX_snap (ac : Nat) (t : Thread) (w : XWrite) : (Thread.commitX ac t w).snap = t.snap := by
  unfold Thread.commitX; split; · rfl
  · split <;> simp
@[simp] theorem Thread.commitX_wait (ac : Nat) (t : Thread) (w : XWrite) : (Thread.commitX ac t w).wait = t.wait := by
  unfold Thread.commitX; split; · rfl
  · split <;> simp
@[simp] theorem Thread.commitX_susp (ac : Nat) (t : Thread) (w : XWrite) : (Thread.commitX ac t w).susp = t.susp := by
  unfold Thread.commitX; split; · rfl
  · split <;> simp
@[simp] theorem Thread.commitX_mon (ac : Nat) (t : Thread) (w : XWrite) : (Thread.commitX ac t w).mon = t.mon := by
  unfold Thread.commitX; split; · rfl
  · split <;> simp
@[simp] theorem Thread.commitX_moveSpur (ac : Nat) (t : Thread) (w : XWrite) : (Thread.commitX ac t w).moveSpur = t.moveSpur := by
  unfold Thread.commitX; split; · rfl
  · split <;> simp
@[simp] theorem Thread.commitX_streams (ac : Nat) (t : Thread) (w : XWrite) : (Thread.commitX ac t w).streams = t.streams := by
  unfold Thread.commitX; split; · rfl
  · split <;> simp
@[simp] theorem Thread.commitX_logical (ac : Nat) (t : Thread) (w : XWrite) : (Thread.commitX ac t w).logical = t.logical := by
  unfold Thread.commitX; split; · rfl
  · split <;> simp
@[simp] theorem Thread.commitX_bpIgnore (ac : Nat) (t : Thread) (w : XWrite) : (Thread.commitX ac t w).bpIgnore = t.bpIgnore := by
  unfold Thread.commitX; split; · rfl
  · split <;> simp
@[simp] theorem Thread.commitX_preempt (ac : Nat) (t : Thread) (w : XWrite) : (Thread.commitX ac t w).preempt = t.preempt := by
  unfold Thread.commitX; split; · rfl
  · split <;> simp
@[simp] theorem Thread.commitX_migrate (ac : Nat) (t : Thread) (w : XWrite) : (Thread.commitX ac t w).migrate = t.migrate := by
  unfold Thread.commitX; split; · rfl
  · split <;> simp
@[simp] theorem Thread.commitX_migrating (ac : Nat) (t : Thread) (w : XWrite) : (Thread.commitX ac t w).migrating = t.migrating := by
  unfold Thread.commitX; split; · rfl
  · split <;> simp
@[simp] theorem Thread.commitX_shedReq (ac : Nat) (t : Thread) (w : XWrite) : (Thread.commitX ac t w).shedReq = t.shedReq := by
  unfold Thread.commitX; split; · rfl
  · split <;> simp
@[simp] theorem Thread.commitX_parkedAt (ac : Nat) (t : Thread) (w : XWrite) : (Thread.commitX ac t w).parkedAt = t.parkedAt := by
  unfold Thread.commitX; split; · rfl
  · split <;> simp
@[simp] theorem Thread.commitX_reportedA (ac : Nat) (t : Thread) (w : XWrite) : (Thread.commitX ac t w).reportedA = t.reportedA := by
  unfold Thread.commitX; split; · rfl
  · split <;> simp
@[simp] theorem Thread.commitX_reportedB (ac : Nat) (t : Thread) (w : XWrite) : (Thread.commitX ac t w).reportedB = t.reportedB := by
  unfold Thread.commitX; split; · rfl
  · split <;> simp
@[simp] theorem Thread.commitX_stale (ac : Nat) (t : Thread) (w : XWrite) : (Thread.commitX ac t w).stale = t.stale := by
  unfold Thread.commitX; split; · rfl
  · split <;> simp
@[simp] theorem Thread.commitX_saved (ac : Nat) (t : Thread) (w : XWrite) : (Thread.commitX ac t w).saved = t.saved := by
  unfold Thread.commitX; split; · rfl
  · split <;> simp
@[simp] theorem Thread.commitX_pcoreAt (ac : Nat) (t : Thread) (w : XWrite) : (Thread.commitX ac t w).pcoreAt = t.pcoreAt := by
  unfold Thread.commitX; split; · rfl
  · split <;> simp
@[simp] theorem Thread.commitX_escDue (ac : Nat) (t : Thread) (w : XWrite) : (Thread.commitX ac t w).escDue = t.escDue := by
  unfold Thread.commitX; split; · rfl
  · split <;> simp
@[simp] theorem Thread.commitX_issuedAt (ac : Nat) (t : Thread) (w : XWrite) : (Thread.commitX ac t w).issuedAt = t.issuedAt := by
  unfold Thread.commitX; split; · rfl
  · split <;> simp
@[simp] theorem Thread.commitX_followTo (ac : Nat) (t : Thread) (w : XWrite) : (Thread.commitX ac t w).followTo = t.followTo := by
  unfold Thread.commitX; split; · rfl
  · split <;> simp
@[simp] theorem Thread.commitX_image (ac : Nat) (t : Thread) (w : XWrite) : (Thread.commitX ac t w).image = t.image := by
  unfold Thread.commitX; split; · rfl
  · split <;> simp
@[simp] theorem Thread.commitX_fences (ac : Nat) (t : Thread) (w : XWrite) : (Thread.commitX ac t w).fences = t.fences := by
  unfold Thread.commitX; split; · rfl
  · split <;> simp

@[simp] theorem Thread.discard_place (t : Thread)  : (t.discard).place = t.place := rfl
@[simp] theorem Thread.discard_run (t : Thread)  : (t.discard).run = t.run := rfl
@[simp] theorem Thread.discard_shed (t : Thread)  : (t.discard).shed = t.shed := rfl
@[simp] theorem Thread.discard_light (t : Thread)  : (t.discard).light = t.light := rfl
@[simp] theorem Thread.discard_ctx (t : Thread)  : (t.discard).ctx = t.ctx := rfl
@[simp] theorem Thread.discard_cls (t : Thread)  : (t.discard).cls = t.cls := rfl
@[simp] theorem Thread.discard_kernel (t : Thread)  : (t.discard).kernel = t.kernel := rfl
@[simp] theorem Thread.discard_follow (t : Thread)  : (t.discard).follow = t.follow := rfl
@[simp] theorem Thread.discard_pc (t : Thread)  : (t.discard).pc = t.pc := rfl
@[simp] theorem Thread.discard_x (t : Thread)  : (t.discard).x = t.x := rfl
@[simp] theorem Thread.discard_v (t : Thread)  : (t.discard).v = t.v := rfl
@[simp] theorem Thread.discard_m (t : Thread)  : (t.discard).m = t.m := rfl
@[simp] theorem Thread.discard_sup (t : Thread)  : (t.discard).sup = t.sup := rfl
@[simp] theorem Thread.discard_level (t : Thread)  : (t.discard).level = t.level := rfl
@[simp] theorem Thread.discard_vflags (t : Thread)  : (t.discard).vflags = t.vflags := rfl
@[simp] theorem Thread.discard_lutb (t : Thread)  : (t.discard).lutb = t.lutb := rfl
@[simp] theorem Thread.discard_mfmt (t : Thread)  : (t.discard).mfmt = t.mfmt := rfl
@[simp] theorem Thread.discard_mscl (t : Thread)  : (t.discard).mscl = t.mscl := rfl
@[simp] theorem Thread.discard_mprog (t : Thread)  : (t.discard).mprog = t.mprog := rfl
@[simp] theorem Thread.discard_mprogOf (t : Thread)  : (t.discard).mprogOf = t.mprogOf := rfl
@[simp] theorem Thread.discard_sdcnt (t : Thread)  : (t.discard).sdcnt = t.sdcnt := rfl
@[simp] theorem Thread.discard_sbstat (t : Thread)  : (t.discard).sbstat = t.sbstat := rfl
@[simp] theorem Thread.discard_rdrop (t : Thread)  : (t.discard).rdrop = t.rdrop := rfl
@[simp] theorem Thread.discard_tmocnt (t : Thread)  : (t.discard).tmocnt = t.tmocnt := rfl
@[simp] theorem Thread.discard_tmolim (t : Thread)  : (t.discard).tmolim = t.tmolim := rfl
@[simp] theorem Thread.discard_wceil (t : Thread)  : (t.discard).wceil = t.wceil := rfl
@[simp] theorem Thread.discard_tvec (t : Thread)  : (t.discard).tvec = t.tvec := rfl
@[simp] theorem Thread.discard_bank0 (t : Thread)  : (t.discard).bank0 = t.bank0 := rfl
@[simp] theorem Thread.discard_bank1 (t : Thread)  : (t.discard).bank1 = t.bank1 := rfl
@[simp] theorem Thread.discard_empty (t : Thread)  : (t.discard).empty = t.empty := rfl
@[simp] theorem Thread.discard_winCount (t : Thread)  : (t.discard).winCount = t.winCount := rfl
@[simp] theorem Thread.discard_winIdx (t : Thread)  : (t.discard).winIdx = t.winIdx := rfl
@[simp] theorem Thread.discard_susp (t : Thread)  : (t.discard).susp = t.susp := rfl
@[simp] theorem Thread.discard_mon (t : Thread)  : (t.discard).mon = t.mon := rfl
@[simp] theorem Thread.discard_moveSpur (t : Thread)  : (t.discard).moveSpur = t.moveSpur := rfl
@[simp] theorem Thread.discard_logical (t : Thread)  : (t.discard).logical = t.logical := rfl
@[simp] theorem Thread.discard_bpIgnore (t : Thread)  : (t.discard).bpIgnore = t.bpIgnore := rfl
@[simp] theorem Thread.discard_preempt (t : Thread)  : (t.discard).preempt = t.preempt := rfl
@[simp] theorem Thread.discard_migrate (t : Thread)  : (t.discard).migrate = t.migrate := rfl
@[simp] theorem Thread.discard_migrating (t : Thread)  : (t.discard).migrating = t.migrating := rfl
@[simp] theorem Thread.discard_shedReq (t : Thread)  : (t.discard).shedReq = t.shedReq := rfl
@[simp] theorem Thread.discard_parkedAt (t : Thread)  : (t.discard).parkedAt = t.parkedAt := rfl
@[simp] theorem Thread.discard_reportedA (t : Thread)  : (t.discard).reportedA = t.reportedA := rfl
@[simp] theorem Thread.discard_reportedB (t : Thread)  : (t.discard).reportedB = t.reportedB := rfl
@[simp] theorem Thread.discard_stale (t : Thread)  : (t.discard).stale = t.stale := rfl
@[simp] theorem Thread.discard_saved (t : Thread)  : (t.discard).saved = t.saved := rfl
@[simp] theorem Thread.discard_pcoreAt (t : Thread)  : (t.discard).pcoreAt = t.pcoreAt := rfl
@[simp] theorem Thread.discard_escDue (t : Thread)  : (t.discard).escDue = t.escDue := rfl
@[simp] theorem Thread.discard_issuedAt (t : Thread)  : (t.discard).issuedAt = t.issuedAt := rfl
@[simp] theorem Thread.discard_hwAc (t : Thread)  : (t.discard).hwAc = t.hwAc := rfl
@[simp] theorem Thread.discard_hw (t : Thread)  : (t.discard).hw = t.hw := rfl
@[simp] theorem Thread.discard_followTo (t : Thread)  : (t.discard).followTo = t.followTo := rfl
@[simp] theorem Thread.discard_image (t : Thread)  : (t.discard).image = t.image := rfl
@[simp] theorem Thread.discard_fences (t : Thread)  : (t.discard).fences = t.fences := rfl

@[simp] theorem Thread.close_place (t : Thread) (pt : Nat) : (t.close pt).place = t.place := rfl
@[simp] theorem Thread.close_shed (t : Thread) (pt : Nat) : (t.close pt).shed = t.shed := rfl
@[simp] theorem Thread.close_light (t : Thread) (pt : Nat) : (t.close pt).light = t.light := rfl
@[simp] theorem Thread.close_ctx (t : Thread) (pt : Nat) : (t.close pt).ctx = t.ctx := rfl
@[simp] theorem Thread.close_cls (t : Thread) (pt : Nat) : (t.close pt).cls = t.cls := rfl
@[simp] theorem Thread.close_kernel (t : Thread) (pt : Nat) : (t.close pt).kernel = t.kernel := rfl
@[simp] theorem Thread.close_follow (t : Thread) (pt : Nat) : (t.close pt).follow = t.follow := rfl
@[simp] theorem Thread.close_pc (t : Thread) (pt : Nat) : (t.close pt).pc = t.pc := rfl
@[simp] theorem Thread.close_x (t : Thread) (pt : Nat) : (t.close pt).x = t.x := rfl
@[simp] theorem Thread.close_v (t : Thread) (pt : Nat) : (t.close pt).v = t.v := rfl
@[simp] theorem Thread.close_m (t : Thread) (pt : Nat) : (t.close pt).m = t.m := rfl
@[simp] theorem Thread.close_sup (t : Thread) (pt : Nat) : (t.close pt).sup = t.sup := rfl
@[simp] theorem Thread.close_level (t : Thread) (pt : Nat) : (t.close pt).level = t.level := rfl
@[simp] theorem Thread.close_vflags (t : Thread) (pt : Nat) : (t.close pt).vflags = t.vflags := rfl
@[simp] theorem Thread.close_lutb (t : Thread) (pt : Nat) : (t.close pt).lutb = t.lutb := rfl
@[simp] theorem Thread.close_mfmt (t : Thread) (pt : Nat) : (t.close pt).mfmt = t.mfmt := rfl
@[simp] theorem Thread.close_mscl (t : Thread) (pt : Nat) : (t.close pt).mscl = t.mscl := rfl
@[simp] theorem Thread.close_mprog (t : Thread) (pt : Nat) : (t.close pt).mprog = t.mprog := rfl
@[simp] theorem Thread.close_mprogOf (t : Thread) (pt : Nat) : (t.close pt).mprogOf = t.mprogOf := rfl
@[simp] theorem Thread.close_sdcnt (t : Thread) (pt : Nat) : (t.close pt).sdcnt = t.sdcnt := rfl
@[simp] theorem Thread.close_sbstat (t : Thread) (pt : Nat) : (t.close pt).sbstat = t.sbstat := rfl
@[simp] theorem Thread.close_rdrop (t : Thread) (pt : Nat) : (t.close pt).rdrop = t.rdrop := rfl
@[simp] theorem Thread.close_tmocnt (t : Thread) (pt : Nat) : (t.close pt).tmocnt = t.tmocnt := rfl
@[simp] theorem Thread.close_tmolim (t : Thread) (pt : Nat) : (t.close pt).tmolim = t.tmolim := rfl
@[simp] theorem Thread.close_wceil (t : Thread) (pt : Nat) : (t.close pt).wceil = t.wceil := rfl
@[simp] theorem Thread.close_tvec (t : Thread) (pt : Nat) : (t.close pt).tvec = t.tvec := rfl
@[simp] theorem Thread.close_bank0 (t : Thread) (pt : Nat) : (t.close pt).bank0 = t.bank0 := rfl
@[simp] theorem Thread.close_bank1 (t : Thread) (pt : Nat) : (t.close pt).bank1 = t.bank1 := rfl
@[simp] theorem Thread.close_empty (t : Thread) (pt : Nat) : (t.close pt).empty = t.empty := rfl
@[simp] theorem Thread.close_winCount (t : Thread) (pt : Nat) : (t.close pt).winCount = t.winCount := rfl
@[simp] theorem Thread.close_winIdx (t : Thread) (pt : Nat) : (t.close pt).winIdx = t.winIdx := rfl
@[simp] theorem Thread.close_block (t : Thread) (pt : Nat) : (t.close pt).block = t.block := rfl
@[simp] theorem Thread.close_issued (t : Thread) (pt : Nat) : (t.close pt).issued = t.issued := rfl
@[simp] theorem Thread.close_snap (t : Thread) (pt : Nat) : (t.close pt).snap = t.snap := rfl
@[simp] theorem Thread.close_wait (t : Thread) (pt : Nat) : (t.close pt).wait = t.wait := rfl
@[simp] theorem Thread.close_susp (t : Thread) (pt : Nat) : (t.close pt).susp = t.susp := rfl
@[simp] theorem Thread.close_mon (t : Thread) (pt : Nat) : (t.close pt).mon = t.mon := rfl
@[simp] theorem Thread.close_moveSpur (t : Thread) (pt : Nat) : (t.close pt).moveSpur = t.moveSpur := rfl
@[simp] theorem Thread.close_streams (t : Thread) (pt : Nat) : (t.close pt).streams = t.streams := rfl
@[simp] theorem Thread.close_logical (t : Thread) (pt : Nat) : (t.close pt).logical = t.logical := rfl
@[simp] theorem Thread.close_bpIgnore (t : Thread) (pt : Nat) : (t.close pt).bpIgnore = t.bpIgnore := rfl
@[simp] theorem Thread.close_preempt (t : Thread) (pt : Nat) : (t.close pt).preempt = t.preempt := rfl
@[simp] theorem Thread.close_migrate (t : Thread) (pt : Nat) : (t.close pt).migrate = t.migrate := rfl
@[simp] theorem Thread.close_migrating (t : Thread) (pt : Nat) : (t.close pt).migrating = t.migrating := rfl
@[simp] theorem Thread.close_shedReq (t : Thread) (pt : Nat) : (t.close pt).shedReq = t.shedReq := rfl
@[simp] theorem Thread.close_stale (t : Thread) (pt : Nat) : (t.close pt).stale = t.stale := rfl
@[simp] theorem Thread.close_saved (t : Thread) (pt : Nat) : (t.close pt).saved = t.saved := rfl
@[simp] theorem Thread.close_pcoreAt (t : Thread) (pt : Nat) : (t.close pt).pcoreAt = t.pcoreAt := rfl
@[simp] theorem Thread.close_escDue (t : Thread) (pt : Nat) : (t.close pt).escDue = t.escDue := rfl
@[simp] theorem Thread.close_issuedAt (t : Thread) (pt : Nat) : (t.close pt).issuedAt = t.issuedAt := rfl
@[simp] theorem Thread.close_hwAc (t : Thread) (pt : Nat) : (t.close pt).hwAc = t.hwAc := rfl
@[simp] theorem Thread.close_hw (t : Thread) (pt : Nat) : (t.close pt).hw = t.hw := rfl
@[simp] theorem Thread.close_followTo (t : Thread) (pt : Nat) : (t.close pt).followTo = t.followTo := rfl
@[simp] theorem Thread.close_image (t : Thread) (pt : Nat) : (t.close pt).image = t.image := rfl
@[simp] theorem Thread.close_fences (t : Thread) (pt : Nat) : (t.close pt).fences = t.fences := rfl

end Sys2Proof.Machine
end

