-- ==== Sys2Proof/Laws/Issue.lean ====
section
/-!
SUPPORT. Sys2Proof/Laws/Issue.lean: what issuing an instruction does, said once: the state after it is `joined` or `stopped`.
-/
namespace Sys2Proof.Machine

/-! ## A thread at the start of a block keeps everything but the sampled CSRs -/

theorem State.blockStart_eq (s : State) (t : Thread) : ∃ l, s.blockStart t = { t with snap := l } := by
  unfold State.blockStart
  split
  · exact ⟨_, rfl⟩
  · exact ⟨t.snap, rfl⟩

theorem Thread.issueTrap_snap (t : Thread) (l : List (Nat × Word)) (i : Instr) (f : Form) :
    ({ t with snap := l } : Thread).issueTrap i f = t.issueTrap i f := rfl
theorem Thread.emptyRead_snap (t : Thread) (l : List (Nat × Word)) (rs : List Reg) :
    ({ t with snap := l } : Thread).emptyRead rs = t.emptyRead rs := rfl
theorem Thread.popList_snap (t : Thread) (l : List (Nat × Word)) (rs : List Reg) :
    ({ t with snap := l } : Thread).popList rs = t.popList rs := rfl

/-- A thread that is not walking a block it must perform issues. -/
theorem walksAt_ready (t : Thread) (i : Instr) (h : t.run = .ready) : t.walksAt i = none := by
  simp [Thread.walksAt, h]

/-- An instruction of a Ready thread issues. -/
theorem State.threadOp_ready (s : State) (i : Instr) (f : Form) (body : Body) (perf : Perform) (tid : Nat) (t : Thread)
    (hc : s.current = some (tid, t)) (h : t.run = .ready) : s.threadOp i f body perf = .next (s.issue i f body) := by
  simp [State.threadOp, hc, walksAt_ready t i h]

/-- An instruction that R364 lets issue is not kept back. -/
theorem turn_open {b d : Bool} (h : b = true → d = true) : (b && !d) = false := by cases b <;> simp_all

/-- Issuing where nothing stands in the way (R65, R66): the body's entry joins the block. -/
theorem State.issue_of_issuing (s : State) (tid : Nat) (t : Thread) (i : Instr) (f : Form) (body : Body)
    (h : Issuing s tid t i f) :
    s.issue i f body =
      let s2 := s.bodyState t f
      let r := body s2 tid (s.blockStart t) (s.entry t i)
      (s2.append tid ((s.blockStart t).takePops (t.popList f.vreads)) f
        { r.1 with pops := t.popMarks (t.popList f.vreads), deferred := r.1.deferred || (f.deferred && r.1.st == .done) } r.2).postReads
        tid (s.blockStart t) r.1 := by
  obtain ⟨l, hl⟩ := s.blockStart_eq t
  have h1 := h.open_; have h2 := h.full; have h3 := h.popped; have h4 := h.stays; have h5 := h.clean
  simp only [State.issue, h.here, h.ready, h.served, h.settled]
  simp only [hl, State.bodyState, State.entry]
  have e1 : ({ t with snap := l } : Thread).issueTrap i f = none := h1
  have e2 : ({ t with snap := l } : Thread).emptyRead f.reads = none := h2
  have e3 : State.popBlocked { s with dbg := { s.dbg with issuedNow := mapSet s.dbg.issuedNow t.vcore (s.ac * 8 + t.slot) } }
    { t with snap := l } (t.popList f.vreads) = none := h3
  have e4 : State.followAsk { s with dbg := { s.dbg with issuedNow := mapSet s.dbg.issuedNow t.vcore (s.ac * 8 + t.slot) } }
    { t with snap := l } i = none := h4
  have e5 : ({ t with snap := l } : Thread).popFault (t.popList f.vreads) = none := h5
  have e6 : ({ t with snap := l } : Thread).popList f.vreads = t.popList f.vreads := rfl
  have e7 : ({ t with snap := l } : Thread).vcore = t.vcore := rfl
  have e8 : ({ t with snap := l } : Thread).slot = t.slot := rfl
  simp only [e1, e2, e6, e7, e8, e3, e4, e5, turn_open h.turn]
  rfl

/-- A block grows by an entry that has not faulted (R65). -/
theorem State.append_ok (s : State) (tid : Nat) (t : Thread) (f : Form) (e : Entry) (next : Word) (h : ∀ x, e.st ≠ .faulted x) :
    s.append tid t f e next =
      s.setThr tid (if f.mark || f.closes || t.issued == 15
        then Thread.close { t with
          block := t.block ++ [e], issued := t.issued + 1, pc := next, issuedAt := s.ac + 1, followTo := none
          bpIgnore := if t.level = 0 then none else t.bpIgnore } s.pt
        else { t with
          block := t.block ++ [e], issued := t.issued + 1, pc := next, issuedAt := s.ac + 1, followTo := none
          bpIgnore := if t.level = 0 then none else t.bpIgnore }) := by
  obtain ⟨pc, ins, ops, vops, st, rest⟩ := e
  cases st
  · simp [State.append]
  · simp [State.append]
  · exact absurd rfl (h _)

/-- A block closes on an entry that has faulted (R33, R67). -/
theorem State.append_fail (s : State) (tid : Nat) (t : Thread) (f : Form) (e : Entry) (x : Trap) (next : Word)
    (h : e.st = .faulted x) :
    s.append tid t f e next =
      s.setThr tid (Thread.close { t with
        block := t.block ++ [e], issued := t.issued + 1, issuedAt := s.ac + 1, followTo := none
        bpIgnore := if t.level = 0 then none else t.bpIgnore } s.pt) := by
  simp [State.append, h]

/-- The block, the count and the PC of a thread that starts a block are its own. -/
theorem State.blockStart_block (s : State) (t : Thread) : (s.blockStart t).block = t.block := by
  obtain ⟨l, hl⟩ := s.blockStart_eq t; rw [hl]
theorem State.blockStart_issued (s : State) (t : Thread) : (s.blockStart t).issued = t.issued := by
  obtain ⟨l, hl⟩ := s.blockStart_eq t; rw [hl]
theorem State.blockStart_level (s : State) (t : Thread) : (s.blockStart t).level = t.level := by
  obtain ⟨l, hl⟩ := s.blockStart_eq t; rw [hl]
theorem State.blockStart_bpIgnore (s : State) (t : Thread) : (s.blockStart t).bpIgnore = t.bpIgnore := by
  obtain ⟨l, hl⟩ := s.blockStart_eq t; rw [hl]
theorem State.blockStart_pc (s : State) (t : Thread) : (s.blockStart t).pc = t.pc := by
  obtain ⟨l, hl⟩ := s.blockStart_eq t; rw [hl]
theorem State.blockStart_readX (s : State) (t : Thread) (r : Reg) : (s.blockStart t).readX r = t.readX r := by
  obtain ⟨l, hl⟩ := s.blockStart_eq t; rw [hl]; rfl
theorem State.blockStart_readV (s : State) (t : Thread) (r : Reg) : (s.blockStart t).readV r = t.readV r := by
  obtain ⟨l, hl⟩ := s.blockStart_eq t; rw [hl]; rfl
theorem State.blockStart_mr (s : State) (t : Thread) (n : Nat) : (s.blockStart t).mr n = t.mr n := by
  obtain ⟨l, hl⟩ := s.blockStart_eq t; rw [hl]; rfl
theorem State.bodyState_pt (s : State) (t : Thread) (f : Form) : (s.bodyState t f).pt = s.pt := by
  unfold State.bodyState; split <;> rfl
theorem State.bodyState_ac (s : State) (t : Thread) (f : Form) : (s.bodyState t f).ac = s.ac := by
  unfold State.bodyState; split <;> rfl

/-- The requests a load sends do not hang on what its entry keeps of the walk. -/
theorem State.postReads_deferred (s : State) (tid : Nat) (t : Thread) (e : Entry) (d : Bool) :
    s.postReads tid t { e with deferred := d } = s.postReads tid t e := rfl
/-- A faulted entry sends nothing. -/
theorem State.postReads_fail (s : State) (tid : Nat) (t : Thread) (e : Entry) (x : Trap) : s.postReads tid t (e.fail x) = s := by
  simp [State.postReads, Entry.fail]

/-- The body of an instruction that does not fault gives an entry, and the machine is the state `joined` (R65). -/
theorem State.issue_joined (s : State) (tid : Nat) (t : Thread) (i : Instr) (f : Form) (body : Body) (e : Entry) (next : Word)
    (h : Issuing s tid t i f) (hb : body (s.bodyState t f) tid (s.blockStart t) (s.entry t i) = (e, next))
    (hs : e.st = .done ∨ e.st = .sent) :
    s.issue i f body =
      s.joined tid t f { e with deferred := e.deferred || (f.deferred && e.st == .done) } next := by
  rw [s.issue_of_issuing tid t i f body h]
  simp only [hb]
  rw [State.append_ok _ _ _ _ _ _ (by rcases hs with hs | hs <;> simp [hs])]
  simp only [State.bodyState_pt, State.bodyState_ac, Thread.takePops, State.blockStart_block, State.blockStart_issued,
    State.blockStart_level, State.blockStart_bpIgnore, State.joined, State.issued, State.postReads_deferred]
  unfold State.bodyState State.touchStreams
  obtain ⟨l, hl⟩ := s.blockStart_eq t
  have hv : (s.blockStart t).vcore = t.vcore := by rw [hl]; rfl
  have hs' : (s.blockStart t).slot = t.slot := by rw [hl]; rfl
  rw [hv, hs']
  split <;> rfl

/-- An instruction whose body faults stops its block (R33, R67). -/
theorem State.issue_stopped (s : State) (tid : Nat) (t : Thread) (i : Instr) (f : Form) (body : Body) (e : Entry) (x : Trap)
    (next : Word) (h : Issuing s tid t i f) (hv : t.popList f.vreads = [])
    (hb : body (s.bodyState t f) tid (s.blockStart t) (s.entry t i) = (e.fail x, next)) (hp : e.pops = []) :
    s.issue i f body = s.stopped tid t e x := by
  rw [s.issue_of_issuing tid t i f body h]
  simp only [hb, hv, State.postReads_fail]
  rw [State.append_fail _ _ _ _ _ x _ rfl]
  simp only [Thread.takePops, List.foldl_nil, State.blockStart_block, State.blockStart_issued,
    State.blockStart_level, State.blockStart_bpIgnore, State.stopped, State.issued, State.bodyState, hv]
  have hd : (EState.faulted x == EState.done) = false := rfl
  simp [Entry.fail, Thread.popMarks, hp, State.setThr, hd]

end Sys2Proof.Machine
end

