-- ==== Sys2Proof/Laws/Maps.lean ====
section
/-!
SUPPORT. Sys2Proof/Laws/Maps.lean: what the sparse stores, number sets and list updates of Ops.lean do.
-/
namespace Sys2Proof.Machine

@[simp] theorem mapGet?_nil (k : Nat) : mapGet? ([] : AMap α) k = none := rfl

/-- The entry just set is read back, whatever the order of the keys. -/
@[simp] theorem mapGet?_mapSet_self (m : AMap α) (k : Nat) (a : α) : mapGet? (mapSet m k a) k = some a := by
  induction m with
  | nil => simp [mapSet, mapGet?]
  | cons e r ih =>
    obtain ⟨k', a'⟩ := e
    unfold mapSet
    split
    · simp [mapGet?]
    · split
      · simp [mapGet?]
      · rename_i h1 h2
        simp [mapGet?, ih]
        intro h; exact absurd h.symm h2

/-- Every other entry stands. -/
@[simp] theorem mapGet?_mapSet_ne (m : AMap α) (k n : Nat) (a : α) (h : n ≠ k) : mapGet? (mapSet m k a) n = mapGet? m n := by
  induction m with
  | nil => simp [mapSet, mapGet?]; intro e; exact absurd e.symm h
  | cons e r ih =>
    obtain ⟨k', a'⟩ := e
    unfold mapSet
    split
    · simp [mapGet?]; intro e; exact absurd e.symm h
    · split
      · rename_i h2
        subst h2
        simp [mapGet?]
        simp [Ne.symm h]
      · simp [mapGet?, ih]

theorem mapGet?_mapSet (m : AMap α) (k n : Nat) (a : α) :
    mapGet? (mapSet m k a) n = if n = k then some a else mapGet? m n := by
  split
  · rename_i h; subst h; simp
  · rename_i h; simp [h]

@[simp] theorem mapGet_mapSet_self (m : AMap α) (k : Nat) (a d : α) : mapGet (mapSet m k a) k d = a := by
  simp [mapGet]

@[simp] theorem mapGet_mapSet_ne (m : AMap α) (k n : Nat) (a d : α) (h : n ≠ k) :
    mapGet (mapSet m k a) n d = mapGet m n d := by
  simp [mapGet, h]

@[simp] theorem mapGet?_mapErase_self (m : AMap α) (k : Nat) : mapGet? (mapErase m k) k = none := by
  induction m with
  | nil => rfl
  | cons e r ih =>
    unfold mapErase at *
    rw [List.filter_cons]
    split
    · rename_i h
      obtain ⟨k', a'⟩ := e
      have h' : k' ≠ k := by simpa using h
      simp [mapGet?, ih, h']
    · exact ih

@[simp] theorem mapGet?_mapErase_ne (m : AMap α) (k n : Nat) (h : n ≠ k) : mapGet? (mapErase m k) n = mapGet? m n := by
  induction m with
  | nil => rfl
  | cons e r ih =>
    unfold mapErase at *
    rw [List.filter_cons]
    obtain ⟨k', a'⟩ := e
    split
    · simp [mapGet?, ih]
    · rename_i h'
      have h'' : k' = k := by simpa using h'
      subst h''
      simp [mapGet?, ih, Ne.symm h]

/-- An entry that is read is an element. -/
theorem mem_of_mapGet? (m : AMap α) (k : Nat) (a : α) (h : mapGet? m k = some a) : (k, a) ∈ m := by
  induction m with
  | nil => simp at h
  | cons e r ih =>
    obtain ⟨k', a'⟩ := e
    unfold mapGet? at h
    split at h
    · rename_i hk; subst hk; simp at h; subst h; simp
    · exact List.mem_cons_of_mem _ (ih h)

/-- A change of every value of a map acts on each entry. -/
theorem mapGet?_map (m : AMap α) (f : Nat → α → α) (k : Nat) :
    mapGet? (m.map fun e => (e.1, f e.1 e.2)) k = (mapGet? m k).map (f k) := by
  induction m with
  | nil => rfl
  | cons e r ih =>
    obtain ⟨k', a'⟩ := e
    simp only [List.map_cons, mapGet?]
    split
    · rename_i h; subst h; rfl
    · exact ih

/-- A number is in a set after an insertion exactly if it was put in or was there. -/
@[simp] theorem mem_setInsert (l : List Nat) (n k : Nat) : k ∈ setInsert l n ↔ k = n ∨ k ∈ l := by
  induction l with
  | nil => simp [setInsert]
  | cons a r ih =>
    unfold setInsert
    split
    · simp
    · split
      · rename_i h; subst h; simp
      · simp [ih]
        constructor
        · rintro (h | h | h)
          · exact .inr (.inl h)
          · exact .inl h
          · exact .inr (.inr h)
        · rintro (h | h | h)
          · exact .inr (.inl h)
          · exact .inl h
          · exact .inr (.inr h)

@[simp] theorem mem_setErase (l : List Nat) (n k : Nat) : k ∈ setErase l n ↔ k ∈ l ∧ k ≠ n := by
  simp [setErase]

@[simp] theorem length_modifyAt (l : List α) (n : Nat) (f : α → α) : (modifyAt l n f).length = l.length := by
  induction l generalizing n with
  | nil => rfl
  | cons a r ih => cases n <;> simp [modifyAt, ih]

theorem getElem?_modifyAt (l : List α) (n k : Nat) (f : α → α) :
    (modifyAt l n f)[k]? = if k = n then l[k]?.map f else l[k]? := by
  induction l generalizing n k with
  | nil => simp [modifyAt]
  | cons a r ih =>
    cases n with
    | zero => cases k <;> simp [modifyAt]
    | succ n => cases k with
      | zero => simp [modifyAt]
      | succ k => simp [modifyAt, ih]

@[simp] theorem modifyAt_getD_ne (l : List α) (n k : Nat) (f : α → α) (d : α) (h : k ≠ n) :
    (modifyAt l n f).getD k d = l.getD k d := by
  simp [List.getD, getElem?_modifyAt, h]

theorem modifyAt_getD_self (l : List α) (n : Nat) (f : α → α) (d : α) (h : n < l.length) :
    (modifyAt l n f).getD n d = f (l.getD n d) := by
  rw [List.getD_eq_getElem?_getD, getElem?_modifyAt, if_pos rfl, List.getElem?_eq_getElem h]
  simp [h]

end Sys2Proof.Machine
end

