-- ==== Sys2Proof/Laws/Memory.lean ====
section
/-!
SUPPORT. Sys2Proof/Laws/Memory.lean: the laws of the store of bytes: what is written is read back, other bytes stand, and
every operation keeps the canonical form.
-/
namespace Sys2Proof.Machine

/-! ## The canonical form -/

/-- Every address of the cells lies above `n`. -/
def Memory.above (n : Nat) (m : List Host.Cell) : Prop := ∀ c ∈ m, n < c.1

theorem Memory.wf_cons_iff (a : Nat) (b : Byte) (m : List Host.Cell) :
    Memory.wf ((a, b) :: m) = true ↔ b ≠ memDefault ∧ Memory.above a m ∧ Memory.wf m = true := by
  induction m generalizing a b with
  | nil => simp [Memory.wf, Memory.above]
  | cons c r ih =>
    obtain ⟨a', b'⟩ := c
    simp only [Memory.wf, Bool.and_eq_true, bne_iff_ne, ne_eq, decide_eq_true_eq]
    constructor
    · rintro ⟨⟨hb, ha⟩, hw⟩
      refine ⟨hb, ?_, hw⟩
      intro c hc
      rcases List.mem_cons.mp hc with rfl | hc
      · exact ha
      · exact Nat.lt_trans ha (((ih a' b').mp hw).2.1 c hc)
    · rintro ⟨hb, ha, hw⟩
      exact ⟨⟨hb, ha (a', b') (by simp)⟩, hw⟩

theorem Memory.wf_tail (c : Host.Cell) (m : List Host.Cell) (h : Memory.wf (c :: m) = true) : Memory.wf m = true :=
  ((Memory.wf_cons_iff c.1 c.2 m).mp h).2.2

theorem Memory.above_writeCells (n loc : Nat) (b : Byte) (m : List Host.Cell) (h : Memory.above n m) (hl : n < loc) :
    Memory.above n (writeCells m loc b) := by
  induction m with
  | nil =>
    unfold writeCells
    split
    · simp [Memory.above]
    · intro c hc; simp at hc; subst hc; exact hl
  | cons e r ih =>
    obtain ⟨a, c⟩ := e
    have hr : Memory.above n r := fun c hc => h c (List.mem_cons_of_mem _ hc)
    have ha : n < a := h (a, c) (by simp)
    unfold writeCells
    split
    · split
      · exact h
      · intro c hc
        rcases List.mem_cons.mp hc with rfl | hc
        · exact hl
        · exact h c hc
    · split
      · split
        · exact hr
        · intro c hc
          rcases List.mem_cons.mp hc with rfl | hc
          · exact hl
          · exact hr c hc
      · intro c hc
        rcases List.mem_cons.mp hc with rfl | hc
        · exact ha
        · exact ih hr c hc

/-- Writing a byte keeps the canonical form. -/
theorem Memory.wf_writeCells (m : List Host.Cell) (loc : Nat) (b : Byte) (h : Memory.wf m = true) :
    Memory.wf (writeCells m loc b) = true := by
  induction m with
  | nil =>
    unfold writeCells
    split
    · rfl
    · simpa [Memory.wf] using ‹¬b = memDefault›
  | cons e r ih =>
    obtain ⟨a, c⟩ := e
    have hc := (Memory.wf_cons_iff a c r).mp h
    unfold writeCells
    split
    · rename_i hlt
      split
      · exact h
      · rename_i hb
        refine (Memory.wf_cons_iff loc b _).mpr ⟨hb, ?_, h⟩
        intro x hx
        rcases List.mem_cons.mp hx with rfl | hx
        · exact hlt
        · exact Nat.lt_trans hlt (hc.2.1 x hx)
    · split
      · rename_i heq
        split
        · exact hc.2.2
        · rename_i hb
          subst heq
          exact (Memory.wf_cons_iff _ b r).mpr ⟨hb, hc.2.1, hc.2.2⟩
      · rename_i h1 h2
        exact (Memory.wf_cons_iff a c _).mpr
          ⟨hc.1, Memory.above_writeCells a loc b r hc.2.1 (by omega), ih hc.2.2⟩

theorem Memory.wf_writeRun (m : List Host.Cell) (loc : Nat) (bs : List Byte) (h : Memory.wf m = true) :
    Memory.wf (writeRun m loc bs) = true := by
  induction bs generalizing m loc with
  | nil => exact h
  | cons b r ih => exact ih _ _ (Memory.wf_writeCells m loc b h)

/-- Dropping cells keeps the canonical form. -/
theorem Memory.wf_filter (m : List Host.Cell) (p : Host.Cell → Bool) (h : Memory.wf m = true) :
    Memory.wf (m.filter p) = true := by
  induction m with
  | nil => rfl
  | cons e r ih =>
    obtain ⟨a, c⟩ := e
    have hc := (Memory.wf_cons_iff a c r).mp h
    rw [List.filter_cons]
    split
    · refine (Memory.wf_cons_iff a c _).mpr ⟨hc.1, ?_, ih hc.2.2⟩
      intro x hx
      exact hc.2.1 x (List.mem_filter.mp hx).1
    · exact ih hc.2.2

/-! ## Reading what was written -/

theorem readCells_above (m : List Host.Cell) (n : Nat) (h : Memory.above n m) (loc : Nat) (hl : loc ≤ n) :
    readCells m loc = memDefault := by
  induction m with
  | nil => rfl
  | cons e r ih =>
    obtain ⟨a, c⟩ := e
    have ha : n < a := h (a, c) (by simp)
    unfold readCells
    rw [if_neg (by omega)]
    exact ih fun c hc => h c (List.mem_cons_of_mem _ hc)

/-- A byte written is read back, and every other byte stands. -/
theorem readCells_writeCells (m : List Host.Cell) (loc : Nat) (b : Byte) (a : Nat) (h : Memory.wf m = true) :
    readCells (writeCells m loc b) a = if a = loc then b else readCells m a := by
  induction m with
  | nil =>
    unfold writeCells
    split
    · rename_i hb; subst hb; split <;> simp [readCells]
    · simp only [readCells]; split <;> split <;> simp_all
  | cons e r ih =>
    obtain ⟨a', c⟩ := e
    have hc := (Memory.wf_cons_iff a' c r).mp h
    unfold writeCells
    split
    · rename_i hlt
      split
      · rename_i hb
        split
        · rename_i ha
          subst ha
          subst hb
          unfold readCells
          rw [if_neg (by omega)]
          exact readCells_above r a' hc.2.1 a (by omega)
        · rfl
      · rename_i hb
        by_cases ha : a = loc
        · simp [readCells, ha]
        · rw [if_neg ha]
          conv => lhs; unfold readCells
          rw [if_neg (Ne.symm ha)]
    · split
      · rename_i hlt heq
        subst heq
        by_cases ha : a = loc
        · subst ha
          rw [if_pos rfl]
          split
          · rename_i hb
            rw [hb]
            exact readCells_above r a hc.2.1 a (Nat.le_refl _)
          · simp [readCells]
        · rw [if_neg ha]
          have e1 : readCells ((loc, c) :: r) a = readCells r a := by simp [readCells, Ne.symm ha]
          split
          · exact e1.symm
          · rw [e1]; simp [readCells, Ne.symm ha]
      · rename_i hlt hne
        simp only [readCells]
        rw [ih hc.2.2]
        by_cases h1 : a' = a
        · subst h1; simp [Ne.symm hne]
        · simp [h1]

/-- A run of bytes written is read back byte for byte, and every byte outside it stands. -/
theorem readCells_writeRun (m : List Host.Cell) (loc : Nat) (bs : List Byte) (a : Nat) (h : Memory.wf m = true) :
    readCells (writeRun m loc bs) a =
      if loc ≤ a ∧ a < loc + bs.length then bs.getD (a - loc) 0 else readCells m a := by
  induction bs generalizing m loc with
  | nil => rw [if_neg (by rw [List.length_nil]; omega)]; rfl
  | cons b r ih =>
    unfold writeRun
    rw [ih _ _ (Memory.wf_writeCells m loc b h), readCells_writeCells m loc b a h]
    by_cases h1 : a = loc
    · subst h1
      rw [if_neg (by omega), if_pos rfl, if_pos (by rw [List.length_cons]; omega), Nat.sub_self]
      rfl
    · by_cases h2 : loc + 1 ≤ a ∧ a < loc + 1 + r.length
      · rw [if_pos h2, if_pos (by simp; omega)]
        have : a - loc = (a - (loc + 1)) + 1 := by omega
        rw [this]; simp
      · rw [if_neg h2, if_neg h1, if_neg (by simp; omega)]

@[simp] theorem length_bytesOf (val n : Nat) : (bytesOf val n).length = n := by
  induction n generalizing val with
  | zero => rfl
  | succ n ih => simp [bytesOf, ih]

@[simp] theorem length_wordBytes (ws : List Word) : (wordBytes ws).length = 8 * ws.length := by
  induction ws with
  | nil => rfl
  | cons w r ih => simp [wordBytes] at ih ⊢; omega

/-- The bytes of a number, read back little-endian, are the number modulo its size. -/
theorem ofBytes_bytesOf (val n : Nat) : ofBytes (bytesOf val n) = val % 2 ^ (8 * n) := by
  induction n generalizing val with
  | zero => simp [bytesOf, ofBytes, Nat.mod_one]
  | succ n ih =>
    simp only [bytesOf, ofBytes, ih, BitVec.toNat_ofNat]
    have e : (2 : Nat) ^ (8 * (n + 1)) = 256 * 2 ^ (8 * n) := by
      rw [show 8 * (n + 1) = 8 * n + 8 by omega, Nat.pow_add]; omega
    rw [e, Nat.mod_mul]

/-- A read is determined by the bytes it covers. -/
theorem State.read_congr (s s' : State) (loc n : Nat) (h : ∀ a, loc ≤ a → a < loc + n → s'.byteAt a = s.byteAt a) :
    s'.read loc n = s.read loc n := by
  induction n generalizing loc with
  | zero => rfl
  | succ n ih =>
    simp only [State.read]
    rw [h loc (by omega) (by omega), ih (loc + 1) fun a h1 h2 => h a (by omega) (by omega)]

/-- A read gives the little-endian number of its bytes. -/
theorem State.read_eq_ofBytes (s : State) (loc : Nat) (bs : List Byte)
    (h : ∀ i, i < bs.length → s.byteAt (loc + i) = bs.getD i 0) : s.read loc bs.length = ofBytes bs := by
  induction bs generalizing loc with
  | nil => rfl
  | cons b r ih =>
    simp only [State.read, ofBytes, List.length_cons]
    rw [ih (loc + 1) fun i hi => by
      have := h (i + 1) (by simp; omega)
      rw [show loc + 1 + i = loc + (i + 1) by omega, this]; simp]
    have := h 0 (by simp)
    simp at this
    rw [this]

/-- A read is below its size. -/
theorem State.read_lt (s : State) (loc n : Nat) : s.read loc n < 2 ^ (8 * n) := by
  induction n generalizing loc with
  | zero => simp [State.read]
  | succ n ih =>
    have e : (2 : Nat) ^ (8 * (n + 1)) = 256 * 2 ^ (8 * n) := by
      rw [show 8 * (n + 1) = 8 * n + 8 by omega, Nat.pow_add]; omega
    simp only [State.read]
    have h1 := (s.byteAt loc).isLt
    have h2 := ih (loc + 1)
    rw [e]
    omega

/-! ## Writes at a home -/

@[simp] theorem State.noteWrite_byteAt (s old : State) (loc n a : Nat) : (s.noteWrite old loc n).byteAt a = s.byteAt a := rfl
@[simp] theorem State.noteWrite_read (s old : State) (loc n a k : Nat) : (s.noteWrite old loc n).read a k = s.read a k :=
  State.read_congr _ _ _ _ fun _ _ _ => rfl

theorem State.writeBytes_mem (s : State) (loc : Nat) (bs : List Byte) : (s.writeBytes loc bs).mem = writeRun s.mem loc bs := rfl
theorem State.write_mem (s : State) (loc n val : Nat) : (s.write loc n val).mem = writeRun s.mem loc (bytesOf val n) := rfl

theorem State.writeBytes_wf (s : State) (loc : Nat) (bs : List Byte) (h : Memory.wf s.mem = true) :
    Memory.wf (s.writeBytes loc bs).mem = true := Memory.wf_writeRun _ _ _ h
theorem State.write_wf (s : State) (loc n val : Nat) (h : Memory.wf s.mem = true) :
    Memory.wf (s.write loc n val).mem = true := Memory.wf_writeRun _ _ _ h
theorem State.zero_wf (s : State) (loc n : Nat) (h : Memory.wf s.mem = true) : Memory.wf (s.zero loc n).mem = true :=
  Memory.wf_filter _ _ h
theorem State.writePoison_mem (s : State) (loc n : Nat) : (s.writePoison loc n).mem = s.mem := rfl
theorem State.writePoison_wf (s : State) (loc n : Nat) (h : Memory.wf s.mem = true) :
    Memory.wf (s.writePoison loc n).mem = true := h

/-- A run of bytes written at its home is there, and every byte outside it stands. -/
theorem State.writeBytes_byteAt (s : State) (loc : Nat) (bs : List Byte) (a : Nat) (h : Memory.wf s.mem = true) :
    (s.writeBytes loc bs).byteAt a = if loc ≤ a ∧ a < loc + bs.length then bs.getD (a - loc) 0 else s.byteAt a :=
  readCells_writeRun s.mem loc bs a h

theorem State.write_byteAt_outside (s : State) (loc n val a : Nat) (h : Memory.wf s.mem = true) (ha : a < loc ∨ loc + n ≤ a) :
    (s.write loc n val).byteAt a = s.byteAt a := by
  rw [State.write, State.writeBytes_byteAt _ _ _ _ h, if_neg (by simp; omega)]

end Sys2Proof.Machine
end

