-- ==== Sys2Proof/Laws/PerInstr.lean ====
section
/-!
SUPPORT. Sys2Proof/Laws/PerInstr.lean: for every instruction, the fields of its word decode to it.
-/
namespace Sys2Proof.Laws

@[simp] theorem VType.ofBits_bits (t : VType) : VType.ofBits t.bits = t := by cases t <;> rfl
@[simp] theorem Scope.ofBits_bits (x : Scope) : Scope.ofBits x.bits = x := by cases x <;> rfl
@[simp] theorem Round.ofBits_bits (r : Round) : Round.ofBits r.bits = r := by cases r <;> rfl

@[simp] theorem upper_append (a : BitVec 2) (b : BitVec 3) : (a ++ b).extractLsb' 3 2 = a := by
  revert a b; decide
@[simp] theorem lower_append (a : BitVec 2) (b : BitVec 3) : (a ++ b).extractLsb' 0 3 = b := by
  revert a b; decide
@[simp] theorem shamt_top (a : BitVec 1) : (0#1 ++ a).extractLsb' 1 1 = 0#1 := by
  revert a; decide
@[simp] theorem shamt_join (sh : BitVec 6) :
    ((0#1 ++ sh.extractLsb' 5 1).extractLsb' 0 1 ++ sh.extractLsb' 0 5) = sh := by
  revert sh; decide

/-- The fields the encoder gives an instruction are those of a form that decodes to it; an event has no word. -/
def WordForm.Statement (i : Instr) : Prop := ∀ r, encodeRaw i = some r → decodeForm r = some i

theorem WordForm.lui : ∀ a0 a1 a2, WordForm.Statement (.lui a0 a1 a2) := by
  intro a0 a1 a2 r h; obtain rfl := Option.some.inj h
  simp [decodeForm]
theorem WordForm.auipc : ∀ a0 a1 a2, WordForm.Statement (.auipc a0 a1 a2) := by
  intro a0 a1 a2 r h; obtain rfl := Option.some.inj h
  simp [decodeForm]
theorem WordForm.jal : ∀ a0 a1 a2, WordForm.Statement (.jal a0 a1 a2) := by
  intro a0 a1 a2 r h; obtain rfl := Option.some.inj h
  simp [decodeForm]
theorem WordForm.jalr : ∀ a0 a1 a2 a3, WordForm.Statement (.jalr a0 a1 a2 a3) := by
  intro a0 a1 a2 a3 r h; obtain rfl := Option.some.inj h
  simp [decodeForm]
theorem WordForm.beq : ∀ a0 a1 a2 a3, WordForm.Statement (.beq a0 a1 a2 a3) := by
  intro a0 a1 a2 a3 r h; obtain rfl := Option.some.inj h
  simp [decodeForm, decodeBranch]
theorem WordForm.bne : ∀ a0 a1 a2 a3, WordForm.Statement (.bne a0 a1 a2 a3) := by
  intro a0 a1 a2 a3 r h; obtain rfl := Option.some.inj h
  simp [decodeForm, decodeBranch]
theorem WordForm.blt : ∀ a0 a1 a2 a3, WordForm.Statement (.blt a0 a1 a2 a3) := by
  intro a0 a1 a2 a3 r h; obtain rfl := Option.some.inj h
  simp [decodeForm, decodeBranch]
theorem WordForm.bge : ∀ a0 a1 a2 a3, WordForm.Statement (.bge a0 a1 a2 a3) := by
  intro a0 a1 a2 a3 r h; obtain rfl := Option.some.inj h
  simp [decodeForm, decodeBranch]
theorem WordForm.bltu : ∀ a0 a1 a2 a3, WordForm.Statement (.bltu a0 a1 a2 a3) := by
  intro a0 a1 a2 a3 r h; obtain rfl := Option.some.inj h
  simp [decodeForm, decodeBranch]
theorem WordForm.bgeu : ∀ a0 a1 a2 a3, WordForm.Statement (.bgeu a0 a1 a2 a3) := by
  intro a0 a1 a2 a3 r h; obtain rfl := Option.some.inj h
  simp [decodeForm, decodeBranch]
theorem WordForm.lb : ∀ a0 a1 a2 a3, WordForm.Statement (.lb a0 a1 a2 a3) := by
  intro a0 a1 a2 a3 r h; obtain rfl := Option.some.inj h
  simp [decodeForm, decodeLoad]
theorem WordForm.lh : ∀ a0 a1 a2 a3, WordForm.Statement (.lh a0 a1 a2 a3) := by
  intro a0 a1 a2 a3 r h; obtain rfl := Option.some.inj h
  simp [decodeForm, decodeLoad]
theorem WordForm.lw : ∀ a0 a1 a2 a3, WordForm.Statement (.lw a0 a1 a2 a3) := by
  intro a0 a1 a2 a3 r h; obtain rfl := Option.some.inj h
  simp [decodeForm, decodeLoad]
theorem WordForm.ld : ∀ a0 a1 a2 a3, WordForm.Statement (.ld a0 a1 a2 a3) := by
  intro a0 a1 a2 a3 r h; obtain rfl := Option.some.inj h
  simp [decodeForm, decodeLoad]
theorem WordForm.lbu : ∀ a0 a1 a2 a3, WordForm.Statement (.lbu a0 a1 a2 a3) := by
  intro a0 a1 a2 a3 r h; obtain rfl := Option.some.inj h
  simp [decodeForm, decodeLoad]
theorem WordForm.lhu : ∀ a0 a1 a2 a3, WordForm.Statement (.lhu a0 a1 a2 a3) := by
  intro a0 a1 a2 a3 r h; obtain rfl := Option.some.inj h
  simp [decodeForm, decodeLoad]
theorem WordForm.lwu : ∀ a0 a1 a2 a3, WordForm.Statement (.lwu a0 a1 a2 a3) := by
  intro a0 a1 a2 a3 r h; obtain rfl := Option.some.inj h
  simp [decodeForm, decodeLoad]
theorem WordForm.sb : ∀ a0 a1 a2 a3, WordForm.Statement (.sb a0 a1 a2 a3) := by
  intro a0 a1 a2 a3 r h; obtain rfl := Option.some.inj h
  simp [decodeForm, decodeStore]
theorem WordForm.sh : ∀ a0 a1 a2 a3, WordForm.Statement (.sh a0 a1 a2 a3) := by
  intro a0 a1 a2 a3 r h; obtain rfl := Option.some.inj h
  simp [decodeForm, decodeStore]
theorem WordForm.sw : ∀ a0 a1 a2 a3, WordForm.Statement (.sw a0 a1 a2 a3) := by
  intro a0 a1 a2 a3 r h; obtain rfl := Option.some.inj h
  simp [decodeForm, decodeStore]
theorem WordForm.sd : ∀ a0 a1 a2 a3, WordForm.Statement (.sd a0 a1 a2 a3) := by
  intro a0 a1 a2 a3 r h; obtain rfl := Option.some.inj h
  simp [decodeForm, decodeStore]
theorem WordForm.addi : ∀ a0 a1 a2 a3, WordForm.Statement (.addi a0 a1 a2 a3) := by
  intro a0 a1 a2 a3 r h; obtain rfl := Option.some.inj h
  simp [decodeForm, decodeOpImm]
theorem WordForm.slti : ∀ a0 a1 a2 a3, WordForm.Statement (.slti a0 a1 a2 a3) := by
  intro a0 a1 a2 a3 r h; obtain rfl := Option.some.inj h
  simp [decodeForm, decodeOpImm]
theorem WordForm.sltiu : ∀ a0 a1 a2 a3, WordForm.Statement (.sltiu a0 a1 a2 a3) := by
  intro a0 a1 a2 a3 r h; obtain rfl := Option.some.inj h
  simp [decodeForm, decodeOpImm]
theorem WordForm.xori : ∀ a0 a1 a2 a3, WordForm.Statement (.xori a0 a1 a2 a3) := by
  intro a0 a1 a2 a3 r h; obtain rfl := Option.some.inj h
  simp [decodeForm, decodeOpImm]
theorem WordForm.ori : ∀ a0 a1 a2 a3, WordForm.Statement (.ori a0 a1 a2 a3) := by
  intro a0 a1 a2 a3 r h; obtain rfl := Option.some.inj h
  simp [decodeForm, decodeOpImm]
theorem WordForm.andi : ∀ a0 a1 a2 a3, WordForm.Statement (.andi a0 a1 a2 a3) := by
  intro a0 a1 a2 a3 r h; obtain rfl := Option.some.inj h
  simp [decodeForm, decodeOpImm]
theorem WordForm.slli : ∀ a0 a1 a2 a3, WordForm.Statement (.slli a0 a1 a2 a3) := by
  intro a0 a1 a2 a3 r h; obtain rfl := Option.some.inj h
  simp [decodeForm, decodeOpImm, Raw.marked, Raw.shamt]
theorem WordForm.srli : ∀ a0 a1 a2 a3, WordForm.Statement (.srli a0 a1 a2 a3) := by
  intro a0 a1 a2 a3 r h; obtain rfl := Option.some.inj h
  simp [decodeForm, decodeOpImm, Raw.marked, Raw.shamt]
theorem WordForm.srai : ∀ a0 a1 a2 a3, WordForm.Statement (.srai a0 a1 a2 a3) := by
  intro a0 a1 a2 a3 r h; obtain rfl := Option.some.inj h
  simp [decodeForm, decodeOpImm, Raw.marked, Raw.shamt]
theorem WordForm.clz : ∀ a0 a1 a2, WordForm.Statement (.clz a0 a1 a2) := by
  intro a0 a1 a2 r h; obtain rfl := Option.some.inj h
  simp [decodeForm, decodeOpImm, Raw.marked]
theorem WordForm.ctz : ∀ a0 a1 a2, WordForm.Statement (.ctz a0 a1 a2) := by
  intro a0 a1 a2 r h; obtain rfl := Option.some.inj h
  simp [decodeForm, decodeOpImm, Raw.marked]
theorem WordForm.cpop : ∀ a0 a1 a2, WordForm.Statement (.cpop a0 a1 a2) := by
  intro a0 a1 a2 r h; obtain rfl := Option.some.inj h
  simp [decodeForm, decodeOpImm, Raw.marked]
theorem WordForm.addiw : ∀ a0 a1 a2 a3, WordForm.Statement (.addiw a0 a1 a2 a3) := by
  intro a0 a1 a2 a3 r h; obtain rfl := Option.some.inj h
  simp [decodeForm, decodeOpImm32]
theorem WordForm.slliw : ∀ a0 a1 a2 a3, WordForm.Statement (.slliw a0 a1 a2 a3) := by
  intro a0 a1 a2 a3 r h; obtain rfl := Option.some.inj h
  simp [decodeForm, decodeOpImm32, Raw.marked]
theorem WordForm.srliw : ∀ a0 a1 a2 a3, WordForm.Statement (.srliw a0 a1 a2 a3) := by
  intro a0 a1 a2 a3 r h; obtain rfl := Option.some.inj h
  simp [decodeForm, decodeOpImm32, Raw.marked]
theorem WordForm.sraiw : ∀ a0 a1 a2 a3, WordForm.Statement (.sraiw a0 a1 a2 a3) := by
  intro a0 a1 a2 a3 r h; obtain rfl := Option.some.inj h
  simp [decodeForm, decodeOpImm32, Raw.marked]
theorem WordForm.add : ∀ a0 a1 a2 a3, WordForm.Statement (.add a0 a1 a2 a3) := by
  intro a0 a1 a2 a3 r h; obtain rfl := Option.some.inj h
  simp [decodeForm, decodeOp, Raw.marked]
theorem WordForm.sub : ∀ a0 a1 a2 a3, WordForm.Statement (.sub a0 a1 a2 a3) := by
  intro a0 a1 a2 a3 r h; obtain rfl := Option.some.inj h
  simp [decodeForm, decodeOp, Raw.marked]
theorem WordForm.sll : ∀ a0 a1 a2 a3, WordForm.Statement (.sll a0 a1 a2 a3) := by
  intro a0 a1 a2 a3 r h; obtain rfl := Option.some.inj h
  simp [decodeForm, decodeOp, Raw.marked]
theorem WordForm.slt : ∀ a0 a1 a2 a3, WordForm.Statement (.slt a0 a1 a2 a3) := by
  intro a0 a1 a2 a3 r h; obtain rfl := Option.some.inj h
  simp [decodeForm, decodeOp, Raw.marked]
theorem WordForm.sltu : ∀ a0 a1 a2 a3, WordForm.Statement (.sltu a0 a1 a2 a3) := by
  intro a0 a1 a2 a3 r h; obtain rfl := Option.some.inj h
  simp [decodeForm, decodeOp, Raw.marked]
theorem WordForm.xor : ∀ a0 a1 a2 a3, WordForm.Statement (.xor a0 a1 a2 a3) := by
  intro a0 a1 a2 a3 r h; obtain rfl := Option.some.inj h
  simp [decodeForm, decodeOp, Raw.marked]
theorem WordForm.srl : ∀ a0 a1 a2 a3, WordForm.Statement (.srl a0 a1 a2 a3) := by
  intro a0 a1 a2 a3 r h; obtain rfl := Option.some.inj h
  simp [decodeForm, decodeOp, Raw.marked]
theorem WordForm.sra : ∀ a0 a1 a2 a3, WordForm.Statement (.sra a0 a1 a2 a3) := by
  intro a0 a1 a2 a3 r h; obtain rfl := Option.some.inj h
  simp [decodeForm, decodeOp, Raw.marked]
theorem WordForm.or : ∀ a0 a1 a2 a3, WordForm.Statement (.or a0 a1 a2 a3) := by
  intro a0 a1 a2 a3 r h; obtain rfl := Option.some.inj h
  simp [decodeForm, decodeOp, Raw.marked]
theorem WordForm.and : ∀ a0 a1 a2 a3, WordForm.Statement (.and a0 a1 a2 a3) := by
  intro a0 a1 a2 a3 r h; obtain rfl := Option.some.inj h
  simp [decodeForm, decodeOp, Raw.marked]
theorem WordForm.orn : ∀ a0 a1 a2 a3, WordForm.Statement (.orn a0 a1 a2 a3) := by
  intro a0 a1 a2 a3 r h; obtain rfl := Option.some.inj h
  simp [decodeForm, decodeOp, Raw.marked]
theorem WordForm.andn : ∀ a0 a1 a2 a3, WordForm.Statement (.andn a0 a1 a2 a3) := by
  intro a0 a1 a2 a3 r h; obtain rfl := Option.some.inj h
  simp [decodeForm, decodeOp, Raw.marked]
theorem WordForm.mul : ∀ a0 a1 a2 a3, WordForm.Statement (.mul a0 a1 a2 a3) := by
  intro a0 a1 a2 a3 r h; obtain rfl := Option.some.inj h
  simp [decodeForm, decodeOp, Raw.marked]
theorem WordForm.mulh : ∀ a0 a1 a2 a3, WordForm.Statement (.mulh a0 a1 a2 a3) := by
  intro a0 a1 a2 a3 r h; obtain rfl := Option.some.inj h
  simp [decodeForm, decodeOp, Raw.marked]
theorem WordForm.mulhsu : ∀ a0 a1 a2 a3, WordForm.Statement (.mulhsu a0 a1 a2 a3) := by
  intro a0 a1 a2 a3 r h; obtain rfl := Option.some.inj h
  simp [decodeForm, decodeOp, Raw.marked]
theorem WordForm.mulhu : ∀ a0 a1 a2 a3, WordForm.Statement (.mulhu a0 a1 a2 a3) := by
  intro a0 a1 a2 a3 r h; obtain rfl := Option.some.inj h
  simp [decodeForm, decodeOp, Raw.marked]
theorem WordForm.div : ∀ a0 a1 a2 a3, WordForm.Statement (.div a0 a1 a2 a3) := by
  intro a0 a1 a2 a3 r h; obtain rfl := Option.some.inj h
  simp [decodeForm, decodeOp, Raw.marked]
theorem WordForm.divu : ∀ a0 a1 a2 a3, WordForm.Statement (.divu a0 a1 a2 a3) := by
  intro a0 a1 a2 a3 r h; obtain rfl := Option.some.inj h
  simp [decodeForm, decodeOp, Raw.marked]
theorem WordForm.rem : ∀ a0 a1 a2 a3, WordForm.Statement (.rem a0 a1 a2 a3) := by
  intro a0 a1 a2 a3 r h; obtain rfl := Option.some.inj h
  simp [decodeForm, decodeOp, Raw.marked]
theorem WordForm.remu : ∀ a0 a1 a2 a3, WordForm.Statement (.remu a0 a1 a2 a3) := by
  intro a0 a1 a2 a3 r h; obtain rfl := Option.some.inj h
  simp [decodeForm, decodeOp, Raw.marked]
theorem WordForm.min : ∀ a0 a1 a2 a3, WordForm.Statement (.min a0 a1 a2 a3) := by
  intro a0 a1 a2 a3 r h; obtain rfl := Option.some.inj h
  simp [decodeForm, decodeOp, Raw.marked]
theorem WordForm.minu : ∀ a0 a1 a2 a3, WordForm.Statement (.minu a0 a1 a2 a3) := by
  intro a0 a1 a2 a3 r h; obtain rfl := Option.some.inj h
  simp [decodeForm, decodeOp, Raw.marked]
theorem WordForm.max : ∀ a0 a1 a2 a3, WordForm.Statement (.max a0 a1 a2 a3) := by
  intro a0 a1 a2 a3 r h; obtain rfl := Option.some.inj h
  simp [decodeForm, decodeOp, Raw.marked]
theorem WordForm.maxu : ∀ a0 a1 a2 a3, WordForm.Statement (.maxu a0 a1 a2 a3) := by
  intro a0 a1 a2 a3 r h; obtain rfl := Option.some.inj h
  simp [decodeForm, decodeOp, Raw.marked]
theorem WordForm.sh1add : ∀ a0 a1 a2 a3, WordForm.Statement (.sh1add a0 a1 a2 a3) := by
  intro a0 a1 a2 a3 r h; obtain rfl := Option.some.inj h
  simp [decodeForm, decodeOp, Raw.marked]
theorem WordForm.sh2add : ∀ a0 a1 a2 a3, WordForm.Statement (.sh2add a0 a1 a2 a3) := by
  intro a0 a1 a2 a3 r h; obtain rfl := Option.some.inj h
  simp [decodeForm, decodeOp, Raw.marked]
theorem WordForm.sh3add : ∀ a0 a1 a2 a3, WordForm.Statement (.sh3add a0 a1 a2 a3) := by
  intro a0 a1 a2 a3 r h; obtain rfl := Option.some.inj h
  simp [decodeForm, decodeOp, Raw.marked]
theorem WordForm.addw : ∀ a0 a1 a2 a3, WordForm.Statement (.addw a0 a1 a2 a3) := by
  intro a0 a1 a2 a3 r h; obtain rfl := Option.some.inj h
  simp [decodeForm, decodeOp32, Raw.marked]
theorem WordForm.subw : ∀ a0 a1 a2 a3, WordForm.Statement (.subw a0 a1 a2 a3) := by
  intro a0 a1 a2 a3 r h; obtain rfl := Option.some.inj h
  simp [decodeForm, decodeOp32, Raw.marked]
theorem WordForm.sllw : ∀ a0 a1 a2 a3, WordForm.Statement (.sllw a0 a1 a2 a3) := by
  intro a0 a1 a2 a3 r h; obtain rfl := Option.some.inj h
  simp [decodeForm, decodeOp32, Raw.marked]
theorem WordForm.srlw : ∀ a0 a1 a2 a3, WordForm.Statement (.srlw a0 a1 a2 a3) := by
  intro a0 a1 a2 a3 r h; obtain rfl := Option.some.inj h
  simp [decodeForm, decodeOp32, Raw.marked]
theorem WordForm.sraw : ∀ a0 a1 a2 a3, WordForm.Statement (.sraw a0 a1 a2 a3) := by
  intro a0 a1 a2 a3 r h; obtain rfl := Option.some.inj h
  simp [decodeForm, decodeOp32, Raw.marked]
theorem WordForm.mulw : ∀ a0 a1 a2 a3, WordForm.Statement (.mulw a0 a1 a2 a3) := by
  intro a0 a1 a2 a3 r h; obtain rfl := Option.some.inj h
  simp [decodeForm, decodeOp32, Raw.marked]
theorem WordForm.divw : ∀ a0 a1 a2 a3, WordForm.Statement (.divw a0 a1 a2 a3) := by
  intro a0 a1 a2 a3 r h; obtain rfl := Option.some.inj h
  simp [decodeForm, decodeOp32, Raw.marked]
theorem WordForm.divuw : ∀ a0 a1 a2 a3, WordForm.Statement (.divuw a0 a1 a2 a3) := by
  intro a0 a1 a2 a3 r h; obtain rfl := Option.some.inj h
  simp [decodeForm, decodeOp32, Raw.marked]
theorem WordForm.remw : ∀ a0 a1 a2 a3, WordForm.Statement (.remw a0 a1 a2 a3) := by
  intro a0 a1 a2 a3 r h; obtain rfl := Option.some.inj h
  simp [decodeForm, decodeOp32, Raw.marked]
theorem WordForm.remuw : ∀ a0 a1 a2 a3, WordForm.Statement (.remuw a0 a1 a2 a3) := by
  intro a0 a1 a2 a3 r h; obtain rfl := Option.some.inj h
  simp [decodeForm, decodeOp32, Raw.marked]
theorem WordForm.ecall : ∀ a0, WordForm.Statement (.ecall a0) := by
  intro a0 r h; obtain rfl := Option.some.inj h
  simp [decodeForm, decodeSystem, Raw.marked]
theorem WordForm.ebreak : ∀ a0, WordForm.Statement (.ebreak a0) := by
  intro a0 r h; obtain rfl := Option.some.inj h
  simp [decodeForm, decodeSystem, Raw.marked]
theorem WordForm.xret : ∀ a0, WordForm.Statement (.xret a0) := by
  intro a0 r h; obtain rfl := Option.some.inj h
  simp [decodeForm, decodeSystem, Raw.marked]
theorem WordForm.csrrw : ∀ a0 a1 a2 a3, WordForm.Statement (.csrrw a0 a1 a2 a3) := by
  intro a0 a1 a2 a3 r h; obtain rfl := Option.some.inj h
  simp [decodeForm, decodeSystem]
theorem WordForm.csrrs : ∀ a0 a1 a2 a3, WordForm.Statement (.csrrs a0 a1 a2 a3) := by
  intro a0 a1 a2 a3 r h; obtain rfl := Option.some.inj h
  simp [decodeForm, decodeSystem]
theorem WordForm.csrrc : ∀ a0 a1 a2 a3, WordForm.Statement (.csrrc a0 a1 a2 a3) := by
  intro a0 a1 a2 a3 r h; obtain rfl := Option.some.inj h
  simp [decodeForm, decodeSystem]
theorem WordForm.csrrwi : ∀ a0 a1 a2 a3, WordForm.Statement (.csrrwi a0 a1 a2 a3) := by
  intro a0 a1 a2 a3 r h; obtain rfl := Option.some.inj h
  simp [decodeForm, decodeSystem]
theorem WordForm.csrrsi : ∀ a0 a1 a2 a3, WordForm.Statement (.csrrsi a0 a1 a2 a3) := by
  intro a0 a1 a2 a3 r h; obtain rfl := Option.some.inj h
  simp [decodeForm, decodeSystem]
theorem WordForm.csrrci : ∀ a0 a1 a2 a3, WordForm.Statement (.csrrci a0 a1 a2 a3) := by
  intro a0 a1 a2 a3 r h; obtain rfl := Option.some.inj h
  simp [decodeForm, decodeSystem]
theorem WordForm.cwait : ∀ a0 a1 a2 a3 a4, WordForm.Statement (.cwait a0 a1 a2 a3 a4) := by
  intro a0 a1 a2 a3 a4 r h; obtain rfl := Option.some.inj h
  simp [decodeForm, decodeSync, Raw.marked]
theorem WordForm.lwait : ∀ a0 a1 a2 a3 a4, WordForm.Statement (.lwait a0 a1 a2 a3 a4) := by
  intro a0 a1 a2 a3 a4 r h; obtain rfl := Option.some.inj h
  simp [decodeForm, decodeSync, Raw.marked]
theorem WordForm.barw : ∀ a0 a1 a2 a3, WordForm.Statement (.barw a0 a1 a2 a3) := by
  intro a0 a1 a2 a3 r h; obtain rfl := Option.some.inj h
  simp [decodeForm, decodeSync, Raw.marked]
theorem WordForm.recv : ∀ a0 a1 a2 a3, WordForm.Statement (.recv a0 a1 a2 a3) := by
  intro a0 a1 a2 a3 r h; obtain rfl := Option.some.inj h
  simp [decodeForm, decodeSync, Raw.marked]
theorem WordForm.fencew : ∀ a0 a1 a2 a3 a4, WordForm.Statement (.fencew a0 a1 a2 a3 a4) := by
  intro a0 a1 a2 a3 a4 r h; obtain rfl := Option.some.inj h
  simp [decodeForm, decodeSync, Raw.marked]
theorem WordForm.mwait : ∀ a0 a1 a2, WordForm.Statement (.mwait a0 a1 a2) := by
  intro a0 a1 a2 r h; obtain rfl := Option.some.inj h
  simp [decodeForm, decodeSync, Raw.marked]
theorem WordForm.ifencew : ∀ a0 a1 a2, WordForm.Statement (.ifencew a0 a1 a2) := by
  intro a0 a1 a2 r h; obtain rfl := Option.some.inj h
  simp [decodeForm, decodeSync, Raw.marked]
theorem WordForm.barx : ∀ a0 a1 a2 a3, WordForm.Statement (.barx a0 a1 a2 a3) := by
  intro a0 a1 a2 a3 r h; obtain rfl := Option.some.inj h
  simp [decodeForm, decodeSync, Raw.marked]
theorem WordForm.spawn : ∀ a0 a1 a2 a3 a4, WordForm.Statement (.spawn a0 a1 a2 a3 a4) := by
  intro a0 a1 a2 a3 a4 r h; obtain rfl := Option.some.inj h
  simp [decodeForm, decodeSync, Raw.marked]
theorem WordForm.acasV : ∀ a0 a1 a2 a3 a4, WordForm.Statement (.acasV a0 a1 a2 a3 a4) := by
  intro a0 a1 a2 a3 a4 r h; obtain rfl := Option.some.inj h
  simp [decodeForm, decodeSync, Raw.marked]
theorem WordForm.acasS : ∀ a0 a1 a2 a3 a4, WordForm.Statement (.acasS a0 a1 a2 a3 a4) := by
  intro a0 a1 a2 a3 a4 r h; obtain rfl := Option.some.inj h
  simp [decodeForm, decodeSync, Raw.marked]
theorem WordForm.ttake : ∀ a0 a1 a2 a3, WordForm.Statement (.ttake a0 a1 a2 a3) := by
  intro a0 a1 a2 a3 r h; obtain rfl := Option.some.inj h
  simp [decodeForm, decodeSync, Raw.marked]
theorem WordForm.qpush : ∀ a0 a1 a2 a3 a4, WordForm.Statement (.qpush a0 a1 a2 a3 a4) := by
  intro a0 a1 a2 a3 a4 r h; obtain rfl := Option.some.inj h
  simp [decodeForm, decodeSync, Raw.marked]
theorem WordForm.evstep : ∀ a0 a1 a2 a3, WordForm.Statement (.evstep a0 a1 a2 a3) := by
  intro a0 a1 a2 a3 r h; obtain rfl := Option.some.inj h
  simp [decodeForm, decodeSync, Raw.marked]
theorem WordForm.cadd : ∀ a0 a1 a2 a3 a4, WordForm.Statement (.cadd a0 a1 a2 a3 a4) := by
  intro a0 a1 a2 a3 a4 r h; obtain rfl := Option.some.inj h
  simp [decodeForm, decodeSync, Raw.marked]
theorem WordForm.mona : ∀ a0 a1 a2, WordForm.Statement (.mona a0 a1 a2) := by
  intro a0 a1 a2 r h; obtain rfl := Option.some.inj h
  simp [decodeForm, decodeSync, Raw.marked]
theorem WordForm.mclr : ∀ a0 a1, WordForm.Statement (.mclr a0 a1) := by
  intro a0 a1 r h; obtain rfl := Option.some.inj h
  simp [decodeForm, decodeSync, Raw.marked]
theorem WordForm.join : ∀ a0 a1 a2, WordForm.Statement (.join a0 a1 a2) := by
  intro a0 a1 a2 r h; obtain rfl := Option.some.inj h
  simp [decodeForm, decodeSync, Raw.marked]
theorem WordForm.leave : ∀ a0 a1 a2, WordForm.Statement (.leave a0 a1 a2) := by
  intro a0 a1 a2 r h; obtain rfl := Option.some.inj h
  simp [decodeForm, decodeSync, Raw.marked]
theorem WordForm.gnew : ∀ a0 a1 a2, WordForm.Statement (.gnew a0 a1 a2) := by
  intro a0 a1 a2 r h; obtain rfl := Option.some.inj h
  simp [decodeForm, decodeSync, Raw.marked]
theorem WordForm.gfree : ∀ a0 a1 a2, WordForm.Statement (.gfree a0 a1 a2) := by
  intro a0 a1 a2 r h; obtain rfl := Option.some.inj h
  simp [decodeForm, decodeSync, Raw.marked]
theorem WordForm.bara : ∀ a0 a1 a2, WordForm.Statement (.bara a0 a1 a2) := by
  intro a0 a1 a2 r h; obtain rfl := Option.some.inj h
  simp [decodeForm, decodeSync, Raw.marked]
theorem WordForm.exit : ∀ a0 a1, WordForm.Statement (.exit a0 a1) := by
  intro a0 a1 r h; obtain rfl := Option.some.inj h
  simp [decodeForm, decodeSync, Raw.marked]
theorem WordForm.lda : ∀ a0 a1 a2 a3, WordForm.Statement (.lda a0 a1 a2 a3) := by
  intro a0 a1 a2 a3 r h; obtain rfl := Option.some.inj h
  simp [decodeForm, decodeSync, Raw.marked]
theorem WordForm.stl : ∀ a0 a1 a2 a3, WordForm.Statement (.stl a0 a1 a2 a3) := by
  intro a0 a1 a2 a3 r h; obtain rfl := Option.some.inj h
  simp [decodeForm, decodeSync, Raw.marked]
theorem WordForm.tgive : ∀ a0 a1, WordForm.Statement (.tgive a0 a1) := by
  intro a0 a1 r h; obtain rfl := Option.some.inj h
  simp [decodeForm, decodeSync, Raw.marked]
theorem WordForm.tmark : ∀ a0 a1, WordForm.Statement (.tmark a0 a1) := by
  intro a0 a1 r h; obtain rfl := Option.some.inj h
  simp [decodeForm, decodeSync, Raw.marked]
theorem WordForm.cswap : ∀ a0, WordForm.Statement (.cswap a0) := by
  intro a0 r h; obtain rfl := Option.some.inj h
  simp [decodeForm, decodeSync, Raw.marked]
theorem WordForm.aadd : ∀ a0 a1 a2 a3 a4, WordForm.Statement (.aadd a0 a1 a2 a3 a4) := by
  intro a0 a1 a2 a3 a4 r h; obtain rfl := Option.some.inj h
  simp [decodeForm, decodeSync, Raw.marked]
theorem WordForm.aand : ∀ a0 a1 a2 a3 a4, WordForm.Statement (.aand a0 a1 a2 a3 a4) := by
  intro a0 a1 a2 a3 a4 r h; obtain rfl := Option.some.inj h
  simp [decodeForm, decodeSync, Raw.marked]
theorem WordForm.aor : ∀ a0 a1 a2 a3 a4, WordForm.Statement (.aor a0 a1 a2 a3 a4) := by
  intro a0 a1 a2 a3 a4 r h; obtain rfl := Option.some.inj h
  simp [decodeForm, decodeSync, Raw.marked]
theorem WordForm.axor : ∀ a0 a1 a2 a3 a4, WordForm.Statement (.axor a0 a1 a2 a3 a4) := by
  intro a0 a1 a2 a3 a4 r h; obtain rfl := Option.some.inj h
  simp [decodeForm, decodeSync, Raw.marked]
theorem WordForm.amin : ∀ a0 a1 a2 a3 a4, WordForm.Statement (.amin a0 a1 a2 a3 a4) := by
  intro a0 a1 a2 a3 a4 r h; obtain rfl := Option.some.inj h
  simp [decodeForm, decodeSync, Raw.marked]
theorem WordForm.amax : ∀ a0 a1 a2 a3 a4, WordForm.Statement (.amax a0 a1 a2 a3 a4) := by
  intro a0 a1 a2 a3 a4 r h; obtain rfl := Option.some.inj h
  simp [decodeForm, decodeSync, Raw.marked]
theorem WordForm.aminu : ∀ a0 a1 a2 a3 a4, WordForm.Statement (.aminu a0 a1 a2 a3 a4) := by
  intro a0 a1 a2 a3 a4 r h; obtain rfl := Option.some.inj h
  simp [decodeForm, decodeSync, Raw.marked]
theorem WordForm.amaxu : ∀ a0 a1 a2 a3 a4, WordForm.Statement (.amaxu a0 a1 a2 a3 a4) := by
  intro a0 a1 a2 a3 a4 r h; obtain rfl := Option.some.inj h
  simp [decodeForm, decodeSync, Raw.marked]
theorem WordForm.aswap : ∀ a0 a1 a2 a3 a4, WordForm.Statement (.aswap a0 a1 a2 a3 a4) := by
  intro a0 a1 a2 a3 a4 r h; obtain rfl := Option.some.inj h
  simp [decodeForm, decodeSync, Raw.marked]
theorem WordForm.vadd : ∀ a0 a1 a2 a3 a4 a5, WordForm.Statement (.vadd a0 a1 a2 a3 a4 a5) := by
  intro a0 a1 a2 a3 a4 a5 r h; obtain rfl := Option.some.inj h
  simp [decodeForm, decodeVec, Raw.marked]
theorem WordForm.vsub : ∀ a0 a1 a2 a3 a4 a5, WordForm.Statement (.vsub a0 a1 a2 a3 a4 a5) := by
  intro a0 a1 a2 a3 a4 a5 r h; obtain rfl := Option.some.inj h
  simp [decodeForm, decodeVec, Raw.marked]
theorem WordForm.vmul : ∀ a0 a1 a2 a3 a4 a5, WordForm.Statement (.vmul a0 a1 a2 a3 a4 a5) := by
  intro a0 a1 a2 a3 a4 a5 r h; obtain rfl := Option.some.inj h
  simp [decodeForm, decodeVec, Raw.marked]
theorem WordForm.vmulh : ∀ a0 a1 a2 a3 a4 a5, WordForm.Statement (.vmulh a0 a1 a2 a3 a4 a5) := by
  intro a0 a1 a2 a3 a4 a5 r h; obtain rfl := Option.some.inj h
  simp [decodeForm, decodeVec, Raw.marked]
theorem WordForm.vmadd : ∀ a0 a1 a2 a3 a4 a5, WordForm.Statement (.vmadd a0 a1 a2 a3 a4 a5) := by
  intro a0 a1 a2 a3 a4 a5 r h; obtain rfl := Option.some.inj h
  simp [decodeForm, decodeVec, Raw.marked]
theorem WordForm.vmin : ∀ a0 a1 a2 a3 a4 a5, WordForm.Statement (.vmin a0 a1 a2 a3 a4 a5) := by
  intro a0 a1 a2 a3 a4 a5 r h; obtain rfl := Option.some.inj h
  simp [decodeForm, decodeVec, Raw.marked]
theorem WordForm.vmax : ∀ a0 a1 a2 a3 a4 a5, WordForm.Statement (.vmax a0 a1 a2 a3 a4 a5) := by
  intro a0 a1 a2 a3 a4 a5 r h; obtain rfl := Option.some.inj h
  simp [decodeForm, decodeVec, Raw.marked]
theorem WordForm.vand : ∀ a0 a1 a2 a3 a4 a5, WordForm.Statement (.vand a0 a1 a2 a3 a4 a5) := by
  intro a0 a1 a2 a3 a4 a5 r h; obtain rfl := Option.some.inj h
  simp [decodeForm, decodeVec, Raw.marked]
theorem WordForm.vor : ∀ a0 a1 a2 a3 a4 a5, WordForm.Statement (.vor a0 a1 a2 a3 a4 a5) := by
  intro a0 a1 a2 a3 a4 a5 r h; obtain rfl := Option.some.inj h
  simp [decodeForm, decodeVec, Raw.marked]
theorem WordForm.vxor : ∀ a0 a1 a2 a3 a4 a5, WordForm.Statement (.vxor a0 a1 a2 a3 a4 a5) := by
  intro a0 a1 a2 a3 a4 a5 r h; obtain rfl := Option.some.inj h
  simp [decodeForm, decodeVec, Raw.marked]
theorem WordForm.vsll : ∀ a0 a1 a2 a3 a4 a5, WordForm.Statement (.vsll a0 a1 a2 a3 a4 a5) := by
  intro a0 a1 a2 a3 a4 a5 r h; obtain rfl := Option.some.inj h
  simp [decodeForm, decodeVec, Raw.marked]
theorem WordForm.vsrl : ∀ a0 a1 a2 a3 a4 a5, WordForm.Statement (.vsrl a0 a1 a2 a3 a4 a5) := by
  intro a0 a1 a2 a3 a4 a5 r h; obtain rfl := Option.some.inj h
  simp [decodeForm, decodeVec, Raw.marked]
theorem WordForm.vsra : ∀ a0 a1 a2 a3 a4 a5, WordForm.Statement (.vsra a0 a1 a2 a3 a4 a5) := by
  intro a0 a1 a2 a3 a4 a5 r h; obtain rfl := Option.some.inj h
  simp [decodeForm, decodeVec, Raw.marked]
theorem WordForm.vcmpeq : ∀ a0 a1 a2 a3 a4 a5, WordForm.Statement (.vcmpeq a0 a1 a2 a3 a4 a5) := by
  intro a0 a1 a2 a3 a4 a5 r h; obtain rfl := Option.some.inj h
  simp [decodeForm, decodeVec, Raw.marked]
theorem WordForm.vcmplt : ∀ a0 a1 a2 a3 a4 a5, WordForm.Statement (.vcmplt a0 a1 a2 a3 a4 a5) := by
  intro a0 a1 a2 a3 a4 a5 r h; obtain rfl := Option.some.inj h
  simp [decodeForm, decodeVec, Raw.marked]
theorem WordForm.vcmple : ∀ a0 a1 a2 a3 a4 a5, WordForm.Statement (.vcmple a0 a1 a2 a3 a4 a5) := by
  intro a0 a1 a2 a3 a4 a5 r h; obtain rfl := Option.some.inj h
  simp [decodeForm, decodeVec, Raw.marked]
theorem WordForm.vsel : ∀ a0 a1 a2 a3 a4 a5, WordForm.Statement (.vsel a0 a1 a2 a3 a4 a5) := by
  intro a0 a1 a2 a3 a4 a5 r h; obtain rfl := Option.some.inj h
  simp [decodeForm, decodeVec, Raw.marked]
theorem WordForm.vcvt : ∀ a0 a1 a2 a3 a4 a5 a6, WordForm.Statement (.vcvt a0 a1 a2 a3 a4 a5 a6) := by
  intro a0 a1 a2 a3 a4 a5 a6 r h; obtain rfl := Option.some.inj h
  simp [decodeForm, decodeVec, Raw.marked]
theorem WordForm.vnrw : ∀ a0 a1 a2 a3 a4 a5, WordForm.Statement (.vnrw a0 a1 a2 a3 a4 a5) := by
  intro a0 a1 a2 a3 a4 a5 r h; obtain rfl := Option.some.inj h
  simp [decodeForm, decodeVec, Raw.marked]
theorem WordForm.vwid : ∀ a0 a1 a2 a3 a4, WordForm.Statement (.vwid a0 a1 a2 a3 a4) := by
  intro a0 a1 a2 a3 a4 r h; obtain rfl := Option.some.inj h
  simp [decodeForm, decodeVec, Raw.marked]
theorem WordForm.vrsum : ∀ a0 a1 a2 a3 a4, WordForm.Statement (.vrsum a0 a1 a2 a3 a4) := by
  intro a0 a1 a2 a3 a4 r h; obtain rfl := Option.some.inj h
  simp [decodeForm, decodeVec, Raw.marked]
theorem WordForm.vrmax : ∀ a0 a1 a2 a3 a4, WordForm.Statement (.vrmax a0 a1 a2 a3 a4) := by
  intro a0 a1 a2 a3 a4 r h; obtain rfl := Option.some.inj h
  simp [decodeForm, decodeVec, Raw.marked]
theorem WordForm.vrmin : ∀ a0 a1 a2 a3 a4, WordForm.Statement (.vrmin a0 a1 a2 a3 a4) := by
  intro a0 a1 a2 a3 a4 r h; obtain rfl := Option.some.inj h
  simp [decodeForm, decodeVec, Raw.marked]
theorem WordForm.vperm : ∀ a0 a1 a2 a3 a4 a5, WordForm.Statement (.vperm a0 a1 a2 a3 a4 a5) := by
  intro a0 a1 a2 a3 a4 a5 r h; obtain rfl := Option.some.inj h
  simp [decodeForm, decodeVec, Raw.marked]
theorem WordForm.vdot : ∀ a0 a1 a2 a3 a4, WordForm.Statement (.vdot a0 a1 a2 a3 a4) := by
  intro a0 a1 a2 a3 a4 r h; obtain rfl := Option.some.inj h
  simp [decodeForm, decodeVec, Raw.marked]
theorem WordForm.vpopc : ∀ a0 a1 a2 a3 a4, WordForm.Statement (.vpopc a0 a1 a2 a3 a4) := by
  intro a0 a1 a2 a3 a4 r h; obtain rfl := Option.some.inj h
  simp [decodeForm, decodeVec, Raw.marked]
theorem WordForm.vlut : ∀ a0 a1 a2 a3 a4, WordForm.Statement (.vlut a0 a1 a2 a3 a4) := by
  intro a0 a1 a2 a3 a4 r h; obtain rfl := Option.some.inj h
  simp [decodeForm, decodeVec, Raw.marked]
theorem WordForm.vabs : ∀ a0 a1 a2 a3 a4, WordForm.Statement (.vabs a0 a1 a2 a3 a4) := by
  intro a0 a1 a2 a3 a4 r h; obtain rfl := Option.some.inj h
  simp [decodeForm, decodeVec, Raw.marked]
theorem WordForm.vsplat : ∀ a0 a1 a2 a3 a4, WordForm.Statement (.vsplat a0 a1 a2 a3 a4) := by
  intro a0 a1 a2 a3 a4 r h; obtain rfl := Option.some.inj h
  simp [decodeForm, decodeVec, Raw.marked]
theorem WordForm.vext : ∀ a0 a1 a2 a3 a4, WordForm.Statement (.vext a0 a1 a2 a3 a4) := by
  intro a0 a1 a2 a3 a4 r h; obtain rfl := Option.some.inj h
  simp [decodeForm, decodeVec, Raw.marked]
theorem WordForm.vins : ∀ a0 a1 a2 a3 a4, WordForm.Statement (.vins a0 a1 a2 a3 a4) := by
  intro a0 a1 a2 a3 a4 r h; obtain rfl := Option.some.inj h
  simp [decodeForm, decodeVec, Raw.marked]
theorem WordForm.scmac : ∀ a0 a1 a2 a3 a4 a5, WordForm.Statement (.scmac a0 a1 a2 a3 a4 a5) := by
  intro a0 a1 a2 a3 a4 a5 r h; obtain rfl := Option.some.inj h
  simp [decodeForm, decodeVec, Raw.marked]
theorem WordForm.vld : ∀ a0 a1 a2 a3 a4, WordForm.Statement (.vld a0 a1 a2 a3 a4) := by
  intro a0 a1 a2 a3 a4 r h; obtain rfl := Option.some.inj h
  simp [decodeForm, decodeVmem, Raw.marked]
theorem WordForm.vst : ∀ a0 a1 a2 a3 a4, WordForm.Statement (.vst a0 a1 a2 a3 a4) := by
  intro a0 a1 a2 a3 a4 r h; obtain rfl := Option.some.inj h
  simp [decodeForm, decodeVmem, Raw.marked]
theorem WordForm.vlds : ∀ a0 a1 a2 a3 a4 a5, WordForm.Statement (.vlds a0 a1 a2 a3 a4 a5) := by
  intro a0 a1 a2 a3 a4 a5 r h; obtain rfl := Option.some.inj h
  simp [decodeForm, decodeVmem, Raw.marked]
theorem WordForm.vsts : ∀ a0 a1 a2 a3 a4 a5, WordForm.Statement (.vsts a0 a1 a2 a3 a4 a5) := by
  intro a0 a1 a2 a3 a4 a5 r h; obtain rfl := Option.some.inj h
  simp [decodeForm, decodeVmem, Raw.marked]
theorem WordForm.vldx : ∀ a0 a1 a2 a3 a4 a5, WordForm.Statement (.vldx a0 a1 a2 a3 a4 a5) := by
  intro a0 a1 a2 a3 a4 a5 r h; obtain rfl := Option.some.inj h
  simp [decodeForm, decodeVmem, Raw.marked]
theorem WordForm.vstx : ∀ a0 a1 a2 a3 a4 a5, WordForm.Statement (.vstx a0 a1 a2 a3 a4 a5) := by
  intro a0 a1 a2 a3 a4 a5 r h; obtain rfl := Option.some.inj h
  simp [decodeForm, decodeVmem, Raw.marked]
theorem WordForm.vldb : ∀ a0 a1 a2 a3 a4, WordForm.Statement (.vldb a0 a1 a2 a3 a4) := by
  intro a0 a1 a2 a3 a4 r h; obtain rfl := Option.some.inj h
  simp [decodeForm, decodeVmem, Raw.marked]
theorem WordForm.sbind : ∀ a0 a1 a2 a3, WordForm.Statement (.sbind a0 a1 a2 a3) := by
  intro a0 a1 a2 a3 r h; obtain rfl := Option.some.inj h
  simp [decodeForm, decodeVmem, Raw.marked]
theorem WordForm.sunb : ∀ a0 a1, WordForm.Statement (.sunb a0 a1) := by
  intro a0 a1 r h; obtain rfl := Option.some.inj h
  simp [decodeForm, decodeVmem, Raw.marked]
theorem WordForm.sstat : ∀ a0 a1 a2, WordForm.Statement (.sstat a0 a1 a2) := by
  intro a0 a1 a2 r h; obtain rfl := Option.some.inj h
  simp [decodeForm, decodeVmem, Raw.marked]
theorem WordForm.mldm : ∀ a0 a1 a2, WordForm.Statement (.mldm a0 a1 a2) := by
  intro a0 a1 a2 r h; obtain rfl := Option.some.inj h
  simp [decodeForm, decodeVmem, Raw.marked]
theorem WordForm.mstm : ∀ a0 a1 a2, WordForm.Statement (.mstm a0 a1 a2) := by
  intro a0 a1 a2 r h; obtain rfl := Option.some.inj h
  simp [decodeForm, decodeVmem, Raw.marked]
theorem WordForm.mand : ∀ a0 a1 a2 a3, WordForm.Statement (.mand a0 a1 a2 a3) := by
  intro a0 a1 a2 a3 r h; obtain rfl := Option.some.inj h
  simp [decodeForm, decodeVmem, Raw.marked]
theorem WordForm.mor : ∀ a0 a1 a2 a3, WordForm.Statement (.mor a0 a1 a2 a3) := by
  intro a0 a1 a2 a3 r h; obtain rfl := Option.some.inj h
  simp [decodeForm, decodeVmem, Raw.marked]
theorem WordForm.mxor : ∀ a0 a1 a2 a3, WordForm.Statement (.mxor a0 a1 a2 a3) := by
  intro a0 a1 a2 a3 r h; obtain rfl := Option.some.inj h
  simp [decodeForm, decodeVmem, Raw.marked]
theorem WordForm.mnot : ∀ a0 a1 a2, WordForm.Statement (.mnot a0 a1 a2) := by
  intro a0 a1 a2 r h; obtain rfl := Option.some.inj h
  simp [decodeForm, decodeVmem, Raw.marked]
theorem WordForm.mpopc : ∀ a0 a1 a2, WordForm.Statement (.mpopc a0 a1 a2) := by
  intro a0 a1 a2 r h; obtain rfl := Option.some.inj h
  simp [decodeForm, decodeVmem, Raw.marked]
theorem WordForm.mfirst : ∀ a0 a1 a2, WordForm.Statement (.mfirst a0 a1 a2) := by
  intro a0 a1 a2 r h; obtain rfl := Option.some.inj h
  simp [decodeForm, decodeVmem, Raw.marked]
theorem WordForm.mset : ∀ a0 a1 a2, WordForm.Statement (.mset a0 a1 a2) := by
  intro a0 a1 a2 r h; obtain rfl := Option.some.inj h
  simp [decodeForm, decodeVmem, Raw.marked]
theorem WordForm.sdstep : ∀ a0 a1 a2, WordForm.Statement (.sdstep a0 a1 a2) := by
  intro a0 a1 a2 r h; obtain rfl := Option.some.inj h
  simp [decodeForm, decodeVmem, Raw.marked]
theorem WordForm.evsend : ∀ a0 a1 a2 a3, WordForm.Statement (.evsend a0 a1 a2 a3) := by
  intro a0 a1 a2 a3 r h; obtain rfl := Option.some.inj h
  simp [decodeForm, decodeVmem, Raw.marked]
theorem WordForm.mma : ∀ a0 a1 a2 a3, WordForm.Statement (.mma a0 a1 a2 a3) := by
  intro a0 a1 a2 a3 r h; obtain rfl := Option.some.inj h
  simp [decodeForm, decodeXeng, Raw.marked]
theorem WordForm.mmaBs : ∀ a0 a1 a2 a3, WordForm.Statement (.mmaBs a0 a1 a2 a3) := by
  intro a0 a1 a2 a3 r h; obtain rfl := Option.some.inj h
  simp [decodeForm, decodeXeng, Raw.marked]
theorem WordForm.mlut : ∀ a0 a1 a2 a3, WordForm.Statement (.mlut a0 a1 a2 a3) := by
  intro a0 a1 a2 a3 r h; obtain rfl := Option.some.inj h
  simp [decodeForm, decodeXeng, Raw.marked]
theorem WordForm.mbin : ∀ a0 a1 a2 a3, WordForm.Statement (.mbin a0 a1 a2 a3) := by
  intro a0 a1 a2 a3 r h; obtain rfl := Option.some.inj h
  simp [decodeForm, decodeXeng, Raw.marked]
theorem WordForm.mzero : ∀ a0 a1 a2 a3, WordForm.Statement (.mzero a0 a1 a2 a3) := by
  intro a0 a1 a2 a3 r h; obtain rfl := Option.some.inj h
  simp [decodeForm, decodeXeng, Raw.marked]
theorem WordForm.mlda : ∀ a0 a1 a2 a3, WordForm.Statement (.mlda a0 a1 a2 a3) := by
  intro a0 a1 a2 a3 r h; obtain rfl := Option.some.inj h
  simp [decodeForm, decodeXeng, Raw.marked]
theorem WordForm.msta : ∀ a0 a1 a2 a3, WordForm.Statement (.msta a0 a1 a2 a3) := by
  intro a0 a1 a2 a3 r h; obtain rfl := Option.some.inj h
  simp [decodeForm, decodeXeng, Raw.marked]
theorem WordForm.tcfg : ∀ a0 a1 a2 a3, WordForm.Statement (.tcfg a0 a1 a2 a3) := by
  intro a0 a1 a2 a3 r h; obtain rfl := Option.some.inj h
  simp [decodeForm, decodeXeng, Raw.marked]
theorem WordForm.trel : ∀ a0 a1 a2 a3, WordForm.Statement (.trel a0 a1 a2 a3) := by
  intro a0 a1 a2 a3 r h; obtain rfl := Option.some.inj h
  simp [decodeForm, decodeXeng, Raw.marked]
theorem WordForm.mteam : ∀ a0 a1 a2 a3, WordForm.Statement (.mteam a0 a1 a2 a3) := by
  intro a0 a1 a2 a3 r h; obtain rfl := Option.some.inj h
  simp [decodeForm, decodeXeng, Raw.marked]
theorem WordForm.copy1 : ∀ a0 a1 a2 a3, WordForm.Statement (.copy1 a0 a1 a2 a3) := by
  intro a0 a1 a2 a3 r h; obtain rfl := Option.some.inj h
  simp [decodeForm, decodeXeng, Raw.marked]
theorem WordForm.copy2 : ∀ a0 a1 a2 a3, WordForm.Statement (.copy2 a0 a1 a2 a3) := by
  intro a0 a1 a2 a3 r h; obtain rfl := Option.some.inj h
  simp [decodeForm, decodeXeng, Raw.marked]
theorem WordForm.copyx : ∀ a0 a1 a2 a3, WordForm.Statement (.copyx a0 a1 a2 a3) := by
  intro a0 a1 a2 a3 r h; obtain rfl := Option.some.inj h
  simp [decodeForm, decodeXeng, Raw.marked]
theorem WordForm.cfill : ∀ a0 a1 a2 a3, WordForm.Statement (.cfill a0 a1 a2 a3) := by
  intro a0 a1 a2 a3 r h; obtain rfl := Option.some.inj h
  simp [decodeForm, decodeXeng, Raw.marked]
theorem WordForm.qnt8 : ∀ a0 a1 a2 a3, WordForm.Statement (.qnt8 a0 a1 a2 a3) := by
  intro a0 a1 a2 a3 r h; obtain rfl := Option.some.inj h
  simp [decodeForm, decodeXeng, Raw.marked]
theorem WordForm.qs2p : ∀ a0 a1 a2 a3, WordForm.Statement (.qs2p a0 a1 a2 a3) := by
  intro a0 a1 a2 a3 r h; obtain rfl := Option.some.inj h
  simp [decodeForm, decodeXeng, Raw.marked]
theorem WordForm.dqnt : ∀ a0 a1 a2 a3, WordForm.Statement (.dqnt a0 a1 a2 a3) := by
  intro a0 a1 a2 a3 r h; obtain rfl := Option.some.inj h
  simp [decodeForm, decodeXeng, Raw.marked]
theorem WordForm.cred : ∀ a0 a1 a2 a3, WordForm.Statement (.cred a0 a1 a2 a3) := by
  intro a0 a1 a2 a3 r h; obtain rfl := Option.some.inj h
  simp [decodeForm, decodeXeng, Raw.marked]
theorem WordForm.cbcast : ∀ a0 a1 a2 a3, WordForm.Statement (.cbcast a0 a1 a2 a3) := by
  intro a0 a1 a2 a3 r h; obtain rfl := Option.some.inj h
  simp [decodeForm, decodeXeng, Raw.marked]
theorem WordForm.cagath : ∀ a0 a1 a2 a3, WordForm.Statement (.cagath a0 a1 a2 a3) := by
  intro a0 a1 a2 a3 r h; obtain rfl := Option.some.inj h
  simp [decodeForm, decodeXeng, Raw.marked]
theorem WordForm.sdcfg : ∀ a0 a1 a2 a3, WordForm.Statement (.sdcfg a0 a1 a2 a3) := by
  intro a0 a1 a2 a3 r h; obtain rfl := Option.some.inj h
  simp [decodeForm, decodeXeng, Raw.marked]
theorem WordForm.sdrst : ∀ a0 a1 a2 a3, WordForm.Statement (.sdrst a0 a1 a2 a3) := by
  intro a0 a1 a2 a3 r h; obtain rfl := Option.some.inj h
  simp [decodeForm, decodeXeng, Raw.marked]
theorem WordForm.commandStart : ∀ a0 a1, WordForm.Statement (.commandStart a0 a1) := by
  intros; intro r h; cases h
theorem WordForm.commandCompletion : ∀ a0, WordForm.Statement (.commandCompletion a0) := by
  intros; intro r h; cases h
theorem WordForm.commandDeadline : ∀ a0, WordForm.Statement (.commandDeadline a0) := by
  intros; intro r h; cases h
theorem WordForm.blockRetire : ∀ a0 a1, WordForm.Statement (.blockRetire a0 a1) := by
  intros; intro r h; cases h
theorem WordForm.breakpointTrap : ∀ a0 a1, WordForm.Statement (.breakpointTrap a0 a1) := by
  intros; intro r h; cases h
theorem WordForm.longResultReturn : ∀ a0 a1 a2 a3, WordForm.Statement (.longResultReturn a0 a1 a2 a3) := by
  intros; intro r h; cases h
theorem WordForm.storeAcceptance : ∀ a0 a1, WordForm.Statement (.storeAcceptance a0 a1) := by
  intros; intro r h; cases h
theorem WordForm.storePerform : ∀ a0, WordForm.Statement (.storePerform a0) := by
  intros; intro r h; cases h
theorem WordForm.ltbExpiry : ∀ a0 a1, WordForm.Statement (.ltbExpiry a0 a1) := by
  intros; intro r h; cases h
theorem WordForm.replyArrival : ∀ a0, WordForm.Statement (.replyArrival a0) := by
  intros; intro r h; cases h
theorem WordForm.waitConditionMet : ∀ a0, WordForm.Statement (.waitConditionMet a0) := by
  intros; intro r h; cases h
theorem WordForm.waitDeadlineExpiry : ∀ a0, WordForm.Statement (.waitDeadlineExpiry a0) := by
  intros; intro r h; cases h
theorem WordForm.timeoutWindowBoundary : ∀ a0, WordForm.Statement (.timeoutWindowBoundary a0) := by
  intros; intro r h; cases h
theorem WordForm.hangReportA : ∀ a0 a1, WordForm.Statement (.hangReportA a0 a1) := by
  intros; intro r h; cases h
theorem WordForm.hangReportB : ∀ a0 a1, WordForm.Statement (.hangReportB a0 a1) := by
  intros; intro r h; cases h
theorem WordForm.coreWake : ∀ a0, WordForm.Statement (.coreWake a0) := by
  intros; intro r h; cases h
theorem WordForm.followMove : ∀ a0 a1, WordForm.Statement (.followMove a0 a1) := by
  intros; intro r h; cases h
theorem WordForm.postedFaultReport : ∀ a0, WordForm.Statement (.postedFaultReport a0) := by
  intros; intro r h; cases h
theorem WordForm.hostCounterPoll : ∀ a0, WordForm.Statement (.hostCounterPoll a0) := by
  intros; intro r h; cases h
theorem WordForm.streamDataReady : ∀ a0 a1 a2, WordForm.Statement (.streamDataReady a0 a1 a2) := by
  intros; intro r h; cases h
theorem WordForm.streamDeadline : ∀ a0 a1, WordForm.Statement (.streamDeadline a0 a1) := by
  intros; intro r h; cases h
theorem WordForm.streamContextDrain : ∀ a0, WordForm.Statement (.streamContextDrain a0) := by
  intros; intro r h; cases h
theorem WordForm.evcfgWrite : ∀ a0 a1, WordForm.Statement (.evcfgWrite a0 a1) := by
  intros; intro r h; cases h
theorem WordForm.eventPacketArrival : ∀ a0, WordForm.Statement (.eventPacketArrival a0) := by
  intros; intro r h; cases h
theorem WordForm.packetAck : ∀ a0, WordForm.Statement (.packetAck a0) := by
  intros; intro r h; cases h
theorem WordForm.packetNack : ∀ a0, WordForm.Statement (.packetNack a0) := by
  intros; intro r h; cases h
theorem WordForm.markerResend : ∀ a0, WordForm.Statement (.markerResend a0) := by
  intros; intro r h; cases h
theorem WordForm.stepMarkerSend : ∀ a0 a1, WordForm.Statement (.stepMarkerSend a0 a1) := by
  intros; intro r h; cases h
theorem WordForm.queueKick : ∀ a0 a1, WordForm.Statement (.queueKick a0 a1) := by
  intros; intro r h; cases h
theorem WordForm.packetReread : ∀ a0 a1, WordForm.Statement (.packetReread a0 a1) := by
  intros; intro r h; cases h
theorem WordForm.queueStale : ∀ a0 a1, WordForm.Statement (.queueStale a0 a1) := by
  intros; intro r h; cases h
theorem WordForm.preconditionMet : ∀ a0 a1, WordForm.Statement (.preconditionMet a0 a1) := by
  intros; intro r h; cases h
theorem WordForm.holdDeadline : ∀ a0 a1, WordForm.Statement (.holdDeadline a0 a1) := by
  intros; intro r h; cases h
theorem WordForm.kernelPlacement : ∀ a0 a1, WordForm.Statement (.kernelPlacement a0 a1) := by
  intros; intro r h; cases h
theorem WordForm.imageLoad : ∀ a0, WordForm.Statement (.imageLoad a0) := by
  intros; intro r h; cases h
theorem WordForm.startMessage : ∀ a0 a1, WordForm.Statement (.startMessage a0 a1) := by
  intros; intro r h; cases h
theorem WordForm.poolDispatch : ∀ a0, WordForm.Statement (.poolDispatch a0) := by
  intros; intro r h; cases h
theorem WordForm.kernelEndSequence : ∀ a0, WordForm.Statement (.kernelEndSequence a0) := by
  intros; intro r h; cases h
theorem WordForm.kernelEnding : ∀ a0, WordForm.Statement (.kernelEnding a0) := by
  intros; intro r h; cases h
theorem WordForm.preemptionTrap : ∀ a0 a1, WordForm.Statement (.preemptionTrap a0 a1) := by
  intros; intro r h; cases h
theorem WordForm.migrationTrap : ∀ a0 a1, WordForm.Statement (.migrationTrap a0 a1) := by
  intros; intro r h; cases h
theorem WordForm.migrationForceExpiry : ∀ a0 a1, WordForm.Statement (.migrationForceExpiry a0 a1) := by
  intros; intro r h; cases h
theorem WordForm.spillDone : ∀ a0 a1, WordForm.Statement (.spillDone a0 a1) := by
  intros; intro r h; cases h
theorem WordForm.fillDone : ∀ a0 a1, WordForm.Statement (.fillDone a0 a1) := by
  intros; intro r h; cases h
theorem WordForm.illegalInstruction : ∀ a0, WordForm.Statement (.illegalInstruction a0) := by
  intros; intro r h; cases h
theorem WordForm.contextKill : ∀ a0, WordForm.Statement (.contextKill a0) := by
  intros; intro r h; cases h
theorem WordForm.jorraxReplayTimeout : ∀ a0, WordForm.Statement (.jorraxReplayTimeout a0) := by
  intros; intro r h; cases h
theorem WordForm.shoot : ∀ a0, WordForm.Statement (.shoot a0) := by
  intros; intro r h; cases h
theorem WordForm.wake : ∀ a0, WordForm.Statement (.wake a0) := by
  intros; intro r h; cases h
theorem WordForm.move : ∀ a0, WordForm.Statement (.move a0) := by
  intros; intro r h; cases h
theorem WordForm.clockGate : ∀ a0, WordForm.Statement (.clockGate a0) := by
  intros; intro r h; cases h
theorem WordForm.powerGate : ∀ a0 a1, WordForm.Statement (.powerGate a0 a1) := by
  intros; intro r h; cases h
theorem WordForm.queueRegister : ∀ a0 a1 a2, WordForm.Statement (.queueRegister a0 a1 a2) := by
  intros; intro r h; cases h
theorem WordForm.queueResume : ∀ a0 a1, WordForm.Statement (.queueResume a0 a1) := by
  intros; intro r h; cases h
theorem WordForm.contextDescriptorWrite : ∀ a0 a1 a2, WordForm.Statement (.contextDescriptorWrite a0 a1 a2) := by
  intros; intro r h; cases h
theorem WordForm.collectiveAbort : ∀ a0 a1, WordForm.Statement (.collectiveAbort a0 a1) := by
  intros; intro r h; cases h
theorem WordForm.preempt : ∀ a0 a1, WordForm.Statement (.preempt a0 a1) := by
  intros; intro r h; cases h
theorem WordForm.migrate : ∀ a0 a1 a2, WordForm.Statement (.migrate a0 a1 a2) := by
  intros; intro r h; cases h
theorem WordForm.spill : ∀ a0 a1, WordForm.Statement (.spill a0 a1) := by
  intros; intro r h; cases h
theorem WordForm.fill : ∀ a0 a1, WordForm.Statement (.fill a0 a1) := by
  intros; intro r h; cases h
theorem WordForm.swapin : ∀ a0 a1, WordForm.Statement (.swapin a0 a1) := by
  intros; intro r h; cases h
theorem WordForm.resume : ∀ a0 a1, WordForm.Statement (.resume a0 a1) := by
  intros; intro r h; cases h
theorem WordForm.reportPost : WordForm.Statement (.reportPost) := by
  intro r h; cases h
theorem WordForm.remapGo : ∀ a0, WordForm.Statement (.remapGo a0) := by
  intros; intro r h; cases h
theorem WordForm.remapMoveComplete : WordForm.Statement (.remapMoveComplete) := by
  intro r h; cases h
theorem WordForm.pageWalk : ∀ a0 a1 a2 a3, WordForm.Statement (.pageWalk a0 a1 a2 a3) := by
  intros; intro r h; cases h
theorem WordForm.ringClockChange : ∀ a0, WordForm.Statement (.ringClockChange a0) := by
  intros; intro r h; cases h
theorem WordForm.clockStallComplete : WordForm.Statement (.clockStallComplete) := by
  intro r h; cases h
theorem WordForm.jorraxPortUp : ∀ a0 a1 a2, WordForm.Statement (.jorraxPortUp a0 a1 a2) := by
  intros; intro r h; cases h
theorem WordForm.jorraxPortDown : ∀ a0, WordForm.Statement (.jorraxPortDown a0) := by
  intros; intro r h; cases h
theorem WordForm.jorraxFlitReceive : ∀ a0 a1 a2, WordForm.Statement (.jorraxFlitReceive a0 a1 a2) := by
  intros; intro r h; cases h
theorem WordForm.jorraxAck : ∀ a0 a1, WordForm.Statement (.jorraxAck a0 a1) := by
  intros; intro r h; cases h
theorem WordForm.jorraxNak : ∀ a0 a1, WordForm.Statement (.jorraxNak a0 a1) := by
  intros; intro r h; cases h
theorem WordForm.keySlotWrite : ∀ a0 a1 a2 a3, WordForm.Statement (.keySlotWrite a0 a1 a2 a3) := by
  intros; intro r h; cases h
theorem WordForm.keySwitch : ∀ a0, WordForm.Statement (.keySwitch a0) := by
  intros; intro r h; cases h
theorem WordForm.remoteAccess : ∀ a0 a1 a2 a3 a4, WordForm.Statement (.remoteAccess a0 a1 a2 a3 a4) := by
  intros; intro r h; cases h
theorem WordForm.timeSyncExchange : ∀ a0 a1, WordForm.Statement (.timeSyncExchange a0 a1) := by
  intros; intro r h; cases h
theorem WordForm.timeSyncLoss : WordForm.Statement (.timeSyncLoss) := by
  intro r h; cases h
theorem WordForm.counterWindowWrite : ∀ a0 a1 a2, WordForm.Statement (.counterWindowWrite a0 a1 a2) := by
  intros; intro r h; cases h
theorem WordForm.hostMemoryAccess : ∀ a0 a1 a2 a3, WordForm.Statement (.hostMemoryAccess a0 a1 a2 a3) := by
  intros; intro r h; cases h
theorem WordForm.waisarReading : ∀ a0, WordForm.Statement (.waisarReading a0) := by
  intros; intro r h; cases h
theorem WordForm.waisarVersionOffer : ∀ a0 a1, WordForm.Statement (.waisarVersionOffer a0 a1) := by
  intros; intro r h; cases h
theorem WordForm.telemetryLoss : WordForm.Statement (.telemetryLoss) := by
  intro r h; cases h
theorem WordForm.shedForceExpiry : WordForm.Statement (.shedForceExpiry) := by
  intro r h; cases h
theorem WordForm.restoreHoldExpiry : WordForm.Statement (.restoreHoldExpiry) := by
  intro r h; cases h
theorem WordForm.powerWindowEnd : ∀ a0 a1, WordForm.Statement (.powerWindowEnd a0 a1) := by
  intros; intro r h; cases h
theorem WordForm.overcapEnd : WordForm.Statement (.overcapEnd) := by
  intro r h; cases h
theorem WordForm.droopDetect : ∀ a0, WordForm.Statement (.droopDetect a0) := by
  intros; intro r h; cases h
theorem WordForm.canaryWarning : ∀ a0, WordForm.Statement (.canaryWarning a0) := by
  intros; intro r h; cases h
theorem WordForm.canaryStepDown : ∀ a0, WordForm.Statement (.canaryStepDown a0) := by
  intros; intro r h; cases h
theorem WordForm.sensorRead : ∀ a0 a1, WordForm.Statement (.sensorRead a0 a1) := by
  intros; intro r h; cases h
theorem WordForm.thermalClockStep : WordForm.Statement (.thermalClockStep) := by
  intro r h; cases h
theorem WordForm.samplingPulse : WordForm.Statement (.samplingPulse) := by
  intro r h; cases h
theorem WordForm.moduleReset : ∀ a0, WordForm.Statement (.moduleReset a0) := by
  intros; intro r h; cases h
theorem WordForm.firmwareVerify : ∀ a0 a1, WordForm.Statement (.firmwareVerify a0 a1) := by
  intros; intro r h; cases h
theorem WordForm.linkBringup : ∀ a0, WordForm.Statement (.linkBringup a0) := by
  intros; intro r h; cases h
theorem WordForm.supervisorVerify : ∀ a0, WordForm.Statement (.supervisorVerify a0) := by
  intros; intro r h; cases h
theorem WordForm.attestationRequest : ∀ a0, WordForm.Statement (.attestationRequest a0) := by
  intros; intro r h; cases h
theorem WordForm.registerWrite : ∀ a0 a1, WordForm.Statement (.registerWrite a0 a1) := by
  intros; intro r h; cases h
theorem WordForm.instructionFetchFault : WordForm.Statement (.instructionFetchFault) := by
  intro r h; cases h
theorem WordForm.softError : ∀ a0, WordForm.Statement (.softError a0) := by
  intros; intro r h; cases h
theorem WordForm.clusterPairCurrentSample : ∀ a0 a1 a2 a3, WordForm.Statement (.clusterPairCurrentSample a0 a1 a2 a3) := by
  intros; intro r h; cases h
theorem WordForm.rackBusOutOfRange : ∀ a0, WordForm.Statement (.rackBusOutOfRange a0) := by
  intros; intro r h; cases h

end Sys2Proof.Laws
end

