-- ==== Sys2Proof/Laws/Records.lean ====
section
/-!
SUPPORT. Sys2Proof/Laws/Records.lean: the bytes of a save record stand where R303 puts them, and a record that was not touched
since it was written changes nothing of its thread.
-/
namespace Sys2Proof.Machine

@[simp] theorem RecordPart.length_bytes (p : RecordPart) : p.bytes.length = p.size := by simp [RecordPart.bytes]

/-- A run of a list within the second of three parts. -/
theorem getD_mid {α : Type} (a b c : List α) (d : α) (k i : Nat) (ha : a.length = k) (hi : i < b.length) :
    (a ++ (b ++ c)).getD (k + i) d = b.getD i d := by
  subst ha
  simp only [List.getD_eq_getElem?_getD]
  rw [List.getElem?_append_right (by omega), Nat.add_sub_cancel_left, List.getElem?_append_left hi]

/-- Parts that follow one another from an offset on. -/
def Laid (k : Nat) (ps : List RecordPart) : Prop :=
  match ps with
  | [] => True
  | p :: r => p.off = k ∧ Laid (k + p.size) r

/-- A byte of a part that was laid after a header. -/
theorem Laid.getD {ps : List RecordPart} {hd : List Byte} (h : Laid hd.length ps) (z : List Byte) (p : RecordPart) (hp : p ∈ ps)
    (i : Nat) (hi : i < p.size) : (hd ++ ps.flatMap RecordPart.bytes ++ z).getD (p.off + i) 0 = p.bytes.getD i 0 := by
  induction ps generalizing hd with
  | nil => cases hp
  | cons q r ih =>
    obtain ⟨ho, hr⟩ := h
    rw [List.flatMap_cons]
    rcases List.mem_cons.mp hp with rfl | hp
    · rw [ho, List.append_assoc, List.append_assoc]
      exact getD_mid _ _ _ _ _ _ rfl (by rwa [RecordPart.length_bytes])
    · have hl : (hd ++ q.bytes).length = hd.length + q.size := by simp
      rw [← List.append_assoc]
      exact ih (hl ▸ hr) hp

theorem Thread.length_header (t : Thread) (hx : t.x.length = 32) (hv : t.v.length = 32) :
    (wordBytes t.x ++ t.v.flatMap (fun v => bytesOf v.toNat 32) ++
      (List.range 8).flatMap fun n => bytesOf (t.mr n).toNat 4).length = 1312 := by
  simp [List.length_flatMap, List.map_const', hx, hv]

/-- Byte `i` of an open part stands at its offset of the record. -/
theorem Thread.saveRecord_part (t : Thread) (hx : t.x.length = 32) (hv : t.v.length = 32)
    (p : RecordPart) (hp : p ∈ t.recordParts) (i : Nat) (hi : i < p.size) :
    t.saveRecord.getD (p.off + i) 0 = p.bytes.getD i 0 :=
  Laid.getD (by rw [t.length_header hx hv]; exact ⟨rfl, rfl, rfl, rfl, rfl, trivial⟩) _ p hp i hi

/-- Every open part ends within the record. -/
theorem Thread.recordParts_end (t : Thread) (p : RecordPart) (hp : p ∈ t.recordParts) : p.off + p.size ≤ 1776 := by
  simp only [Thread.recordParts, List.mem_cons, List.not_mem_nil, or_false] at hp
  rcases hp with rfl | rfl | rfl | rfl | rfl <;> simp

/-- The record is 2,048 bytes (R303). -/
theorem Thread.length_saveRecord (t : Thread) (hx : t.x.length = 32) (hv : t.v.length = 32) :
    t.saveRecord.length = 2048 := by
  have h : (t.recordParts.flatMap RecordPart.bytes).length = 464 := by
    simp only [List.length_flatMap, Thread.recordParts, List.map_cons, List.map_nil, RecordPart.length_bytes, List.sum_cons,
      List.sum_nil, Nat.reduceAdd]
  rw [Thread.saveRecord, List.length_append, List.length_append, t.length_header hx hv, List.length_replicate, h]

/-- A record that holds what was last written to it changes no part of its thread (R300, R303). -/
theorem State.changedPart_written (s : State) (t : Thread) (pa : Nat) (p : RecordPart) (hp : p ∈ t.recordParts)
    (hx : t.x.length = 32) (hv : t.v.length = 32) (hw : Memory.wf s.mem = true) :
    (s.writeBytes pa t.saveRecord).changedPart pa p.nums p = none := by
  unfold State.changedPart
  rw [if_pos]
  refine List.ext_getElem (by simp) fun i h1 h2 => ?_
  have hi : i < p.size := by simpa using h1
  have he := t.recordParts_end p hp
  simp only [List.getElem_map, List.getElem_range]
  rw [State.writeBytes_byteAt _ _ _ _ hw, if_pos (by rw [t.length_saveRecord hx hv]; omega),
    show pa + p.off + i - pa = p.off + i by omega, t.saveRecord_part hx hv p hp i hi,
    List.getD_eq_getElem?_getD, List.getElem?_eq_getElem (by rwa [RecordPart.length_bytes])]
  rfl

end Sys2Proof.Machine
end

