-- ==== Sys2Proof/Laws/Walk.lean ====
section
/-!
SUPPORT. Sys2Proof/Laws/Walk.lean: what the walk does, said once: performing a deferred instruction, committing an entry,
ending a wait, taking a trap, and what each leaves unchanged.
-/
namespace Sys2Proof.Machine

/-! ## Threads of a state -/

@[simp] theorem State.thr_setThr_self (s : State) (tid : Nat) (t : Thread) : (s.setThr tid t).thr tid = some t := by
  simp [State.thr]
@[simp] theorem State.thr_setThr_ne (s : State) (tid n : Nat) (t : Thread) (h : n ≠ tid) : (s.setThr tid t).thr n = s.thr n := by
  simp [State.thr, h]
theorem State.updThr_of_thr (s : State) (tid : Nat) (f : Thread → Thread) (t : Thread) (h : s.thr tid = some t) :
    s.updThr tid f = s.setThr tid (f t) := by
  simp [State.updThr, h]
@[simp] theorem State.thr_updThr_ne (s : State) (tid n : Nat) (f : Thread → Thread) (h : n ≠ tid) :
    (s.updThr tid f).thr n = s.thr n := by
  unfold State.updThr; split
  · simp [h]
  · rfl
@[simp] theorem State.setThr_setThr (s : State) (tid : Nat) (t u : Thread) : (s.setThr tid t).setThr tid u = s.setThr tid u := by
  have h : ∀ m : AMap Thread, mapSet (mapSet m tid t) tid u = mapSet m tid u := by
    intro m
    induction m with
    | nil => simp [mapSet]
    | cons e r ih =>
      obtain ⟨k, a⟩ := e
      by_cases h1 : tid < k
      · simp [mapSet, h1]
      · by_cases h2 : tid = k
        · simp [mapSet, h2]
        · simp [mapSet, h1, h2, ih]
  simp [State.setThr, h]

/-- The thread of the current slot is in it. -/
theorem State.current_placed (s : State) (tid : Nat) (t : Thread) (h : s.current = some (tid, t)) :
    t.place = .slot s.cur.1 s.cur.2 := by
  have := List.find?_some h
  simpa using this

/-! ## Frames -/

theorem SameMemory.refl (s : State) : SameMemory s s := ⟨rfl, rfl⟩
theorem SameMemory.trans {s s' s'' : State} (h : SameMemory s s') (h' : SameMemory s' s'') : SameMemory s s'' :=
  ⟨h'.1.trans h.1, h'.2.trans h.2⟩
theorem SameMemory.byteAt {s s' : State} (h : SameMemory s s') (a : Nat) : s'.byteAt a = s.byteAt a := by
  simp [State.byteAt, h.1]
theorem SameMemory.read {s s' : State} (h : SameMemory s s') (loc n : Nat) : s'.read loc n = s.read loc n :=
  State.read_congr _ _ _ _ fun a _ _ => h.byteAt a
theorem SameMemory.wf {s s' : State} (h : SameMemory s s') (hw : MemoryCanonical s) : MemoryCanonical s' := by
  unfold MemoryCanonical at *; rw [h.1]; exact hw

@[simp] theorem sameMemory_setThr (s : State) (tid : Nat) (t : Thread) : SameMemory s (s.setThr tid t) := ⟨rfl, rfl⟩
@[simp] theorem sameMemory_updThr (s : State) (tid : Nat) (f : Thread → Thread) : SameMemory s (s.updThr tid f) := by
  constructor <;> simp
@[simp] theorem sameMemory_acquire (s : State) (t : Thread) : SameMemory s (s.acquire t) := ⟨rfl, rfl⟩
@[simp] theorem sameMemory_touchTlb (s : State) (t : Thread) (va : Nat) (acc : Access) : SameMemory s (s.touchTlb t va acc) := by
  unfold State.touchTlb State.fillTlb
  repeat' split
  all_goals exact ⟨rfl, rfl⟩

/-! ## Performing -/

/-- The walk performs the instruction it stands at. -/
theorem State.threadOp_walking (s : State) (i : Instr) (f : Form) (body : Body) (perf : Perform) (tid : Nat) (t : Thread)
    (e : Entry) (h : Walking s tid t i e) : s.threadOp i f body perf = .next (perf s tid t e) := by
  simp [State.threadOp, h.here, h.walks, h.turn]

/-- The entry a walk stands at heads the thread's block. -/
theorem Walking.block {s : State} {tid : Nat} {t : Thread} {i : Instr} {e : Entry} (h : Walking s tid t i e) :
    ∃ r, t.block = e :: r ∧ e.ins = i ∧ t.run = .block ∧ t.walking = true := by
  have hw := h.walks
  unfold Thread.walksAt at hw
  split at hw
  · rename_i hr
    split at hw
    · rename_i e' r hb
      split at hw
      · rename_i hc
        simp only [Option.some.injEq] at hw
        subst hw
        simp only [Bool.and_eq_true, decide_eq_true_eq] at hc hr
        exact ⟨r, hb, hc.1.1, hr⟩
      · cases hw
    · cases hw
  · cases hw

/-! ## Committing -/

theorem Thread.xr_setX (t : Thread) (r q : Reg) (val : Word) (h : r ≠ 0) (hl : r.toNat < t.x.length) :
    (t.setX r val).xr q = if q = r then val else t.xr q := by
  unfold Thread.setX Thread.xr
  rw [if_neg h]
  by_cases hq : q = r
  · subst hq; rw [if_neg h, if_pos rfl]; simp [hl]
  · by_cases h0 : q = 0
    · rw [if_pos h0, if_neg hq, if_pos h0]
    · have : r.toNat ≠ q.toNat := fun e => hq (BitVec.eq_of_toNat_eq e.symm)
      rw [if_neg h0, if_neg hq, if_neg h0]
      simp [List.getD_eq_getElem?_getD, this]

@[simp] theorem Thread.xr_zero (t : Thread) : t.xr 0 = 0 := rfl
@[simp] theorem Thread.mr_zero (t : Thread) : t.mr 0 = BitVec.allOnes 32 := rfl

/-- What a register write that commits leaves beside what it counts: the register written, and full (R71). -/
theorem Thread.commitX_x (ac : Nat) (t : Thread) (w : XWrite) :
    (Thread.commitX ac t w).x = if w.reg = 0 then t.x else (t.setX w.reg w.val).x := by
  unfold Thread.commitX
  split
  · rfl
  · dsimp only; split <;> simp
theorem Thread.commitX_empty (ac : Nat) (t : Thread) (w : XWrite) :
    (Thread.commitX ac t w).empty = if w.reg = 0 then t.empty else t.empty.set w.reg.toNat none := by
  unfold Thread.commitX
  split
  · rfl
  · dsimp only; split <;> simp

/-- A register write that commits fills its register; no other register changes (R5, R71). -/
theorem Thread.commitX_xr_ne (ac : Nat) (t : Thread) (w : XWrite) (q : Reg) (h : w.reg ≠ q) :
    (Thread.commitX ac t w).xr q = t.xr q := by
  unfold Thread.xr
  rw [Thread.commitX_x]
  split
  · rfl
  · split
    · rfl
    · rename_i h0
      have : w.reg.toNat ≠ q.toNat := fun e => h (BitVec.eq_of_toNat_eq e)
      simp only [Thread.setX, if_neg h0]
      simp [List.getD_eq_getElem?_getD, this]

theorem Thread.commitX_empty_ne (ac : Nat) (t : Thread) (w : XWrite) (n : Nat) (h : w.reg.toNat ≠ n) :
    (Thread.commitX ac t w).empty.getD n none = t.empty.getD n none := by
  rw [Thread.commitX_empty]
  split
  · rfl
  · simp [List.getD_eq_getElem?_getD, h]

theorem Thread.commitX_xr_self (ac : Nat) (t : Thread) (w : XWrite) (h : w.reg ≠ 0) (hl : w.reg.toNat < t.x.length) :
    (Thread.commitX ac t w).xr w.reg = w.val := by
  have := Thread.xr_setX t w.reg w.reg w.val h hl
  rw [if_pos rfl] at this
  unfold Thread.xr at *
  rw [if_neg h] at this ⊢
  rw [Thread.commitX_x, if_neg h]
  exact this

theorem Thread.commitX_empty_self (ac : Nat) (t : Thread) (w : XWrite) (h : w.reg ≠ 0) :
    (Thread.commitX ac t w).empty.getD w.reg.toNat none = none := by
  rw [Thread.commitX_empty, if_neg h]
  simp only [List.getD_eq_getElem?_getD, List.getElem?_set]
  split
  · split <;> simp
  · simp_all

/-- The entry at the walk's head commits. -/
theorem State.commitHead_of (s : State) (tid : Nat) (t : Thread) (e : Entry) (r : List Entry) (ht : s.thr tid = some t)
    (hb : t.block = e :: r) (hc : e.csr = none) (ha : e.app = []) : s.commitHead tid = s.setThr tid (t.commit s.ac e) := by
  simp [State.commitHead, ht, hb, hc, ha]

/-- A performed instruction commits its results in the place of its entry (R68). -/
theorem State.finish_of (s : State) (tid : Nat) (t : Thread) (e : Entry) (r : List Entry) (xw : List XWrite)
    (ht : s.thr tid = some t) (hb : t.block = e :: r) (hc : e.csr = none) (ha : e.app = []) :
    s.finish tid e xw = s.setThr tid (Thread.commit s.ac { t with block := e.performed xw :: r } (e.performed xw)) := by
  unfold State.finish State.setHead
  rw [State.updThr_of_thr _ _ _ _ ht]
  simp only [hb]
  rw [State.commitHead_of _ tid { t with block := e.performed xw :: r } (e.performed xw) r (by simp) rfl hc ha]
  simp

/-- A wait that is no fence leaves the thread's fences. -/
theorem State.fenced_other (s : State) (tid : Nat) (t : Thread) (k : WaitKind) (v : Verdict) (hk : ∀ a b c d e, k ≠ .fence a b c d e) :
    s.fenced tid t k v = t := by
  unfold State.fenced; split
  · exact absurd rfl (hk _ _ _ _ _)
  · rfl

/-- A wait that has ended without an acquire: its status is written and counted, and its instruction commits (R105). -/
theorem State.endWait_noAcquire (s : State) (tid : Nat) (t : Thread) (e : Entry) (w : PWait) (v : Verdict)
    (ht : s.thr tid = some t) (ha : w.kind.acquires v = false) (hk : ∀ a b c d e, w.kind ≠ .fence a b c d e) :
    s.endWait tid e w v =
      (fun u : Thread => ((s.setThr tid u).dropWaited u w.kind).finish tid e (w.kind.writes w.rd v))
        (if w.counts v then Thread.countTimeout { t with run := .block, wait := none } s.pt
        else { t with run := .block, wait := none }) := by
  unfold State.endWait
  rw [State.updThr_of_thr _ _ _ _ ht]
  simp [ha, State.fenced_other _ _ _ _ _ hk]

/-! ## Traps -/

/-- A recoverable trap of a full thread below level 2 puts it into its handler (R295). -/
theorem State.takeTrap_deliver (s : State) (tid : Nat) (t : Thread) (tr : Trap) (pc : Word) (fromWait : Bool)
    (ht : s.thr tid = some t) (hl : t.light = false) (hv : t.level < 2) (hc : tr.cause < 16 ∨ t.level ≠ 0) (h5 : tr.cause ≠ 5) :
    s.takeTrap tid tr pc fromWait =
      s.setThr tid (t.deliver tr pc fromWait) := by
  have h2 : (decide (16 ≤ tr.cause) && (t.light || t.level == 0)) = false := by
    rcases hc with hc | hc
    · simp; omega
    · simp [hl, hc]
  have h3 : ¬ 2 ≤ t.level := by omega
  rw [hl] at h2
  simp only [State.takeTrap, ht, if_neg h5, hl, if_neg h3, h2, Bool.false_eq_true, if_false]

end Sys2Proof.Machine
end

