-- ==== Sys2Proof/Tests/Slice0.lean ====
section
/-!
SUPPORT. Sys2Proof/Tests/Slice0.lean: checks of the model on small states, each expected value taken from the spec's words, and a
state that meets the hypotheses of each statement.
-/
namespace Sys2Proof.Tests
open Sys2Proof Sys2Proof.Machine

/-! ## Small states -/

/-- A full thread of context 0 in slot 0 of vcore 0, with some x registers given. -/
def full (xs : List (Nat × Word)) : Thread := State.reset.freshThread 0 0 0 0 none false false 0x2000000 xs
/-- The same with some vector registers given. -/
def fullV (xs : List (Nat × Word)) (vs : List (Nat × Vec)) : Thread :=
  { full xs with v := (List.range 32).map fun i => (mapGet? vs i).getD 0 }
/-- A light thread in slot 4 of vcore 0. -/
def lightT (xs : List (Nat × Word)) : Thread := State.reset.freshThread 0 4 0 0 none true false 0x2000000 xs
/-- The machine after reset with one thread, number 0. -/
def at0 (t : Thread) : State := { State.reset with threads := [(0, t)], nextId := 1, cur := (0, t.slot) }
/-- A vector register from lanes of 16 bits, the first ones given. -/
def lanes16 (l : List Nat) : Vec := lanesVec 16 16 fun i => l.getD i 0
/-- A vector register from lanes of 32 bits. -/
def lanes32 (l : List Nat) : Vec := lanesVec 32 8 fun i => l.getD i 0
/-- The next state, or the machine after reset where there is none. -/
def after (o : Host.Outcome State Fault Refusal) : State :=
  match o with
  | .next s => s
  | _ => State.reset
/-- Thread 0 of a next state. -/
def thr0 (o : Host.Outcome State Fault Refusal) : Option Thread := (after o).thr 0
/-- The last entry of its block. -/
def last (o : Host.Outcome State Fault Refusal) : Option Entry := (thr0 o).bind fun t => t.block.getLast?
/-- The x writes it holds. -/
def xw (o : Host.Outcome State Fault Refusal) : List XWrite := ((last o).map Entry.xw).getD []
/-- The flags it holds. -/
def fl (o : Host.Outcome State Fault Refusal) : Nat := ((last o).map Entry.flags).getD 99
/-- The fault it holds. -/
def faultOf (o : Host.Outcome State Fault Refusal) : Option Trap :=
  match (last o).map Entry.st with
  | some (.faulted t) => some t
  | _ => none
/-- Lane `i` of the first vector write it holds. -/
def vlane (o : Host.Outcome State Fault Refusal) (w i : Nat) : Nat :=
  ((last o).map fun e => (e.vw.head?.map fun x => laneOf x.val w i).getD 0).getD 0
/-- The PC it leaves. -/
def pcOf (o : Host.Outcome State Fault Refusal) : Word := ((thr0 o).map Thread.pc).getD 0
/-- X[r] it leaves. -/
def xOf (o : Host.Outcome State Fault Refusal) (r : Reg) : Word := ((thr0 o).map fun t => t.xr r).getD 0
/-- An instruction issued, its block's walk brought to it, and performed. -/
def walked (i : Instr) (s : State) : Host.Outcome State Fault Refusal :=
  exec i ((after (exec i s)).updThr 0 fun t => { t with run := .block, walking := true })
/-- The state in which it is performed. -/
def atWalk (i : Instr) (s : State) : State := (after (exec i s)).updThr 0 fun t => { t with run := .block, walking := true }
/-- A state with a doubleword in vcore 0's own TCM. -/
def withTcm (s : State) (a v : Nat) : State := s.write (tcmLoc 0 a) 8 v

/-! ## Ill-formed terms: one for each check of WellFormed.lean -/

/-- A pair destination must be even: CWAIT, LWAIT, RECV, SCMAC, VWID, VCVT widening; a pair source: QPUSH, VNRW, VCVT narrowing
(R34, R158, R164). -/
theorem test_illFormedPairs :
    ([.cwait 11 1 2 3 false, .lwait 11 1 2 3 false, .recv 11 1 3 false, .qpush 5 1 9 3 false, .scmac .b 9 1 2 0 false,
      .vwid .b 9 1 0 false, .vnrw .h .rne 9 1 0 false, .vcvt .hf .f .rne 9 2 0 false, .vcvt .f .hf .rne 8 3 0 false].all
      fun i : Instr => !i.wf) = true := by decide
/-- Types outside the cells of R161 to R176. -/
theorem test_illFormedTypes :
    ([.vadd .x 1 2 3 0 false, .vsub .x 1 2 3 0 false, .vmul .x 1 2 3 0 false, .vmin .x 1 2 3 0 false, .vmax .x 1 2 3 0 false,
      .vmulh .hf 1 2 3 0 false, .vmadd .hu 1 2 3 0 false, .vand .hu 1 2 3 0 false, .vor .f 1 2 3 0 false,
      .vxor .hf 1 2 3 0 false, .vsll .f 1 2 3 0 false, .vsrl .x 1 2 3 0 false, .vsra .hu 1 2 3 0 false,
      .vcmpeq .x 1 2 3 0 false, .vcmplt .x 1 2 3 0 false, .vcmple .x 1 2 3 0 false, .vsel .x 1 2 3 0 false,
      .vperm .x 1 2 3 0 false, .vwid .w 2 2 0 false, .vrsum .b 1 2 0 false, .vrmax .x 1 2 0 false,
      .vrmin .x 1 2 0 false].all fun i : Instr => !i.wf) = true := by decide
theorem test_illFormedTypesMore :
    ([.vpopc .hu 1 2 0 false, .vlut .h 1 2 0 false, .vabs .hu 1 2 0 false, .vsplat .x 1 2 0 false, .vext .x 1 2 0 false,
      .vins .x 1 2 0 false, .scmac .w 8 1 2 0 false, .vld .x 1 2 0 false, .vst .x 1 2 0 false, .vldb .x 1 2 0 false,
      .vlds .x 1 2 3 0 false, .vsts .x 1 2 3 0 false, .vldx .x 1 2 3 0 false, .vstx .x 1 2 3 0 false,
      .sbind .x 1 2 false].all fun i : Instr => !i.wf) = true := by decide
/-- Pairings absent from R164, a mode other than rne into .x, a mode on VNRW .h (R165), a lane past the last (R167). -/
theorem test_illFormedOperands :
    ([.vcvt .f .b .rne 2 2 0 false, .vcvt .h .w .rne 2 2 0 false, .vcvt .hf .hf .rne 2 2 0 false, .vcvt .hf .x .rtz 2 2 0 false,
      .vnrw .h .rtz 2 2 0 false, .vnrw .hf .rne 2 2 0 false, .vext .h 1 2 16 false, .vins .w 1 2 8 false].all
      fun i : Instr => !i.wf) = true := by decide
/-- The words of ill-formed terms decode to nothing (R33): `cwait` with an odd rd, `vadd.x`, `vext.h` of lane 16. -/
theorem test_illFormedWords : ([0x3862858B, 0x0031F0AB, 0xE910912B].all fun w => decode w == none) = true := by decide

/-! ## Words (R21 to R34): for every constructor one word, from the opcode table's fixed bits and fields -/

/-- Every word of a list decodes to the instruction beside it. -/
def decodes (l : List (IWord × Instr)) : Bool := l.all fun p => decode p.1 == some p.2

/-- Words of: upper, jumps and branches (R81 to R83). -/
theorem test_decodeJumps : decodes
    [(0x80000537, .lui 10 0x80000 false), (0x83039617, .auipc 12 0x83039 false), (0xB6DA576E, .jal 14 0xD2DB6 true),
     (0x86F58867, .jalr 16 11 0x86F false), (0xE4EC0BE3, .beq 24 14 0xF2B false), (0xDF8396E2, .bne 7 24 0xEF6 true),
     (0xD82A41E3, .blt 20 2 0xEC1 false), (0xD0C1DCE3, .bge 3 12 0xE8C false), (0xCB6867E2, .bltu 16 22 0xE57 true),
     (0xC40FF2E3, .bgeu 31 0 0xE22 false)] = true := by decide

/-- Words of: scalar loads and stores (R91). -/
theorem test_decodeAccess : decodes
    [(0x19A60F03, .lb 30 12 0x19A false), (0x997D9502, .lh 10 27 0x997 true), (0x1EC42603, .lw 12 8 0x1EC false),
     (0x9E1BB703, .ld 14 23 0x9E1 false), (0x23E24802, .lbu 16 4 0x23E true), (0xA2B9D903, .lhu 18 19 0xA2B false),
     (0x29006A03, .lwu 20 0 0x290 false), (0xA7078AA2, .sb 16 15 0xA75 true), (0xA9AE1D23, .sh 26 28 0xA9A false),
     (0xAA45AFA3, .sw 4 11 0xABF false), (0xAEEC3222, .sd 14 24 0xAE4 true)] = true := by decide

/-- Words of: immediate arithmetic (R85, R87, R90). -/
theorem test_decodeImmediate : decodes
    [(0xB0938F13, .addi 30 7 0xB09 false), (0x386A2513, .slti 10 20 0x386 false),
     (0xB531B612, .sltiu 12 3 0xB53 true), (0x3D884713, .xori 14 16 0x3D8 false),
     (0xB9DFE813, .ori 16 31 0xB9D false), (0x42A67912, .andi 18 12 0x42A true), (0x00AD9A13, .slli 20 27 10 false),
     (0x01545B13, .srli 22 8 21 false), (0x420BDC12, .srai 24 23 32 true), (0x60021D13, .clz 26 4 false),
     (0x60199E13, .ctz 28 19 false), (0x60201F12, .cpop 30 0 true), (0xCC57851B, .addiw 10 15 0xCC5 false),
     (0x017E161B, .slliw 12 28 23 false), (0x0025D71A, .srliw 14 11 2 true), (0x40DC581B, .sraiw 16 24 13 false)] = true := by decide

/-- Words of: register arithmetic (R86, R90). -/
theorem test_decodeRegister : decodes
    [(0x01838933, .add 18 7 24 false), (0x402A0A32, .sub 20 20 2 true), (0x00C19B33, .sll 22 3 12 false),
     (0x01682C33, .slt 24 16 22 false), (0x000FBD32, .sltu 26 31 0 true), (0x00A64E33, .xor 28 12 10 false),
     (0x014DDF33, .srl 30 27 20 false), (0x41E45532, .sra 10 8 30 true), (0x008BE633, .or 12 23 8 false),
     (0x01227733, .and 14 4 18 false), (0x41C9E832, .orn 16 19 28 true), (0x40607933, .andn 18 0 6 false),
     (0x03078A33, .mul 20 15 16 false), (0x03AE1B32, .mulh 22 28 26 true), (0x0245AC33, .mulhsu 24 11 4 false),
     (0x02EC3D33, .mulhu 26 24 14 false), (0x0383CE32, .div 28 7 24 true), (0x022A5F33, .divu 30 20 2 false),
     (0x02C1E533, .rem 10 3 12 false), (0x03687632, .remu 12 16 22 true)] = true := by decide

/-- Words of: more register arithmetic (R87 to R90). -/
theorem test_decodeRegisterMore : decodes
    [(0x0A0FC733, .min 14 31 0 false), (0x0AA65833, .minu 16 12 10 false), (0x0B4DE932, .max 18 27 20 true),
     (0x0BE47A33, .maxu 20 8 30 false), (0x208BAB33, .sh1add 22 23 8 false), (0x21224C32, .sh2add 24 4 18 true),
     (0x21C9ED33, .sh3add 26 19 28 false), (0x00600E3B, .addw 28 0 6 false), (0x41078F3A, .subw 30 15 16 true),
     (0x01AE153B, .sllw 10 28 26 false), (0x0045D63B, .srlw 12 11 4 false), (0x40EC573A, .sraw 14 24 14 true),
     (0x0383883B, .mulw 16 7 24 false), (0x022A493B, .divw 18 20 2 false), (0x02C1DA3A, .divuw 20 3 12 true),
     (0x03686B3B, .remw 22 16 22 false), (0x020FFC3B, .remuw 24 31 0 false)] = true := by decide

/-- Words of: system (R96, R98). -/
theorem test_decodeSystem : decodes
    [(0x00000072, .ecall true), (0x00100073, .ebreak false), (0x10200073, .xret false),
     (0xBB4B9572, .csrrw 10 0xBB4 23 true), (0xBB322673, .csrrs 12 0xBB3 4 false),
     (0xBB29B773, .csrrc 14 0xBB2 19 false), (0xBB10D872, .csrrwi 16 0xBB1 1 true),
     (0xBB076973, .csrrsi 18 0xBB0 14 false), (0xBAFDFA73, .csrrci 20 0xBAF 27 false)] = true := by decide

/-- Words of: waits of the Q format (R28). -/
theorem test_decodeWaits : decodes
    [(0xD0458B0A, .cwait 22 11 4 26 true), (0xEAEC0C0B, .lwait 24 24 14 29 false), (0x04038D0B, .barw 26 7 0 false),
     (0x1E0A0E0A, .recv 28 20 3 true), (0x36019F0B, .fencew .s 30 3 6 false), (0x4800250B, .mwait 10 9 false),
     (0x6200260A, .ifencew 12 12 true), (0x7C06270B, .barx 14 12 15 false), (0x974DA80B, .spawn 16 27 20 18 false),
     (0xA9E4390A, .acasV 18 8 30 21 true), (0xC28BBA0B, .acasS 20 23 8 24 false), (0xDC023B0B, .ttake 22 4 27 false),
     (0xF7C9BC0A, .qpush 24 19 28 30 true), (0x08006D0B, .evstep 26 0 1 false)] = true := by decide

/-- Words of: SYNC funct3 100 (R29). -/
theorem test_decodeSync : decodes
    [(0x0307CE0B, .cadd .d 28 15 16 false), (0x080E4F0A, .mona 30 28 true), (0x1005C00B, .mclr 11 false),
     (0x180C460B, .join 12 24 false), (0x2003C70A, .leave 14 7 true), (0x280A480B, .gnew 16 20 false),
     (0x3001C90B, .gfree 18 3 false), (0x38084A0A, .bara 20 16 true), (0x400FC00B, .exit 31 false),
     (0x4C064C0B, .lda .v 24 12 false), (0x574DC00A, .stl .s 27 20 true), (0x5804400B, .tgive 8 false),
     (0x600BC00B, .tmark 23 false), (0x6800400A, .cswap true)] = true := by decide

/-- Words of: far atomics (R148). -/
theorem test_decodeAtomics : decodes
    [(0x07C9D60B, .aadd .s 12 19 28 false), (0x0860570B, .aand .g 14 0 6 false), (0x1307D80A, .aor .d 16 15 16 true),
     (0x1DAE590B, .axor .v 18 28 26 false), (0x2645DA0B, .amin .s 20 11 4 false),
     (0x28EC5B0A, .amax .g 22 24 14 true), (0x3383DC0B, .aminu .d 24 7 24 false),
     (0x3C2A5D0B, .amaxu .v 26 20 2 false), (0x46C1DE0A, .aswap .s 28 3 12 true)] = true := by decide

/-- Words of: vector arithmetic (R161). -/
theorem test_decodeVectorArith : decodes
    [(0x01681F2B, .vadd .h 30 16 22 0 false), (0x0A0FA52B, .vsub .w 10 31 0 1 false),
     (0x14A6362A, .vmul .hu 12 12 10 2 true), (0x1F4DB72B, .vmulh .hu 14 27 20 3 false),
     (0x21E4682B, .vmadd .f 16 8 30 0 false), (0x2A8BE92A, .vmin .f 18 23 8 1 true),
     (0x35220A2B, .vmax .b 20 4 18 2 false), (0x3FC9FB2B, .vand .x 22 19 28 3 false),
     (0x40602C2A, .vor .w 24 0 6 0 true), (0x4B078D2B, .vxor .b 26 15 16 1 false),
     (0x55AE3E2B, .vsll .hu 28 28 26 2 false), (0x5E459F2A, .vsrl .h 30 11 4 3 true),
     (0x60EC252B, .vsra .w 10 24 14 0 false)] = true := by decide

/-- Words of: compares to lane moves (R162 to R172). -/
theorem test_decodeVectorMore : decodes
    [(0x6B83822B, .vcmpeq .b 4 7 24 1 false), (0x742A132A, .vcmplt .h 6 20 2 2 true),
     (0x7EC1A02B, .vcmple .w 0 3 12 3 false), (0x8168392B, .vsel .hu 18 16 22 0 false),
     (0x8B5F6A2A, .vcvt .f .bf .rdn 20 30 1 true), (0x95067B2B, .vnrw .x .rdn 22 12 2 false),
     (0x9E0DBC2B, .vwid .hu 24 27 3 false), (0xA0045D2A, .vrsum .bf 26 8 0 true),
     (0xAA0B9E2B, .vrmax .h 28 23 1 false), (0xB4022F2B, .vrmin .w 30 4 2 false),
     (0xBFC9B52A, .vperm .hu 10 19 28 3 true), (0xC060062B, .vdot 12 0 6 0 false),
     (0xCA07F72B, .vpopc .x 14 15 1 false), (0xD40E482A, .vlut .hf 16 28 2 true),
     (0xDE05E92B, .vabs .f 18 11 3 false), (0xE00C1A2B, .vsplat .h 20 24 0 false),
     (0xE853AB2A, .vext .w 22 7 5 true), (0xF05A3C2B, .vins .hu 24 20 5 false),
     (0xFEC1FD2B, .scmac .x 26 3 12 3 false)] = true := by decide

/-- Words of: vector memory and masks (R173 to R176). -/
theorem test_decodeVectorMem : decodes
    [(0x00085E5A, .vld .bf 28 16 0 true), (0x0A0FEF5B, .vst .f 30 31 1 false),
     (0x14A6055B, .vlds .b 10 12 10 2 false), (0x1F4D965A, .vsts .h 12 27 20 3 true),
     (0x21E4275B, .vldx .w 14 8 30 0 false), (0x2A8BB85B, .vstx .hu 16 23 8 1 false),
     (0x3402495A, .vldb .hf 18 4 2 true), (0x3809DE5B, .sbind .bf 4 19 false), (0x40000F5B, .sunb 6 false),
     (0x49800C5A, .sstat 24 0 true), (0x500E015B, .mldm 2 28 false), (0x5805825B, .mstm 4 11 false),
     (0x6060035A, .mand 6 0 6 true), (0x6803815B, .mor 2 7 0 false), (0x7022025B, .mxor 4 4 2 false),
     (0x7801835A, .mnot 6 3 true), (0x8000085B, .mpopc 16 0 false), (0x8803895B, .mfirst 18 7 false),
     (0x9006025A, .mset 4 12 true)] = true := by decide

/-- Words of: event channels (R189, R200). -/
theorem test_decodeChannels : decodes
    [(0x980D9B5B, .sdstep 22 27 false), (0xA1E40C5B, .evsend 24 8 30 false)] = true := by decide

/-- Words of: engine commands (R32, R210). -/
theorem test_decodeCommands : decodes
    [(0x008B8D7A, .mma 26 23 8 true), (0x03220E7B, .mmaBs 28 4 18 false), (0x05C98F7B, .mlut 30 19 28 false),
     (0x0660057A, .mbin 10 0 6 true), (0x0907867B, .mzero 12 15 16 false), (0x0BAE077B, .mlda 14 28 26 false),
     (0x0C45887A, .msta 16 11 4 true), (0x0EEC097B, .tcfg 18 24 14 false), (0x11838A7B, .trel 20 7 24 false),
     (0x122A0B7A, .mteam 22 20 2 true), (0x00C19C7B, .copy1 24 3 12 false), (0x03681D7B, .copy2 26 16 22 false),
     (0x040F9E7A, .copyx 28 31 0 true), (0x06A61F7B, .cfill 30 12 10 false), (0x014DA57B, .qnt8 10 27 20 false),
     (0x03E4267A, .qs2p 12 8 30 true), (0x048BA77B, .dqnt 14 23 8 false), (0x0122387B, .cred 16 4 18 false),
     (0x03C9B97A, .cbcast 18 19 28 true), (0x04603A7B, .cagath 20 0 6 false), (0x0107CB7B, .sdcfg 22 15 16 false),
     (0x03AE4C7A, .sdrst 24 28 26 true)] = true := by decide

/-- Words the spec writes out beside their assembly (02, 05, 07 to 09). -/
theorem test_decodeSpec : decodes
    [(0x01053303, .ld 6 10 16 false), (0x0055B423, .sd 5 11 8 false), (0x60031293, .clz 5 6 false),
     (0x209443B3, .sh2add 7 8 9 false), (0xFE029CE2, .bne 5 0 0xFFC true), (0xC01022F3, .csrrs 5 0xC01 0 false),
     (0x3862850A, .cwait 10 5 6 7 true), (0x3A62850B, .lwait 10 5 6 7 false), (0x0473428B, .cadd .v 5 6 7 false),
     (0x2694500B, .amin .s 0 8 9 false), (0x4273328B, .acasS 5 6 7 8 false), (0x0803428B, .mona 5 6 false),
     (0x3800228B, .mwait 5 7 false), (0x1003400B, .mclr 6 false), (0x4C03428B, .lda .v 5 6 false),
     (0x5462C00B, .stl .v 5 6 false), (0x3A03128B, .fencew .d 5 6 7 false), (0x3A00228B, .ifencew 5 7 false),
     (0x2220C22B, .vmadd .hf 4 1 2 1 false), (0x7020C2AB, .vcmplt .hf 5 1 2 0 false),
     (0x88C1632B, .vcvt .f .hf .rtz 6 2 0 false), (0xE80C132B, .vext .h 6 24 0 false),
     (0xFCB5742B, .scmac .x 8 10 11 2 false), (0x0005425B, .vld .hf 4 10 0 false), (0x38061C5B, .sbind .h 0 12 false)] = true := by decide

/-- Words the spec writes out beside their assembly (10 to 14, 16, 23 to 25). -/
theorem test_decodeSpecMore : decodes
    [(0x9803125B, .sdstep 4 6 false), (0xA07302DB, .evsend 5 6 7 false), (0x3803628B, .evstep 5 6 7 false),
     (0x3E02850B, .recv 10 5 7 false), (0x007342FB, .sdcfg 5 6 7 false), (0x027342FB, .sdrst 5 6 7 false),
     (0x0062967B, .copy1 12 5 6 false), (0x0662967B, .cfill 12 5 6 false), (0x0062A67B, .qnt8 12 5 6 false),
     (0x0062B67B, .cred 12 5 6 false), (0x5803400B, .tgive 6 false), (0x3C03328B, .ttake 5 6 7 false),
     (0x3E83328B, .qpush 5 6 8 7 false), (0x0062867B, .mma 12 5 6 false), (0x1262867B, .mteam 12 5 6 false),
     (0x1804438B, .join 7 8 false), (0x2003428B, .leave 5 6 false), (0x2803428B, .gnew 5 6 false),
     (0x3003428B, .gfree 5 6 false), (0x3C03028B, .barw 5 6 7 false), (0x3C03228B, .barx 5 6 7 false),
     (0x3803428B, .bara 5 6 false), (0x4673228B, .spawn 5 6 7 8 false), (0x4003400B, .exit 6 false),
     (0x30F6262B, .vmax .w 12 12 15 0 false), (0x9006222B, .vnrw .w .rne 4 12 0 false),
     (0x0A044BDB, .vst .hf 23 8 1 false), (0x5093400B, .stl .g 6 9 false)] = true := by decide

/-! ## Scalar instructions, one step each -/

/-- R85: an immediate is sign-extended. -/
theorem test_addi : xw (exec (.addi 7 5 0xFFF false) (at0 (full [(5, 0)]))) = [⟨7, 0xFFFFFFFFFFFFFFFF, true⟩] := by decide
/-- R81: LUI sign-extends its 32-bit value. -/
theorem test_lui : xw (exec (.lui 5 0x80000 false) (at0 (full []))) = [⟨5, 0xFFFFFFFF80000000, true⟩] := by decide
/-- R81: AUIPC adds to the PC of the instruction. -/
theorem test_auipc : xw (exec (.auipc 5 1 false) (at0 (full []))) = [⟨5, 0x2001000, true⟩] := by decide
/-- R85: SLTIU compares with the sign-extended immediate as unsigned; SLTI as signed. -/
theorem test_sltiu : xw (exec (.sltiu 5 6 0xFFF false) (at0 (full [(6, 1)]))) = [⟨5, 1, true⟩] := by decide
theorem test_slti : xw (exec (.slti 5 6 0xFFF false) (at0 (full [(6, 1)]))) = [⟨5, 0, true⟩] := by decide
/-- R85: the logic immediates. -/
theorem test_xori : xw (exec (.xori 5 6 0xFFF false) (at0 (full [(6, 0xF0)]))) = [⟨5, 0xFFFFFFFFFFFFFF0F, true⟩] := by decide
theorem test_ori : xw (exec (.ori 5 6 0x00F false) (at0 (full [(6, 0xF0)]))) = [⟨5, 0xFF, true⟩] := by decide
theorem test_andi : xw (exec (.andi 5 6 0x0FD false) (at0 (full [(6, 2)]))) = [⟨5, 0, true⟩] := by decide
/-- R85: shifts of the greatest amount. -/
theorem test_slli : xw (exec (.slli 5 6 63 false) (at0 (full [(6, 3)]))) = [⟨5, 0x8000000000000000, true⟩] := by decide
theorem test_srli : xw (exec (.srli 5 6 63 false) (at0 (full [(6, -1)]))) = [⟨5, 1, true⟩] := by decide
theorem test_srai : xw (exec (.srai 5 6 63 false) (at0 (full [(6, 0x8000000000000000)]))) = [⟨5, -1, true⟩] := by decide
/-- R87: the W forms work on the low word and sign-extend. -/
theorem test_addiw : xw (exec (.addiw 5 6 1 false) (at0 (full [(6, 0x7FFFFFFF)]))) = [⟨5, 0xFFFFFFFF80000000, true⟩] := by decide
theorem test_slliw : xw (exec (.slliw 5 6 31 false) (at0 (full [(6, 1)]))) = [⟨5, 0xFFFFFFFF80000000, true⟩] := by decide
theorem test_srliw : xw (exec (.srliw 5 6 4 false) (at0 (full [(6, 0xFFFFFFFF80000000)]))) = [⟨5, 0x8000000, true⟩] := by decide
theorem test_sraiw : xw (exec (.sraiw 5 6 4 false) (at0 (full [(6, 0x80000000)]))) = [⟨5, 0xFFFFFFFFF8000000, true⟩] := by decide
theorem test_addw : xw (exec (.addw 5 6 7 false) (at0 (full [(6, 0x7FFFFFFF), (7, 1)]))) = [⟨5, 0xFFFFFFFF80000000, true⟩] := by decide
theorem test_subw : xw (exec (.subw 5 6 7 false) (at0 (full [(7, 1)]))) = [⟨5, -1, true⟩] := by decide
theorem test_sllw : xw (exec (.sllw 5 6 7 false) (at0 (full [(6, 1), (7, 33)]))) = [⟨5, 2, true⟩] := by decide
theorem test_srlw : xw (exec (.srlw 5 6 7 false) (at0 (full [(6, 0xF80000000), (7, 32)]))) = [⟨5, 0xFFFFFFFF80000000, true⟩] := by decide
theorem test_sraw : xw (exec (.sraw 5 6 7 false) (at0 (full [(6, 0x80000000), (7, 31)]))) = [⟨5, -1, true⟩] := by decide
/-- R86: register forms; a shift takes the low six bits of its amount. -/
theorem test_add : xw (exec (.add 5 6 7 false) (at0 (full [(6, -1), (7, 3)]))) = [⟨5, 2, true⟩] := by decide
theorem test_sub : xw (exec (.sub 5 6 7 false) (at0 (full [(6, 2), (7, 3)]))) = [⟨5, -1, true⟩] := by decide
theorem test_sll : xw (exec (.sll 5 6 7 false) (at0 (full [(6, 1), (7, 65)]))) = [⟨5, 2, true⟩] := by decide
theorem test_srl : xw (exec (.srl 5 6 7 false) (at0 (full [(6, -1), (7, 60)]))) = [⟨5, 15, true⟩] := by decide
theorem test_sra : xw (exec (.sra 5 6 7 false) (at0 (full [(6, -16), (7, 2)]))) = [⟨5, -4, true⟩] := by decide
theorem test_slt : xw (exec (.slt 5 6 7 false) (at0 (full [(6, -1), (7, 1)]))) = [⟨5, 1, true⟩] := by decide
theorem test_sltu : xw (exec (.sltu 5 6 7 false) (at0 (full [(6, -1), (7, 1)]))) = [⟨5, 0, true⟩] := by decide
theorem test_xor : xw (exec (.xor 5 6 7 false) (at0 (full [(6, 12), (7, 10)]))) = [⟨5, 6, true⟩] := by decide
theorem test_or : xw (exec (.or 5 6 7 false) (at0 (full [(6, 12), (7, 10)]))) = [⟨5, 14, true⟩] := by decide
theorem test_and : xw (exec (.and 5 6 7 false) (at0 (full [(6, 12), (7, 10)]))) = [⟨5, 8, true⟩] := by decide
theorem test_orn : xw (exec (.orn 5 6 7 false) (at0 (full [(6, 1), (7, -4)]))) = [⟨5, 3, true⟩] := by decide
theorem test_andn : xw (exec (.andn 5 6 7 false) (at0 (full [(6, 12), (7, 10)]))) = [⟨5, 4, true⟩] := by decide
/-- R90: counts, lesser and greater, shifted adds; a zero word has 64 leading and trailing zeros. -/
theorem test_clz : xw (exec (.clz 5 6 false) (at0 (full [(6, 0)]))) = [⟨5, 64, true⟩] := by decide
theorem test_ctz : xw (exec (.ctz 5 6 false) (at0 (full [(6, 8)]))) = [⟨5, 3, true⟩] := by decide
theorem test_cpop : xw (exec (.cpop 5 6 false) (at0 (full [(6, -1)]))) = [⟨5, 64, true⟩] := by decide
theorem test_min : xw (exec (.min 5 6 7 false) (at0 (full [(6, -1), (7, 1)]))) = [⟨5, -1, true⟩] := by decide
theorem test_minu : xw (exec (.minu 5 6 7 false) (at0 (full [(6, -1), (7, 1)]))) = [⟨5, 1, true⟩] := by decide
theorem test_max : xw (exec (.max 5 6 7 false) (at0 (full [(6, -1), (7, 1)]))) = [⟨5, 1, true⟩] := by decide
theorem test_maxu : xw (exec (.maxu 5 6 7 false) (at0 (full [(6, -1), (7, 1)]))) = [⟨5, -1, true⟩] := by decide
theorem test_sh1add : xw (exec (.sh1add 5 6 7 false) (at0 (full [(6, 3), (7, 1)]))) = [⟨5, 7, true⟩] := by decide
theorem test_sh2add : xw (exec (.sh2add 5 6 7 false) (at0 (full [(6, 3), (7, 1)]))) = [⟨5, 13, true⟩] := by decide
theorem test_sh3add : xw (exec (.sh3add 5 6 7 false) (at0 (full [(6, 3), (7, 1)]))) = [⟨5, 25, true⟩] := by decide
/-- R88, R89: the example after R89, and high halves. -/
theorem test_mul : xw (exec (.mul 5 6 7 false) (at0 (full [(6, -3), (7, 5)]))) = [⟨5, -15, false⟩] := by decide
theorem test_mulh : xw (exec (.mulh 5 6 7 false) (at0 (full [(6, -1), (7, -1)]))) = [⟨5, 0, false⟩] := by decide
theorem test_mulhsu : xw (exec (.mulhsu 5 6 7 false) (at0 (full [(6, -1), (7, -1)]))) = [⟨5, -1, false⟩] := by decide
theorem test_mulhu : xw (exec (.mulhu 5 6 7 false) (at0 (full [(6, -1), (7, -1)]))) = [⟨5, -2, false⟩] := by decide
theorem test_mulw : xw (exec (.mulw 5 6 7 false) (at0 (full [(6, 0x10000), (7, 0x8000)]))) = [⟨5, 0xFFFFFFFF80000000, false⟩] := by decide
theorem test_div : let o := exec (.div 7 5 6 false) (at0 (full [(5, 0x8000000000000000), (6, -1)]))
    (xw o, fl o) = ([⟨7, 0x8000000000000000, false⟩], 0) := by decide
theorem test_div_towards_zero : xw (exec (.div 7 5 6 false) (at0 (full [(5, -7), (6, 2)]))) = [⟨7, -3, false⟩] := by decide
theorem test_rem : xw (exec (.rem 11 12 13 false) (at0 (full [(12, -7), (13, 2)]))) = [⟨11, -1, false⟩] := by decide
theorem test_rem_overflow : xw (exec (.rem 8 5 6 false) (at0 (full [(5, 0x8000000000000000), (6, -1)]))) = [⟨8, 0, false⟩] := by decide
theorem test_divu : let o := exec (.divu 9 5 0 false) (at0 (full [(5, 0x8000000000000000)]))
    (xw o, fl o) = ([⟨9, -1, false⟩], 2) := by decide
theorem test_remu : let o := exec (.remu 9 5 0 false) (at0 (full [(5, 7)]))
    (xw o, fl o) = ([⟨9, 7, false⟩], 2) := by decide
theorem test_remw : let o := exec (.remw 10 6 0 false) (at0 (full [(6, 0xFFFFFFFFFFFFFFFF)]))
    (xw o, fl o) = ([⟨10, -1, false⟩], 2) := by decide
theorem test_divw : let o := exec (.divw 5 6 7 false) (at0 (full [(6, 0x80000000), (7, 0xFFFFFFFF)]))
    (xw o, fl o) = ([⟨5, 0xFFFFFFFF80000000, false⟩], 0) := by decide
theorem test_divuw : xw (exec (.divuw 5 6 7 false) (at0 (full [(6, 0xFFFFFFFF), (7, 1)]))) = [⟨5, -1, false⟩] := by decide
theorem test_remuw : xw (exec (.remuw 5 6 7 false) (at0 (full [(6, 0x80000001), (7, 0x100000002)]))) = [⟨5, 1, false⟩] := by decide
/-- R82: the example after R84 (JALR at 0x0200_0000). -/
theorem test_jalr_misaligned : let o := exec (.jalr 1 5 6 false) (at0 (full [(5, 0x2000100)]))
    (faultOf o, xw o) = (some ⟨17, 1, 0x2000106⟩, []) := by decide
theorem test_jalr : let o := exec (.jalr 1 5 5 false) (at0 (full [(5, 0x2000100)]))
    (xw o, pcOf o) = ([⟨1, 0x2000004, true⟩], 0x2000104) := by decide
theorem test_jal : let o := exec (.jal 1 8 false) (at0 (full []))
    (xw o, pcOf o) = ([⟨1, 0x2000004, true⟩], 0x2000010) := by decide
/-- R83: the branch of the encodings' example, 8 bytes back; the other conditions at a sign change. -/
theorem test_bne : pcOf (exec (.bne 5 0 0xFFC true) (at0 (full [(5, 1)]))) = 0x1FFFFF8 := by decide
theorem test_beq : pcOf (exec (.beq 5 0 4 false) (at0 (full [(5, 1)]))) = 0x2000004 := by decide
theorem test_blt : pcOf (exec (.blt 5 0 4 false) (at0 (full [(5, -1)]))) = 0x2000008 := by decide
theorem test_bltu : pcOf (exec (.bltu 5 0 4 false) (at0 (full [(5, -1)]))) = 0x2000004 := by decide
theorem test_bge : pcOf (exec (.bge 5 5 4 false) (at0 (full []))) = 0x2000008 := by decide
theorem test_bgeu : pcOf (exec (.bgeu 0 5 4 false) (at0 (full [(5, 1)]))) = 0x2000004 := by decide

/-! ## Loads, stores, CSRs and system instructions -/

/-- R91: loads from the own TCM; mem64(0x100) = 0xFEDC_BA98_7654_32F0, little-endian (R2). -/
def tcm100 (t : Thread) : State := withTcm (at0 t) 0x100 0xFEDCBA98765432F0
theorem test_lb : xw (exec (.lb 5 10 0 false) (tcm100 (full [(10, 0x100)]))) = [⟨5, 0xFFFFFFFFFFFFFFF0, false⟩] := by decide
theorem test_lbu : xw (exec (.lbu 5 10 1 false) (tcm100 (full [(10, 0x100)]))) = [⟨5, 0x32, false⟩] := by decide
theorem test_lh : xw (exec (.lh 5 10 6 false) (tcm100 (full [(10, 0x100)]))) = [⟨5, 0xFFFFFFFFFFFFFEDC, false⟩] := by decide
theorem test_lhu : xw (exec (.lhu 5 10 6 false) (tcm100 (full [(10, 0x100)]))) = [⟨5, 0xFEDC, false⟩] := by decide
theorem test_lw : xw (exec (.lw 5 10 4 false) (tcm100 (full [(10, 0x100)]))) = [⟨5, 0xFFFFFFFFFEDCBA98, false⟩] := by decide
theorem test_lwu : xw (exec (.lwu 5 10 4 false) (tcm100 (full [(10, 0x100)]))) = [⟨5, 0xFEDCBA98, false⟩] := by decide
theorem test_ld : xw (exec (.ld 5 10 0xFF8 false) (tcm100 (full [(10, 0x108)]))) = [⟨5, 0xFEDCBA98765432F0, false⟩] := by decide
/-- R92: a misaligned load faults with its address. -/
theorem test_ld_misaligned : faultOf (exec (.ld 5 10 4 false) (tcm100 (full [(10, 0x100)]))) = some ⟨17, 0, 0x104⟩ := by decide
/-- R91, R120: stores change exactly their bytes. -/
def readBack (o : Host.Outcome State Fault Refusal) : Nat := (after o).read (tcmLoc 0 0x100) 8
theorem test_sb : readBack (walked (.sb 5 10 1 true) (tcm100 (full [(10, 0x100), (5, 0x1AB)]))) = 0xFEDCBA987654ABF0 := by decide
theorem test_sh : readBack (walked (.sh 5 10 2 true) (tcm100 (full [(10, 0x100), (5, 0x1AB)]))) = 0xFEDCBA9801AB32F0 := by decide
theorem test_sw : readBack (walked (.sw 5 10 0 true) (tcm100 (full [(10, 0x100), (5, -2)]))) = 0xFEDCBA98FFFFFFFE := by decide
theorem test_sd : readBack (walked (.sd 5 10 0 true) (tcm100 (full [(10, 0x100), (5, 7)]))) = 7 := by decide
/-- R27, R77, R97: CSR instructions. -/
theorem test_csrrw : let o := exec (.csrrw 5 0x009 6 false) (at0 { full [(6, 9)] with rdrop := 3 })
    (xw o, (last o).map Entry.csr) = ([⟨5, 3, true⟩], some (some (0x009, .write 9))) := by decide
theorem test_csrrs_pt : xw (exec (.csrrs 5 0xC01 0 false) { at0 (full []) with pt := 1234 }) = [⟨5, 1234, false⟩] := by decide
theorem test_csrrc : ((last (exec (.csrrc 0 0x009 6 false) (at0 (full [(6, 1)])))).bind Entry.csr) = some (0x009, .clear 1) := by decide
theorem test_csrrwi_ro : faultOf (exec (.csrrwi 5 0xC02 1 false) (at0 (full []))) = some ⟨16, 0, wordOf (.csrrwi 5 0xC02 1 false)⟩ := by decide
theorem test_csrrsi : ((last (exec (.csrrsi 5 0x001 8 false) (at0 (full [])))).bind Entry.csr) = some (0x001, .set 8) := by decide
theorem test_csrrci_user : faultOf (exec (.csrrci 5 0x100 0 false) (at0 { full [] with sup := false })) = some ⟨18, 5, wordOf (.csrrci 5 0x100 0 false)⟩ := by decide
/-- R99, R294, R295: ECALL from user mode at level 0 enters the handler with cause 6 and its own PC. -/
def ecallState : State := at0 { full [] with sup := false, tvec := 0x2000400 }
theorem test_ecall : ((thr0 (walked (.ecall true) ecallState)).map fun t => (t.pc, t.sup, t.level, t.bank0)) =
    some (0x2000400, true, 1, ⟨6, 0x2000000, 0, 0⟩) := by decide
/-- R362: EBREAK raises cause 5 with detail 3. -/
theorem test_ebreak : ((thr0 (walked (.ebreak true) ecallState)).map fun t => t.bank0) = some ⟨5, 0x2000000, 0, 0x300⟩ := by decide
/-- R100: XRET from level 1 goes back to user mode at tepc0. -/
theorem test_xret : ((thr0 (walked (.xret true) (at0 { full [] with level := 1, bank0 := ⟨6, 0x2000080, 0, 0⟩ }))).map
    fun t => (t.pc, t.sup, t.level)) = some (0x2000080, false, 0) := by decide
/-- R301, R35: CSWAP in user mode is a permission fault; a light thread may not name x16. -/
theorem test_cswap_user : faultOf (exec (.cswap true) (at0 { full [] with sup := false })) = some ⟨18, 5, 0x6800400A⟩ := by decide
theorem test_cswap : ((thr0 (walked (.cswap true) (at0 (full [])))).map Thread.place) = some (.bank 0 0) := by decide
theorem test_light_x16 : (faultOf (exec (.add 16 1 2 false) (at0 (lightT [])))).map Trap.cause = some 16 := by decide

/-! ## Waits, atomics, monitors and fences -/

/-- A thread whose x5 names the doubleword 5 at 0x100 of its own TCM, with a ceiling of 2 ms, at 1 ms (the example after R108). -/
def counter5 (xs : List (Nat × Word)) : State :=
  withTcm { at0 { full ((5, 0x100) :: xs) with wceil := 2000000 } with pt := 1000000 } 0x100 5
/-- X[rd] and X[rd + 1] after a wait. -/
def pair (o : Host.Outcome State Fault Refusal) (rd : Reg) : Word × Word := (xOf o rd, xOf o (rd + 1))
/-- The E of the wait a thread is parked on, and whether the ceiling set it. -/
def parkedE (o : Host.Outcome State Fault Refusal) : Option (Nat × Bool) :=
  (thr0 o).bind fun t => if t.run = .wait then t.wait.map fun w => (w.deadline, w.ceil) else none
/-- R145, R109: met at the first test; a poll that fails; a wait that parks until E = 1,050,000. -/
theorem test_cwait_met : pair (walked (.cwait 10 5 6 7 true) (counter5 [(6, 5)])) 10 = (5, 0) := by decide
theorem test_cwait_poll : pair (walked (.cwait 10 5 6 7 true) (counter5 [(6, 6)])) 10 = (5, 0x101) := by decide
/-- R104, R108: relative 50,000 ns; absolute 4,194,304 ns clamped by the ceiling to 3,000,000. -/
theorem test_deadline_relative : parkedE (walked (.cwait 10 5 6 7 true) (counter5 [(6, 6), (7, 0x800000000000C350)])) = some (1050000, false) := by decide
theorem test_deadline_ceiling : parkedE (walked (.lwait 10 5 6 7 true) (counter5 [(6, 5), (7, 0x400000)])) = some (3000000, true) := by decide
/-- R152: LWAIT on 1 finds 5; a poll on 5 gives the compare value and TIMEOUT. -/
theorem test_lwait_differs : pair (walked (.lwait 10 5 6 7 true) (counter5 [(6, 1)])) 10 = (5, 0) := by decide
/-- R143, R144: CADD gives the old value; an overflow saturates and traps with cause 20. -/
theorem test_cadd : let o := walked (.cadd .v 8 5 6 true) (counter5 [(6, 2)])
    (xOf o 8, (after o).read (tcmLoc 0 0x100) 8) = (5, 7) := by decide
theorem test_cadd_overflow : let o := walked (.cadd .v 8 5 6 true) (withTcm (at0 { full [(5, 0x100), (6, 2)] with level := 1 }) 0x100 (2 ^ 64 - 1))
    ((thr0 o).map fun t => (t.bank1.cause, t.bank1.val), (after o).read (tcmLoc 0 0x100) 8) = (some (20, 0x100), 2 ^ 64 - 1) := by decide
/-- R148: the far atomics on 5, with the old value back. -/
def atomic5 (i : Instr) (arg : Word) : Word × Nat :=
  let o := walked i (counter5 [(6, arg)])
  (xOf o 8, (after o).read (tcmLoc 0 0x100) 8)
theorem test_aadd : atomic5 (.aadd .v 8 5 6 true) (-6) = (5, 2 ^ 64 - 1) := by decide
theorem test_aand : atomic5 (.aand .v 8 5 6 true) 6 = (5, 4) := by decide
theorem test_aor : atomic5 (.aor .v 8 5 6 true) 6 = (5, 7) := by decide
theorem test_axor : atomic5 (.axor .v 8 5 6 true) 6 = (5, 3) := by decide
theorem test_amin : atomic5 (.amin .v 8 5 6 true) (-1) = (5, 2 ^ 64 - 1) := by decide
theorem test_amax : atomic5 (.amax .v 8 5 6 true) (-1) = (5, 5) := by decide
theorem test_aminu : atomic5 (.aminu .v 8 5 6 true) (-1) = (5, 5) := by decide
theorem test_amaxu : atomic5 (.amaxu .v 8 5 6 true) (-1) = (5, 2 ^ 64 - 1) := by decide
theorem test_aswap : atomic5 (.aswap .v 8 5 6 true) 9 = (5, 9) := by decide
/-- R151: ACAS writes where the doubleword equals the compare value. -/
theorem test_acas : let o := walked (.acasV 8 5 6 7 true) (counter5 [(6, 5), (7, 11)])
    (xOf o 8, (after o).read (tcmLoc 0 0x100) 8) = (5, 11) := by decide
theorem test_acas_fails : let o := walked (.acasS 8 5 6 7 true) (counter5 [(6, 4), (7, 11)])
    (xOf o 8, (after o).read (tcmLoc 0 0x100) 8) = (5, 5) := by decide
/-- R129: LDA and STL. -/
theorem test_lda : xOf (walked (.lda .v 8 5 true) (counter5 [])) 8 = 5 := by decide
theorem test_stl : (after (walked (.stl .v 5 6 true) (counter5 [(6, 9)]))).read (tcmLoc 0 0x100) 8 = 9 := by decide
/-- R154 to R156: MONA takes entry 0; MWAIT with every entry Free is REFUSED; MCLR frees the entry of its line. -/
theorem test_mona : let o := walked (.mona 8 5 true) (counter5 [])
    (xOf o 8, (thr0 o).map fun t => t.mon.head?) = (0, some (some (.quiet (tcmLoc 0 0x100 / 64) 0x100))) := by decide
theorem test_mwait_free : xOf (walked (.mwait 8 7 true) (counter5 [])) 8 = 11 := by decide
theorem test_mwait_written : let s := counter5 []
    let o := walked (.mwait 8 7 true) (s.updThr 0 fun t => { t with mon := [.quiet 1 64, .written 2 128, .free, .free] })
    (xOf o 8, (thr0 o).map Thread.mon) = (0x20000, some [.quiet 1 64, .quiet 2 128, .free, .free]) := by decide
theorem test_mclr : let s := (counter5 []).updThr 0 fun t => { t with mon := [.quiet (tcmLoc 0 0x100 / 64) 0x100, .free, .free, .free] }
    ((thr0 (walked (.mclr 5 true) s)).map fun t => t.mon.head?) = some (some .free) := by decide
/-- R130, R138: a reserved class bit is REFUSED; nothing outstanding drains at once. -/
theorem test_fencew_reserved : xOf (walked (.fencew .v 8 6 7 true) (counter5 [(6, 32)])) 8 = 11 := by decide
theorem test_fencew : xOf (walked (.fencew .v 8 6 7 true) (counter5 [(6, 31)])) 8 = 0 := by decide
theorem test_ifencew : xOf (walked (.ifencew 8 7 true) (counter5 [])) 8 = 0 := by decide

/-! ## Groups, barriers, threads and tiles -/

/-- The example after R258: thread of class 2 on vcore 40; slots 0 to 2 of die 0 Active, slot 3 Free with generation 1. -/
def groupState (xs : List (Nat × Word)) : State :=
  let g : Group := { Group.reset with active := true, cls := 2 }
  { State.reset with
    threads := [(0, State.reset.freshThread 40 0 0 2 none false false 0x2000000 xs)], nextId := 1, cur := (40, 0)
    groups := [(0, g), (1, g), (2, g), (3, { Group.reset with gen := 1 })] }
theorem test_gnew : let o := walked (.gnew 5 6 true) (groupState [(6, 0x82)])
    (xOf o 5, ((after o).group 3).members) = (0x4003, [⟨0, 0, .idle⟩]) := by decide +kernel
/-- JOIN of another class gives 0x8000_0000_0000_020B; of a slot whose generation has moved on, GONE. -/
theorem test_join_class : xOf (walked (.join 7 8 true) ((groupState [(8, 2)]).updThr 0 fun t => { t with cls := 3 })) 7 = 0x800000000000020B := by decide
theorem test_join_gone : xOf (walked (.join 7 8 true) (groupState [(8, 0x4003)])) 7 = 0x8000000000000008 := by decide
theorem test_leave_outsider : xOf (walked (.leave 7 8 true) (groupState [(8, 2)])) 7 = 0x40B := by decide
theorem test_gfree : let o := walked (.gfree 7 8 true) (groupState [(8, 2)])
    (xOf o 7, ((after o).group 2).active, ((after o).group 2).gen) = (0, false, 1) := by decide
/-- R264, R266: in a group of two at phase 5, of whom the other has arrived, an arrival completes the phase. -/
def barrierState (arr : Arrival) : State :=
  let s := groupState [(6, 2)]
  let g : Group := { Group.reset with active := true, cls := 2, phase := 5, members := [⟨0, 0, arr⟩, ⟨1, 7, .arrived⟩] }
  { s.setGroup 2 g with
    threads := s.threads ++ [(7, State.reset.freshThread 41 0 0 2 none false false 0x2000000 [])] }
theorem test_bara : let o := walked (.bara 8 6 true) (barrierState .idle)
    (xOf o 8, ((after o).group 2).phase) = (0x50000, 6) := by decide
theorem test_barw : xOf (walked (.barw 8 6 7 true) (barrierState .idle)) 8 = 0x50000 := by decide
theorem test_barx_idle : xOf (walked (.barx 8 6 7 true) (barrierState .idle)) 8 = 0x60B := by decide
/-- R285: SPAWN of an ENTRY that is no kernel's share is REFUSED. -/
theorem test_spawn_refused : (xOf (walked (.spawn 8 6 7 9 true) (at0 (full [(6, 0x2000000)]))) 8) &&& 0xFF = 11 := by decide
/-- R289: EXIT empties the slot. -/
theorem test_exit : ((after (walked (.exit 6 true) (at0 (full [])))).inSlot 0 0).isNone = true := by decide
/-- R219, R220: TGIVE of a scratchpad tile and TTAKE of it. -/
theorem test_tgive : (after (walked (.tgive 6 true) (at0 (full [(6, 0x1000000)])))).owned = [0] := by decide
theorem test_ttake : let o := walked (.ttake 8 6 7 true) { at0 (full [(6, 0x1000000)]) with owned := [0] }
    (xOf o 8, (after o).owned) = (0, []) := by decide
/-- R359, R360: TMARK with the trace off only retires. -/
theorem test_tmark : ((thr0 (walked (.tmark 6 true) (at0 (full [(6, 3)])))).map fun t => t.block) = some [] := by decide

/-! ## Event channels (the example after R203) -/

/-- Range 0 of vcore 0: slot 0 with θ = 4, s = 2, channel 5, one destination, vcore 2, index 0. -/
def sdu0 : Sdu :=
  { Sdu.reset with
    owner := some 0
    ranges := ⟨true, 0, 1, 2, 5, 0, [⟨true, 2, 0, 0⟩, ⟨false, 0, 0, 0⟩, ⟨false, 0, 0, 0⟩, ⟨false, 0, 0, 0⟩], 0, 0⟩ ::
      List.replicate 7 .reset
    slots := [(0, 4, [0, 0, 0, 0])] }
def sduState (t : Thread) : State := { at0 t with sdus := [(0, sdu0)] }
/-- x = 9 sends code rne(2.25) = 2 and x̂ becomes 8. -/
theorem test_sdstep : let s := after (walked (.sdstep 4 6 true) (sduState (fullV [] [(4, lanes16 [9])])))
    (s.packets.map fun p => (p.dst, fieldOf p.word 8 8, fieldOf p.word 52 12), (s.sdu 0).sent 0 0) = ([(2, 2, 5)], 8) := by decide +kernel
/-- R190: 7 gives rne(1.75) = 2; 2 is quiet; R191's tie of a residual 10 with s = 2 is 2. -/
theorem test_changeCode : (changeCode 7 4 2, changeCode 2 4 2, changeCode 10 4 2) = ((2, false), (0, false), (2, false)) := by decide
/-- R200: EVSEND sends its word with SRC replaced by its own vcore. -/
theorem test_evsend : ((after (walked (.evsend 8 6 7 true) (at0 (full [(6, 3), (7, 0x5009990000010200)])))).packets.map
    fun p => (p.dst, p.word)) = [(3, 0x5000000000010200)] := by decide
/-- R201: EVSTEP closes step 0 of range 0 and toggles its parity. -/
theorem test_evstep : let s := after (walked (.evstep 8 6 7 true) (sduState (full [(7, 0x8000000000001000)])))
    (((s.sdu 0).range 0).cur, ((s.sdu 0).range 0).parity, ((s.sdu 0).steps.map SdStep.num)) = (1, 1, [0]) := by decide
/-- R202: RECV takes the head of the lowest class; AUX is what is left. -/
theorem test_recv : let s := { at0 (full []) with inboxes := [(0, { Inbox.reset with owner := some 0, q := [[], [7, 9], [], []] })] }
    pair (walked (.recv 10 6 7 true) s) 10 = (7, 0x10000) := by decide

/-! ## Engine commands: each is accepted into its engine's queue (R206 to R210) -/

/-- The engine, operation and header of the command an instruction sends: its body at 0x100 of the own TCM names it. -/
def sends (i : Instr) (eng op : Nat) : Bool :=
  let s := withTcm (at0 { full [(5, 0x100), (6, 0x8000000000100000)] with wceil := 100000 }) 0x100 (op + eng * 256 + 2 ^ 56)
  match (after (walked i s)).cmds with
  | [c] => decide (c.eng = engineOf eng 0) && c.op == op && c.deadline == 100000 && (decide (c.reg = some 12) || c.reg == none)
  | _ => false
theorem test_commands : (sends (.mma 12 5 6 true) 0 0 && sends (.mmaBs 12 5 6 true) 0 1 && sends (.mlut 12 5 6 true) 0 2 &&
    sends (.mbin 12 5 6 true) 0 3 && sends (.mzero 12 5 6 true) 0 4 && sends (.mlda 12 5 6 true) 0 5) = true := by decide
theorem test_commandsMore : (sends (.msta 12 5 6 true) 0 6 && sends (.tcfg 12 5 6 true) 0 7 && sends (.mteam 12 5 6 true) 0 9 &&
    sends (.copy1 12 5 6 true) 1 0 && sends (.copy2 12 5 6 true) 1 1 && sends (.copyx 12 5 6 true) 1 2 &&
    sends (.cfill 12 5 6 true) 1 3) = true := by decide
theorem test_commandsLast : (sends (.qnt8 12 5 6 true) 2 0 && sends (.qs2p 12 5 6 true) 2 1 && sends (.dqnt 12 5 6 true) 2 2 &&
    sends (.cred 12 5 6 true) 3 0 && sends (.cbcast 12 5 6 true) 3 1 && sends (.cagath 12 5 6 true) 3 2 &&
    sends (.sdcfg 12 5 6 true) 4 0 && sends (.sdrst 12 5 6 true) 4 1) = true := by decide
/-- R209: a body that is not 64-byte aligned is a misalignment fault, detail 2. -/
theorem test_command_misaligned : ((thr0 (walked (.copy1 12 5 6 true) (at0 { full [(5, 0x108)] with level := 1 }))).map fun t =>
    (t.bank1.cause, t.bank1.stat &&& 0xFF00)) = some (17, 0x200) := by decide

/-! ## Vector instructions -/

/-- The lanes of 16 bits of a result. -/
def v16 (o : Host.Outcome State Fault Refusal) (i : Nat) : Nat := vlane o 16 i
/-- v2 and v3 of the example after R161: 30,000 + 5,000, −20,000 − 20,000, 1 + 1; m1 = 3. -/
def addState : State :=
  at0 { fullV [] [(2, lanes16 [30000, 45536, 1]), (3, lanes16 [5000, 45536, 1])] with m := [0, 3, 0, 0, 0, 0, 0, 0] }
theorem test_vadd : let o := exec (.vadd .h 1 2 3 1 false) addState
    (v16 o 0, v16 o 1, fl o, (last o).map fun e => e.vw.map fun x => x.bits) = (32767, 32768, 32, some [0xFFFFFFFF]) := by decide
theorem test_vadd_m0 : v16 (exec (.vadd .h 1 2 3 0 false) addState) 2 = 2 := by decide
theorem test_vsub_hu : let o := exec (.vsub .hu 1 2 3 0 false) (at0 (fullV [] [(2, lanes16 [1]), (3, lanes16 [2])]))
    (v16 o 0, fl o) = (0, 32) := by decide
/-- R48: an FP16 product of exactly 2^−25 is +0 with UF and NX. -/
theorem test_vmul_hf : let o := exec (.vmul .hf 1 2 3 1 false) (at0 { fullV [] [(2, lanes16 [0x0800]), (3, lanes16 [0x0C00])] with m := [0, 1, 0, 0, 0, 0, 0, 0] })
    (v16 o 0, fl o) = (0, 24) := by decide
theorem test_vmul_b : vlane (exec (.vmul .b 1 2 3 0 false) (at0 (fullV [] [(2, 0x80), (3, 2)]))) 8 0 = 0 := by decide
theorem test_vmulh : v16 (exec (.vmulh .h 1 2 3 0 false) (at0 (fullV [] [(2, lanes16 [0x8000]), (3, lanes16 [1])]))) 0 = 0xFFFF := by decide
/-- R47: a fused multiply-add rounds once: 1 + 2^−11 × 2^−11 in FP16 is 1, inexact. -/
theorem test_vmadd : let o := exec (.vmadd .hf 1 2 3 1 false) (at0 { fullV [] [(1, lanes16 [0x3C00]), (2, lanes16 [0x1000]), (3, lanes16 [0x1000])] with m := [0, 1, 0, 0, 0, 0, 0, 0] })
    (v16 o 0, fl o) = (0x3C00, 16) := by decide
/-- R46: with one NaN the other operand; −0 below +0. -/
theorem test_vmin : v16 (exec (.vmin .hf 1 2 3 0 false) (at0 (fullV [] [(2, lanes16 [0x7E00]), (3, lanes16 [0x3C00])]))) 0 = 0x3C00 := by decide
theorem test_vmax : v16 (exec (.vmax .hf 1 2 3 0 false) (at0 (fullV [] [(2, lanes16 [0x8000]), (3, lanes16 [0])]))) 0 = 0 := by decide
theorem test_vand : v16 (exec (.vand .h 1 2 3 0 false) (at0 (fullV [] [(2, lanes16 [12]), (3, lanes16 [10])]))) 0 = 8 := by decide
theorem test_vor : v16 (exec (.vor .h 1 2 3 0 false) (at0 (fullV [] [(2, lanes16 [12]), (3, lanes16 [10])]))) 0 = 14 := by decide
theorem test_vxor : v16 (exec (.vxor .h 1 2 3 0 false) (at0 (fullV [] [(2, lanes16 [12]), (3, lanes16 [10])]))) 0 = 6 := by decide
theorem test_vsll : v16 (exec (.vsll .h 1 2 3 0 false) (at0 (fullV [] [(2, lanes16 [0x8001]), (3, lanes16 [17])]))) 0 = 2 := by decide
theorem test_vsrl : v16 (exec (.vsrl .h 1 2 3 0 false) (at0 (fullV [] [(2, lanes16 [0x8001]), (3, lanes16 [15])]))) 0 = 1 := by decide
theorem test_vsra : v16 (exec (.vsra .h 1 2 3 0 false) (at0 (fullV [] [(2, lanes16 [0x8001]), (3, lanes16 [15])]))) 0 = 0xFFFF := by decide
/-- R161: |−128| saturates to 127. -/
theorem test_vabs : let o := exec (.vabs .h 1 2 0 false) (at0 (fullV [] [(2, lanes16 [0x8000])]))
    (v16 o 0, fl o) = (32767, 32) := by decide
/-- R46, R162: a NaN compares false; VCMPLT sets NV, VCMPEQ of a quiet NaN does not; bits from n up are cleared. -/
def cmpOf (o : Host.Outcome State Fault Refusal) : Option (List MWrite) := (last o).map Entry.mw
theorem test_vcmpeq : let o := exec (.vcmpeq .hf 5 2 3 0 false) (at0 (fullV [] [(2, lanes16 [0x7E00]), (3, lanes16 [0x7E00])]))
    (cmpOf o, fl o) = (some [⟨5, 0xFFFFFFFF, 0xFFFE⟩], 0) := by decide
theorem test_vcmplt : let o := exec (.vcmplt .hf 5 2 3 0 false) (at0 (fullV [] [(2, lanes16 [0x7E00, 0x8000]), (3, lanes16 [0x3C00, 0])]))
    (cmpOf o, fl o) = (some [⟨5, 0xFFFFFFFF, 0⟩], 1) := by decide
theorem test_vcmple : cmpOf (exec (.vcmple .hf 5 2 3 0 false) (at0 (fullV [] [(2, lanes16 [0x8000, 0x3C00]), (3, lanes16 [0, 0])]))) =
    some [⟨5, 0xFFFFFFFF, 0xFFFD⟩] := by decide
theorem test_vsel : let o := exec (.vsel .h 1 2 3 1 false) (at0 { fullV [] [(2, lanes16 [7, 7]), (3, lanes16 [9, 9])] with m := [0, 1, 0, 0, 0, 0, 0, 0] })
    (v16 o 0, v16 o 1) = (7, 9) := by decide
/-- R55: 1.75 becomes 0x10, −1.75 0x98, 1.0 0x70. R52: the infinite, NaN and inexact conversions to an integer. -/
theorem test_toS2p : (convert .hf .x .rne 0x3F00, convert .hf .x .rne 0xBF00, convert .hf .x .rne 0x3C00) =
    ((0x10, 16), (0x98, 16), (0x70, 0)) := by decide +kernel
theorem test_vcvt_h : let o := exec (.vcvt .hf .h .rtz 1 2 0 false) (at0 (fullV [] [(2, lanes16 [0xBE00, 0x7C00, 0x7E00])]))
    (v16 o 0, v16 o 1, v16 o 2, fl o) = (0xFFFF, 32767, 0, 49) := by decide
/-- R165: with 16 fraction bits, 1.5 rounds to 2; 40,000 clamps. -/
theorem test_vnrw_x : let o := exec (.vnrw .x .rne 1 2 0 false) (at0 (fullV [] [(2, lanes32 [0x18000, 0x7FFFFFFF])]))
    (v16 o 0, v16 o 1, fl o) = (2, 32767, 48) := by decide
theorem test_vwid : vlane (exec (.vwid .h 2 4 0 false) (at0 (fullV [] [(4, lanes16 [0x8000])]))) 32 0 = 0xFFFF8000 := by decide
/-- R60: the tree's order: 2,048, 1, 1, 0 give 2,048 inexactly, 2,048, 0, 1, 1 give 2,050. -/
theorem test_vrsum : let o := exec (.vrsum .hf 1 2 0 false) (at0 (fullV [] [(2, lanes16 [0x6800, 0x3C00, 0x3C00, 0])]))
    (v16 o 0, fl o) = (0x6800, 16) := by decide
theorem test_vrsum_order : v16 (exec (.vrsum .hf 1 2 0 false) (at0 (fullV [] [(2, lanes16 [0x6800, 0, 0x3C00, 0x3C00])]))) 0 = 0x6801 := by decide
/-- R166: with no lane the type's least value. -/
theorem test_vrmax : v16 (exec (.vrmax .h 1 2 1 false) (at0 (fullV [] []))) 0 = 0x8000 := by decide
theorem test_vrmin : v16 (exec (.vrmin .h 1 2 0 false) (at0 (fullV [] [(2, lanes16 [3, 0xFFFF])]))) 0 = 0xFFFF := by decide +kernel
theorem test_vperm : v16 (exec (.vperm .h 1 2 3 0 false) (at0 (fullV [] [(2, lanes16 [3, 4, 5]), (3, lanes16 [18])]))) 0 = 5 := by decide
theorem test_vsplat : v16 (exec (.vsplat .h 1 5 0 false) (at0 (full [(5, 0x12345)]))) 15 = 0x2345 := by decide
theorem test_vext : xw (exec (.vext .h 6 2 1 false) (at0 (fullV [] [(2, lanes16 [0, 0x8000])]))) = [⟨6, 0xFFFFFFFFFFFF8000, false⟩] := by decide
theorem test_vins : ((last (exec (.vins .h 1 5 2 false) (at0 (full [(5, 7)])))).map fun e => e.vw) =
    some [⟨1, 0xFFFF00000000, 0x700000000⟩] := by decide
theorem test_vpopc : v16 (exec (.vpopc .h 1 2 0 false) (at0 (fullV [] [(2, lanes16 [0xF0F0])]))) 0 = 8 := by decide
theorem test_vpopc_x : vlane (exec (.vpopc .x 1 2 1 false) (at0 { fullV [] [(2, 0xFFFF)] with m := [0, 2, 0, 0, 0, 0, 0, 0] })) 32 0 = 8 := by decide +kernel
theorem test_vdot : vlane (exec (.vdot 1 2 3 0 false) (at0 (fullV [] [(1, 100), (2, 0xFF020304), (3, 0x01010101)]))) 32 0 = 108 := by decide
/-- R170: with E = 0 and x = 0.5, k = 48; slope 2 and intercept 1 give 2. -/
theorem test_vlut : let s := withTcm (at0 { fullV [] [(2, lanes16 [0x3800])] with lutb := 0x200, m := [0, 1, 0, 0, 0, 0, 0, 0] }) (512 + 8 * 48) 0x3F80000040000000
    v16 (exec (.vlut .hf 1 2 1 false) s) 0 = 0x4000 := by decide
/-- The example after R172. -/
def scmacState (code : Word) : State :=
  withTcm (withTcm (at0 { fullV [(10, 0x400), (11, code)] [(8, lanes32 [0x7FFF0000, 100])] with m := [0, 0, 3, 0, 0, 0, 0, 0] })
    0x400 0x7777777777772110) 0x408 0x7777777777777777
theorem test_scmac : let o := exec (.scmac .x 8 10 11 2 false) (scmacState 3)
    (vlane o 32 0, vlane o 32 1, fl o) = (0x7FFFFFFF, 147556, 32) := by decide
theorem test_scmac_128 : fl (exec (.scmac .x 8 10 11 3 false) (scmacState 0x80)) = 32 := by decide
/-- R173, R175: vector and mask memory in the own TCM. -/
def vm (t : Thread) : State := withTcm (at0 { t with m := [0, 3, 0, 0, 0, 5, 6, 0] }) 0x100 0xFEDCBA98765432F0
theorem test_vld : let o := exec (.vld .h 1 10 1 false) (vm (full [(10, 0x100)]))
    (v16 o 0, v16 o 1, (last o).map fun e => e.vw.map fun x => x.bits) = (0x32F0, 0x7654, some [0xFFFFFFFF]) := by decide
theorem test_vlds : v16 (exec (.vlds .h 1 10 11 1 false) (vm (full [(10, 0x106), (11, -2)]))) 1 = 0xBA98 := by decide
theorem test_vldx : v16 (exec (.vldx .h 1 10 2 1 false) (vm (fullV [(10, 0x100)] [(2, lanes16 [3, 2])]))) 0 = 0xFEDC := by decide
theorem test_vldb : v16 (exec (.vldb .h 1 10 1 false) (vm (full [(10, 0x102)]))) 1 = 0x7654 := by decide
theorem test_vst : readBack (walked (.vst .h 2 10 1 true) (vm (fullV [(10, 0x100)] [(2, lanes16 [1, 2, 3])]))) = 0xFEDCBA9800020001 := by decide
theorem test_vsts : readBack (walked (.vsts .h 2 10 11 1 true) (vm (fullV [(10, 0x102), (11, 0)] [(2, lanes16 [1, 2])]))) = 0xFEDCBA98000232F0 := by decide
theorem test_vstx : readBack (walked (.vstx .h 2 10 3 1 true) (vm (fullV [(10, 0x100)] [(2, lanes16 [1, 2]), (3, lanes16 [3, 0])]))) = 0x1BA9876540002 := by decide
theorem test_mldm : cmpOf (exec (.mldm 4 10 false) (vm (full [(10, 0x104)]))) = some [⟨4, 0xFFFFFFFF, 0xFEDCBA98⟩] := by decide
theorem test_mstm : readBack (walked (.mstm 5 10 true) (vm (full [(10, 0x104)]))) = 0x5765432F0 := by decide
theorem test_mand : cmpOf (exec (.mand 4 5 6 false) (vm (full []))) = some [⟨4, 0xFFFFFFFF, 4⟩] := by decide
theorem test_mor : cmpOf (exec (.mor 4 5 6 false) (vm (full []))) = some [⟨4, 0xFFFFFFFF, 7⟩] := by decide
theorem test_mxor : cmpOf (exec (.mxor 4 5 6 false) (vm (full []))) = some [⟨4, 0xFFFFFFFF, 3⟩] := by decide
theorem test_mnot_m0 : cmpOf (exec (.mnot 4 0 false) (vm (full []))) = some [⟨4, 0xFFFFFFFF, 0⟩] := by decide
theorem test_mset : cmpOf (exec (.mset 4 10 false) (vm (full [(10, 0x1_0000_0007)]))) = some [⟨4, 0xFFFFFFFF, 7⟩] := by decide
theorem test_mpopc : xw (exec (.mpopc 6 0 false) (vm (full []))) = [⟨6, 32, false⟩] := by decide
theorem test_mfirst : xw (exec (.mfirst 6 7 false) (vm (full []))) = [⟨6, 32, false⟩] := by decide
/-- R176, R177: the descriptor of the example after R182, bound to v24. -/
def streamState : State :=
  withTcm (withTcm (withTcm (withTcm (at0 (full [(12, 0x200)])) 0x208 0x1000) 0x218 2) 0x220 0x100000014) 0x230 0x8000000000002710
theorem test_sbind : ((thr0 (walked (.sbind .h 0 12 true) streamState)).bind fun t => (t.streams.getD 0 none).map fun x =>
    (x.base, x.s1, x.n1, x.n2, x.dl, x.pos)) = some (0x1000, 2, 20, 1, 0x8000000000002710, 0) := by decide
theorem test_sbind_misaligned : ((thr0 (walked (.sbind .h 0 12 true) (streamState.updThr 0 fun t => { t with x := t.x.set 12 0x208, level := 1 }))).map
    fun t => (t.bank1.cause, t.bank1.val)) = some (17, 0x208) := by decide
theorem test_sunb_unbound : ((thr0 (walked (.sunb 3 true) streamState)).map fun t => t.block) = some [] := by decide
theorem test_sstat_unbound : xOf (walked (.sstat 6 3 true) (at0 (full [(6, 9)]))) 6 = 0 := by decide
/-- R212: an address that is no inbox window gives REFUSED, detail 9. -/
theorem test_qpush : xOf (walked (.qpush 5 6 8 7 true) (at0 (full [(6, 0x100)]))) 5 = 0x90B := by decide

/-! ## States that meet the hypotheses of the statements

One theorem for each case of a statement: the hypotheses hold together, of operands given in it. -/

/-- What `Issuing` asks beside the thread that stands in the current slot. -/
def issuable (s : State) (t : Thread) (i : Instr) (f : Form) : Bool :=
  t.run == .ready && !t.shed && t.issueTrap i f == none && t.emptyRead f.reads == none && s.followAsk t i == none &&
    s.followNow t == none && (!readsTcm i || s.detGate t.ctx t.detKey) &&
    s.popBlocked t (t.popList f.vreads) == none && t.popFault (t.popList f.vreads) == none
theorem issuing {s : State} {t : Thread} {i : Instr} {f : Form} (here : s.current = some (0, t))
    (h : issuable s t i f = true) : Issuing s 0 t i f := by
  simp only [issuable, Bool.and_eq_true, Bool.or_eq_true, beq_iff_eq, Bool.not_eq_true'] at h
  obtain ⟨⟨⟨⟨⟨⟨⟨⟨a, b⟩, c⟩, d⟩, e⟩, k⟩, l⟩, f⟩, g⟩ := h
  exact ⟨here, a, b, c, d, k, e, fun r => l.resolve_left (by rw [r]; decide), f, g⟩

/-- A thread with some registers, and one with vectors as well. -/
def wT : Thread := fullV [(5, 5), (6, 0x100), (7, 3), (11, 0x2001000)] [(2, lanes16 [1, 2]), (3, lanes16 [3, 4])]
/-- A state whose TCM holds a doubleword at 0x100. -/
def wS : State := withTcm (at0 wT) 0x100 7
theorem wS_here : wS.current = some (0, wT) := rfl

theorem witness_DecodeOfEncode : (Instr.add 2 3 3 false).wf = true ∧ encode (.add 2 3 3 false) = some 0x00318133 := by decide
theorem witness_EncodeOfDecode : decode 0x00318133 = some (.add 2 3 3 false) := by decide

/-- The state after reset with a word placed: core 0's turn is due. -/
def placed0 : State := State.reset.withFetchWord 32 0x00500513
theorem witness_StepRunsDecoded : ∃ (t : Thread),
    let s0 := placed0.turned fetchTurn []
    let s1 : State := { (s0.wake 0).noteWin 0 (0, true) with cur := (0, 0) }
    placed0.agenda = [fetchTurn] ∧ s0.stalled = false ∧ s0.issuedIn 0 = none ∧ s0.withholds 0 = false ∧ s0.pickSlot 0 = some (0, true) ∧
      s1.current = some (0, t) ∧ s1.breaks t = false ∧ s1.fetch t = .ok 0x00500513 ∧
      decode 0x00500513 = some (.addi 10 0 5 false) :=
  ⟨_, rfl, by decide, by decide, by decide, by decide, rfl, by decide, by rfl, by decide⟩
/-- A walk's turn. -/
def walkTurn : Turn := ⟨0, 0, .walk 0 0, 0⟩
def walkState : State := { atWalk (.exit 5 false) wS with agenda := [walkTurn] }
theorem witness_StepRunsTurns_walk : ∃ (t : Thread) (e : Entry), let s0 := walkState.turned walkTurn []
    walkState.agenda = [walkTurn] ∧ walkState.power.trip = false ∧ s0.inSlot 0 0 = some (0, t) ∧ t.run = .block ∧ t.walking = true ∧ t.block = [e] ∧
      e.st = .done ∧ e.deferred = true ∧ e.phase = .fresh := ⟨_, _, rfl, rfl, rfl, rfl, rfl, rfl, rfl, rfl, rfl⟩
theorem witness_StepRunsTurns_event : let s : State := { wS with agenda := [⟨0, 0, .event .reportPost, 0⟩] }
    s.agenda = [⟨0, 0, .event .reportPost, 0⟩] ∧ encode .reportPost = none := ⟨rfl, rfl⟩
theorem witness_FirstWordRuns : decode 0x00500513 = some (.addi 10 0 5 false) := by decide
theorem witness_MemoryStaysCanonical : MemoryCanonical wS ∧ wS.mem ≠ [] := ⟨by unfold MemoryCanonical; decide, by decide⟩
theorem witness_WriteThenRead : MemoryCanonical wS ∧ 0x100 < 0x108 ∧ 0x108 + 8 ≤ 0x110 := ⟨by unfold MemoryCanonical; decide, by decide⟩

theorem witness_ShortResultsIssue :
    ShortResult wT.pc wT.readX (.add 8 5 6 false) [5, 6] 8 false 0x105 ∧
      Issuing wS 0 wT (.add 8 5 6 false) (scalarForm [5, 6] [8] false) :=
  ⟨(.add 8 5 6 false : ShortResult wT.pc wT.readX _ _ _ _ (wT.readX 5 + wT.readX 6)), issuing wS_here (by decide)⟩
theorem witness_ShortResultsIssue_clz : ∃ v : Word, ShortResult wT.pc wT.readX (.clz 8 5 false) [5] 8 false v ∧ v = 61 ∧
      Issuing wS 0 wT (.clz 8 5 false) (scalarForm [5] [8] false) := by
  refine ⟨_, .clz 8 5 false 61 (by decide) (fun i h => ?_) (by decide), by decide, issuing wS_here (by decide)⟩
  have h5 : wT.readX 5 = 5 := by decide
  rw [h5]
  by_cases hi : i < 64
  · have : ∀ i, i < 64 → 3 ≤ i → (5 : Word).getLsbD i = false := by decide
    exact this i hi (by omega)
  · exact BitVec.getLsbD_of_ge _ _ (by omega)
theorem witness_LongResultsIssue :
    LongResult wT.readX (.div 8 5 0 false) [5, 0] 8 false (-1) 2 ∧
      Issuing wS 0 wT (.div 8 5 0 false) (scalarForm [5, 0] [8] false) :=
  ⟨(.div 8 5 0 false : LongResult wT.readX _ _ _ _ (if wT.readX 0 = 0 then -1 else _) (if wT.readX 0 = 0 then 2 else 0)),
    issuing wS_here (by decide)⟩

/-- Taken, not taken, and a target that is no multiple of 4. -/
theorem witness_ControlFlowIssue_branch :
    Branch wT.readX (.blt 5 6 2 false) 5 6 2 false ((wT.readX 5).toInt < (wT.readX 6).toInt) ∧
      Issuing wS 0 wT (.blt 5 6 2 false) (scalarForm [5, 6] [] false) ∧ (wT.readX 5).toInt < (wT.readX 6).toInt :=
  ⟨.blt .., issuing wS_here (by decide), by decide⟩
theorem witness_ControlFlowIssue_notTaken :
    Branch wT.readX (.beq 5 6 2 false) 5 6 2 false (wT.readX 5 = wT.readX 6) ∧
      Issuing wS 0 wT (.beq 5 6 2 false) (scalarForm [5, 6] [] false) ∧ wT.readX 5 ≠ wT.readX 6 :=
  ⟨.beq .., issuing wS_here (by decide), by decide⟩
theorem witness_ControlFlowIssue_targets : (wT.pc + BitVec.ofInt 64 (2 * (2 : BitVec 12).toInt)).getLsbD 1 = false ∧
    (wT.pc + BitVec.ofInt 64 (2 * (3 : BitVec 12).toInt)).getLsbD 1 = true := by decide
theorem witness_ControlFlowIssue_jalr : Issuing wS 0 wT (.jalr 1 11 4 false) (scalarForm [11] [1] false) ∧
    ((wT.readX 11 + BitVec.ofInt 64 (4 : BitVec 12).toInt) &&& ~~~1).getLsbD 1 = false ∧
    ((wT.readX 11 + BitVec.ofInt 64 (2 : BitVec 12).toInt) &&& ~~~1).getLsbD 1 = true :=
  ⟨issuing wS_here (by decide), by decide⟩

theorem witness_LoadsIssue_own : ScalarLoad (.lw 8 6 0 false) 8 6 0 false 4 true ∧
    Issuing wS 0 wT (.lw 8 6 0 false) (scalarForm [6] [8] false) ∧ wT.address 6 0 % 4 = 0 ∧
    (wT.block.any fun b => b.deferred && !walkApplied b.ins) = false ∧
    wS.ownWindow wT.accessor (wT.address 6 0) 4 = some (.ok (tcmLoc 0 0x100)) ∧ isReg (tcmLoc 0 0x100) = false ∧
    wS.bad (tcmLoc 0 0x100) 4 = false ∧ wS.det wT.ctx = false ∧
    wS.loadAhead wT wT.block { wS.entry wT (.lw 8 6 0 false) with loads := [⟨1, wT.address 6 0, 4, none, none⟩], post := .x 8 4 true } = false :=
  ⟨.lw .., issuing wS_here (by decide), by decide, by decide, rfl, by decide, by decide, by decide, by decide⟩
theorem witness_LoadsIssue_misaligned : ScalarLoad (.lw 8 6 1 false) 8 6 1 false 4 true ∧
    Issuing wS 0 wT (.lw 8 6 1 false) (scalarForm [6] [8] false) ∧ wT.address 6 1 % 4 ≠ 0 :=
  ⟨.lw .., issuing wS_here (by decide), by decide⟩
/-- The first address past the TCM window. -/
theorem witness_LoadsIssue_error : let t := { wT with x := wT.x.set 7 0x20000 }
    ∃ x, Issuing (at0 t) 0 t (.lw 8 7 0 false) (scalarForm [7] [8] false) ∧ t.address 7 0 % 4 = 0 ∧
      (at0 t).ownWindow t.accessor (t.address 7 0) 4 = some (.error x) := ⟨_, issuing rfl (by decide), by decide, rfl⟩
theorem witness_LoadsIssue_sent : ScalarLoad (.lw 8 7 0 false) 8 7 0 false 4 true ∧
    (let t := { wT with x := wT.x.set 7 0x80000000 }
     Issuing (at0 t) 0 t (.lw 8 7 0 false) (scalarForm [7] [8] false) ∧ t.address 7 0 % 4 = 0 ∧
      (at0 t).ownWindow t.accessor (t.address 7 0) 4 = none) := ⟨.lw .., issuing rfl (by decide), by decide⟩
/-- A thread whose block holds a deferred instruction. -/
def wBehind : State := after (exec (.exit 5 false) wS)
theorem witness_LoadsIssue_behind : ∃ t, Issuing wBehind 0 t (.lw 8 6 0 false) (scalarForm [6] [8] false) ∧
    t.address 6 0 % 4 = 0 ∧ (t.block.any fun b => b.deferred && !walkApplied b.ins) = true :=
  ⟨_, issuing rfl (by decide), by decide⟩

/-- The last bytes of the TCM window take a store; the first past it do not. -/
theorem witness_StoresIssue : let t := { wT with x := wT.x.set 7 0x1FFF8 }
    ScalarStore (.sd 5 7 0 false) 5 7 0 false 8 ∧ Issuing (at0 t) 0 t (.sd 5 7 0 false) (scalarForm [7, 5] [] false) ∧
      t.address 7 0 % 8 = 0 ∧ ∀ x, (at0 t).ownWindow t.accessor (t.address 7 0) 8 ≠ some (.error x) :=
  ⟨.sd .., issuing rfl (by decide), by decide, fun _ h => by cases (show some (Except.ok (tcmLoc 0 0x1FFF8)) = _ from h)⟩
theorem witness_StoresIssue_error : let t := { wT with x := wT.x.set 7 0x1FFF8 }
    ∃ x, Issuing (at0 t) 0 t (.sd 5 7 8 false) (scalarForm [7, 5] [] false) ∧
      t.address 7 8 % 8 = 0 ∧ (at0 t).ownWindow t.accessor (t.address 7 8) 8 = some (.error x) :=
  ⟨_, issuing rfl (by decide), by decide, rfl⟩
theorem witness_StoresIssue_misaligned : Issuing wS 0 wT (.sd 5 6 4 false) (scalarForm [6, 5] [] false) ∧
    wT.address 6 4 % 8 ≠ 0 := ⟨issuing wS_here (by decide), by decide⟩

theorem witness_CsrIssue : CsrForm wT.readX (.csrrs 8 0xC01 0 false) 8 0xC01 false [0] true none ∧
    Issuing wS 0 wT (.csrrs 8 0xC01 0 false) (scalarForm [0] [8] false) :=
  ⟨(.rs 8 0xC01 0 false), issuing wS_here (by decide)⟩
theorem witness_CsrIssue_write : CsrForm wT.readX (.csrrw 0 0x001 5 false) 0 0x001 false [5] (0 != 0) (some (.write (wT.readX 5))) ∧
    Issuing wS 0 wT (.csrrw 0 0x001 5 false) (scalarForm [5] [0] false) := ⟨.rw .., issuing wS_here (by decide)⟩

theorem witness_DeferredIssue : Deferred (.cwait 8 5 6 7 false) (waitForm [5, 6, 7] [8, nextReg 8] false) [5, 6, 7] ∧
    Issuing wS 0 wT (.cwait 8 5 6 7 false) (waitForm [5, 6, 7] [8, nextReg 8] false) :=
  ⟨.cwait .., issuing wS_here (by decide)⟩
theorem witness_DeferredIssue_command : Deferred (.copy1 8 5 6 false) (waitForm [5, 6] [8] false) [5, 6] ∧
    Issuing wS 0 wT (.copy1 8 5 6 false) (waitForm [5, 6] [8] false) :=
  ⟨.command _ _ _ _ _ _ _ _ (.copy1 ..), issuing wS_here (by decide)⟩
theorem witness_DeferredIssue_sdstep : Issuing wS 0 wT (.sdstep 2 5 false) { vectorForm [5] [] [2] [] false with deferred := true } :=
  issuing wS_here (by decide)
theorem witness_DeferredIssue_qpush :
    Issuing wS 0 wT (.qpush 8 5 2 6 false) { waitForm [5, 6] [8] false with light := false, vreads := [2, nextReg 2] } :=
  issuing wS_here (by decide)

/-- A light thread, a user thread, a supervisor thread, and one with an empty register. -/
def wL : Thread := lightT []
def wU : Thread := { wT with sup := false }
def wE : Thread := { wT with empty := wT.empty.set 6 (some 9) }
theorem witness_IssueStops_light : (at0 wL).current = some (0, wL) ∧ wL.run = .ready ∧ wL.shed = false ∧ wL.light = true ∧
    16 ≤ (16 : Reg).toNat := ⟨rfl, rfl, rfl, rfl, by decide⟩
theorem witness_IssueStops_user : (at0 wU).current = some (0, wU) ∧ wU.run = .ready ∧ wU.shed = false ∧ wU.sup = false ∧
    wU.light = false ∧ csrClass 0x7FF = none := ⟨rfl, rfl, rfl, rfl, rfl, by decide⟩
theorem witness_IssueStops_level0 : wS.current = some (0, wT) ∧ wT.sup = true ∧ wT.level = 0 := ⟨rfl, rfl, rfl⟩
theorem witness_IssueStops_empty : (at0 wE).current = some (0, wE) ∧ wE.run = .ready ∧ wE.shed = false ∧
    wE.issueTrap (.add 8 5 6 false) (scalarForm [5, 6] [8] false) = none ∧ wE.emptyRead [5, 6] = some 6 :=
  ⟨rfl, rfl, rfl, by decide, by decide⟩
theorem witness_IssueFrame : (encode (.add 8 5 6 false)).isSome = true ∧ wS.current = some (0, wT) ∧ wS.thr 0 = some wT ∧
    wT.run = .ready ∧ ∃ s', exec (.add 8 5 6 false) wS = .next s' := ⟨by decide, rfl, rfl, rfl, _, rfl⟩

theorem witness_PostedIssue : FarAtomic (.aadd .g 0 6 5 false) 0 0 6 5 false ∧
    Issuing wS 0 wT (.aadd .g 0 6 5 false) (deferredForm [6, 5] [] false) ∧ (wT.readX 6).toNat % 8 = 0 ∧
    ∀ x, wS.ownWindow wT.accessor (wT.readX 6).toNat 8 ≠ some (.error x) :=
  ⟨.aadd .., issuing wS_here (by decide), by decide, fun _ h => by cases (show some (Except.ok (tcmLoc 0 0x100)) = _ from h)⟩
theorem witness_PostedIssue_misaligned : Issuing wS 0 wT (.stl .g 5 6 false) (deferredForm [5, 6] [] false) ∧
    (wT.readX 5).toNat % 8 ≠ 0 := ⟨issuing wS_here (by decide), by decide⟩
theorem witness_PostedIssue_error : let t := { wT with x := wT.x.set 7 0x20000 }
    ∃ x, Issuing (at0 t) 0 t (.cadd .d 0 7 6 false) (deferredForm [7, 6] [] false) ∧ (t.readX 7).toNat % 8 = 0 ∧
      (at0 t).ownWindow t.accessor (t.readX 7).toNat 8 = some (.error x) := ⟨_, issuing rfl (by decide), by decide, rfl⟩

theorem witness_LaneWiseIssue : LaneWise (.vadd .h 1 2 3 0 false) .h 1 2 3 0 false (laneAdd .h false) ∧
    Issuing wS 0 wT (.vadd .h 1 2 3 0 false) (vectorForm [] [] [2, 3] [1] false) := ⟨.vadd .., issuing wS_here (by decide)⟩
theorem witness_LaneOpsIssue :
    Issuing wS 0 wT (.vmadd .h 1 2 3 0 false) (vectorForm [] [] [2, 3, 1] [1] false) ∧
    Issuing wS 0 wT (.vdot 1 2 3 0 false) (vectorForm [] [] [2, 3, 1] [1] false) ∧
    Issuing wS 0 wT (.vabs .h 1 2 0 false) (vectorForm [] [] [2] [1] false) ∧
    Issuing wS 0 wT (.vperm .h 1 2 3 0 false) (vectorForm [] [] [2, 3] [1] false) ∧
    Issuing wS 0 wT (.vsel .h 1 2 3 0 false) (vectorForm [] [] [2, 3] [1] false) ∧
    Issuing wS 0 wT (.vsplat .h 1 5 0 false) (vectorForm [5] [] [] [1] false) ∧
    Issuing wS 0 wT (.vins .h 1 5 15 false) (vectorForm [5] [] [] [1] false) ∧
    Issuing wS 0 wT (.vext .h 8 2 15 false) (vectorForm [] [8] [2] [] false) :=
  ⟨issuing wS_here (by decide), issuing wS_here (by decide), issuing wS_here (by decide), issuing wS_here (by decide),
    issuing wS_here (by decide), issuing wS_here (by decide), issuing wS_here (by decide), issuing wS_here (by decide)⟩
theorem witness_MaskResultsIssue : LaneCompare (.vcmplt .h 1 2 3 0 false) .h 1 2 3 0 false 1 ∧
    Issuing wS 0 wT (.vcmplt .h 1 2 3 0 false) (vectorForm [] [] [2, 3] [] false) ∧
    Issuing wS 0 wT (.mset 1 5 false) (vectorForm [5] [] [] [] false) ∧
    Issuing wS 0 wT (.mpopc 8 0 false) (vectorForm [] [8] [] [] false) ∧
    Issuing wS 0 wT (.mfirst 8 0 false) (vectorForm [] [8] [] [] false) ∧
    (0 ≤ 32 ∧ (∀ k, k < 0 → (wT.mr 0).getLsbD k = false) ∧ (0 < 32 → (wT.mr 0).getLsbD 0 = true)) :=
  ⟨.vcmplt .., issuing wS_here (by decide), issuing wS_here (by decide), issuing wS_here (by decide), issuing wS_here (by decide),
    by decide⟩
/-- A mask with no bit set. -/
theorem witness_MaskResultsIssue_none : (32 ≤ 32 ∧ (∀ k, k < 32 → (wT.mr 1).getLsbD k = false) ∧
    (32 < 32 → (wT.mr 1).getLsbD 32 = true)) := by decide
theorem witness_ConvertAndReduceIssue :
    (cvtShape .w .f = some .same ∧ Issuing wS 0 wT (.vcvt .w .f .rne 2 4 0 false) (vectorForm [] [] [4] [2] false)) ∧
    (cvtShape .hf .f = some .widen ∧ Issuing wS 0 wT (.vcvt .hf .f .rne 2 4 0 false) (vectorForm [] [] [4] [2, nextReg 2] false)) ∧
    (cvtShape .f .hf = some .narrow ∧ Issuing wS 0 wT (.vcvt .f .hf .rne 2 4 0 false) (vectorForm [] [] [4, nextReg 4] [2] false)) ∧
    Issuing wS 0 wT (.vwid .h 2 4 0 false) (vectorForm [] [] [4] [2, nextReg 2] false) ∧
    Issuing wS 0 wT (.vnrw .h .rne 2 4 0 false) (vectorForm [] [] [4, nextReg 4] [2] false) :=
  ⟨⟨by decide, issuing wS_here (by decide)⟩, ⟨by decide, issuing wS_here (by decide)⟩, ⟨by decide, issuing wS_here (by decide)⟩,
    issuing wS_here (by decide), issuing wS_here (by decide)⟩
theorem witness_ConvertAndReduceIssue_reduce :
    Issuing wS 0 wT (.vrsum .h 2 4 0 false) (vectorForm [] [] [4] [2] false) ∧
    Issuing wS 0 wT (.vrmax .h 2 4 0 false) (vectorForm [] [] [4] [2] false) ∧
    Issuing wS 0 wT (.vrmin .h 2 4 0 false) (vectorForm [] [] [4] [2] false) ∧
    Issuing wS 0 wT (.vpopc .x 2 4 0 false) (vectorForm [] [] [4] [2] false) :=
  ⟨issuing wS_here (by decide), issuing wS_here (by decide), issuing wS_here (by decide), issuing wS_here (by decide)⟩

theorem okOf {α : Type} {x : Except Trap α} {n : α} (h : x.toOption = some n) : x = .ok n := by
  cases x <;> simp_all [Except.toOption]
/-- A mask that chooses no lane, and one that chooses lane 0, whose table entry is read. -/
def wM : Thread := { wT with lutb := 0x200, m := [0, 0, 1, 0, 0, 0, 0, 0], x := wT.x.set 8 3 }
theorem witness_TableOpsIssue_vlut : Issuing (at0 wM) 0 wM (.vlut .hf 1 2 2 false) (vectorForm [] [] [2] [1] false) ∧
    (at0 wM).tcmAtIssue wM [] (fieldOf wM.lutb 9 8 * 512 + 8 * lutSegment (sextNat (fieldOf wM.lutb 24 8) 8)
      ((fmtOf .hf).val (laneOf (wM.readV 2) 16 0))) 8 = .ok 0 ∧ ∀ k, k < 16 → (wM.mr 2).getLsbD k = true → k = 0 :=
  ⟨issuing rfl (by decide), okOf (by decide), by decide⟩
theorem witness_TableOpsIssue_scmac : Issuing (at0 wM) 0 wM (.scmac .b 4 6 8 2 false) (vectorForm [6, 8] [] [4, nextReg 4] [4, nextReg 4] false) ∧
    (at0 wM).columnFault wM (wM.readX 6).toNat 1 = none ∧ (at0 wM).tcmAtIssue wM [] (wM.readX 6).toNat 1 = .ok 0 :=
  ⟨issuing rfl (by decide), by decide, okOf (by decide)⟩
theorem witness_TableOpsIssue_fault : ∃ x, Issuing (at0 wM) 0 wM (.scmac .h 4 8 6 2 false) (vectorForm [8, 6] [] [4, nextReg 4] [4, nextReg 4] false) ∧
    wM.popList [4, nextReg 4] = [] ∧ (at0 wM).columnFault wM (wM.readX 8).toNat 2 = some x := ⟨_, issuing rfl (by decide), by decide, rfl⟩
theorem errOf {α : Type} {x : Except Trap α} (h : x.toOption = none) : ∃ y, x = .error y := by
  cases x with
  | error y => exact ⟨y, rfl⟩
  | ok _ => cases h
/-- Lines of the TCM whose check values fail: the table's, and that of the column. -/
def poisoned (t : Thread) : State :=
  { at0 t with poison := (tcmLoc 0 0x100 / 64) :: (List.range 8).map fun n => tcmLoc 0 0x200 / 64 + n }
theorem witness_TableOpsIssue_unreadable : Issuing (poisoned wM) 0 wM (.vlut .hf 1 2 2 false) (vectorForm [] [] [2] [1] false) ∧
    wM.popList [2] = [] ∧ (wM.mr 2).getLsbD 0 = true ∧ ((fmtOf .hf).val (laneOf (wM.readV 2) 16 0)).isNan = false ∧
    (∃ x, (poisoned wM).tcmAtIssue wM [] (fieldOf wM.lutb 9 8 * 512 + 8 * lutSegment (sextNat (fieldOf wM.lutb 24 8) 8)
      ((fmtOf .hf).val (laneOf (wM.readV 2) 16 0))) 8 = .error x) ∧
    Issuing (poisoned wM) 0 wM (.scmac .b 4 6 8 2 false) (vectorForm [6, 8] [] [4, nextReg 4] [4, nextReg 4] false) ∧
    (poisoned wM).columnFault wM (wM.readX 6).toNat 1 = none ∧
    ∃ x, (poisoned wM).tcmAtIssue wM [] (wM.readX 6).toNat 1 = .error x :=
  ⟨issuing rfl (by decide), by decide, by decide, by decide, errOf (by decide), issuing rfl (by decide), by decide, errOf (by decide)⟩

/-- A misaligned element; a load behind a deferred instruction; an element whose line fails; one past the TCM. -/
theorem witness_VectorMemoryIssue_faults (a : Word) (h : a = 0x101 ∨ a = 0x20000) : let t := { wM with x := wM.x.set 6 a }
    Issuing (at0 t) 0 t (.vldb .w 1 6 2 false) (vectorForm [6] [] [] [1] false) ∧
    Issuing (at0 t) 0 t (.vst .w 2 6 2 false) (vectorForm [6] [] [2] [] false) ∧ chosen .w (t.mr 2) = [0] ∧
    t.popList [1] = [] ∧ t.popList [2] = [] ∧
    (if a = 0x101 then (t.readX 6).toNat % 4 ≠ 0
      else (t.readX 6).toNat % 4 = 0 ∧ ∃ y, (at0 t).ownWindow t.accessor (t.readX 6).toNat 4 = some (.error y)) := by
  rcases h with rfl | rfl
  · exact ⟨issuing rfl (by decide), issuing rfl (by decide), by decide, by decide, by decide, by rw [if_pos rfl]; decide⟩
  · exact ⟨issuing rfl (by decide), issuing rfl (by decide), by decide, by decide, by decide, by
      rw [if_neg (by decide)]
      exact ⟨by decide, _, rfl⟩⟩
theorem witness_VectorMemoryIssue_fails : let s := poisoned wM
    Issuing s 0 wM (.vldb .w 1 6 2 false) (vectorForm [6] [] [] [1] false) ∧
    s.ownWindow wM.accessor (wM.readX 6).toNat 4 = some (.ok (tcmLoc 0 0x100)) ∧ isReg (tcmLoc 0 0x100) = false ∧
    s.bad (tcmLoc 0 0x100) 4 = true ∧ coveredBy [] (tcmLoc 0 0x100) 4 = false :=
  ⟨issuing rfl (by decide), rfl, by decide, by decide, by decide⟩
theorem witness_VectorMemoryIssue_behind : let t : Thread := { wM with
      block := [{ Entry.blank (.lda .v 8 6 false) 0x1FFFFFC 0 with deferred := true }] }
    Issuing (at0 t) 0 t (.vldb .w 1 6 2 false) (vectorForm [6] [] [] [1] false) ∧
    (t.block.any fun b => b.deferred && !walkApplied b.ins) = true ∧ (t.readX 6).toNat % 4 = 0 :=
  ⟨issuing rfl (by decide), by decide, by decide⟩
theorem witness_VectorMemoryIssue_own : VectorLoad wM (.vld .w 1 6 2 false) .w 1 [6] [] false [(1, wM.readX 6)] ∧
    Issuing (at0 wM) 0 wM (.vld .w 1 6 2 false) (vectorForm [6] [] [] [1] false) ∧ (wM.readX 6).toNat % 4 = 0 ∧
    (at0 wM).ownWindow wM.accessor (wM.readX 6).toNat 4 = some (.ok (tcmLoc 0 0x100)) ∧
    isReg (tcmLoc 0 0x100) = false ∧ (at0 wM).bad (tcmLoc 0 0x100) 4 = false :=
  ⟨.vld .., issuing rfl (by decide), by decide, rfl, by decide, by decide⟩
/-- VLDB with one of the lanes' mask bits set, the last, and with none: a mask bit beyond the lanes does not count. -/
theorem witness_VectorMemoryIssue_vldb : let t : Thread := { wM with m := [0, 0, 0x80, 0x100, 0, 0, 0, 0] }
    VectorLoad t (.vldb .w 1 6 2 false) .w 1 [6] [] false [(0x80, t.readX 6)] ∧ VectorLoad t (.vldb .w 1 6 3 false) .w 1 [6] [] false [] ∧
    Issuing (at0 t) 0 t (.vldb .w 1 6 2 false) (vectorForm [6] [] [] [1] false) ∧
    Issuing (at0 t) 0 t (.vldb .w 1 6 3 false) (vectorForm [6] [] [] [1] false) :=
  ⟨.vldb _ _ _ _ _ ⟨7, by decide, by decide⟩, .vldbNone _ _ _ _ _ (by decide), issuing rfl (by decide), issuing rfl (by decide)⟩
theorem witness_VectorMemoryIssue_sent : let t := { wM with x := wM.x.set 6 0x80000000 }
    Issuing (at0 t) 0 t (.vldb .w 1 6 2 false) (vectorForm [6] [] [] [1] false) ∧ 0 ∈ chosen .w (t.mr 2) ∧
    (at0 t).ownWindow t.accessor (t.readX 6).toNat 4 = none := ⟨issuing rfl (by decide), by decide, by decide⟩
theorem witness_VectorMemoryIssue_mldm : let t := { wM with x := wM.x.set 6 0x80000000 }
    Issuing (at0 t) 0 t (.mldm 3 6 false) (vectorForm [6] [] [] [] false) ∧ (t.readX 6).toNat % 4 = 0 ∧
    (at0 t).ownWindow t.accessor (t.readX 6).toNat 4 = none := ⟨issuing rfl (by decide), by decide, by decide⟩
theorem witness_VectorMemoryIssue_store : VectorStore wM (.vst .w 2 6 2 false) .w 2 [6] [] 2 false (fun n => wM.readX 6 + w64 (n * 4)) ∧
    Issuing (at0 wM) 0 wM (.vst .w 2 6 2 false) (vectorForm [6] [] [2] [] false) ∧ chosen .w (wM.mr 2) = [0] ∧
    Issuing (at0 wM) 0 wM (.mstm 2 6 false) (vectorForm [6] [] [] [] false) ∧ (wM.readX 6).toNat % 4 = 0 ∧
    ∀ x, (at0 wM).ownWindow wM.accessor (wM.readX 6).toNat 4 ≠ some (.error x) :=
  ⟨.vst .., issuing rfl (by decide), by decide, issuing rfl (by decide), by decide,
    fun _ h => by cases (show some (Except.ok (tcmLoc 0 0x100)) = _ from h)⟩
/-- The least and the greatest values of a type. -/
theorem witness_IntegerLanes : 0x80 < 2 ^ widthOf .b ∧ 0x7F < 2 ^ widthOf .b ∧ 0xFFFF < 2 ^ widthOf .hu ∧ 0xFFFFFFFF < 2 ^ widthOf .w := by
  decide
/-- Of .hf: 1 and 1.5, the infinities, the zeros, a quiet and a signalling NaN. -/
theorem witness_IntegerLanes_floats : let v := (fmtOf .hf).val
    v 0x3C00 = .fin false 1024 (-10) ∧ v 0x3E00 = .fin false 1536 (-10) ∧ v 0x7C00 = .inf false ∧ v 0xFC00 = .inf true ∧
      (∃ e, v 0 = .fin false 0 e) ∧ (∃ e, v 0x8000 = .fin true 0 e) ∧ (v 0x7E00).isNan = true ∧ (v 0x7E00).isSNan = false ∧
      (v 0x7C01).isSNan = true ∧ scaled false 1024 (-10) (-10) < scaled false 1536 (-10) (-10) :=
  ⟨by decide, by decide, by decide, by decide, ⟨_, rfl⟩, ⟨_, rfl⟩, by decide, by decide, by decide, by decide⟩
/-- 1.5 and 2.5 of two lie halfway, and go to the even neighbour. -/
theorem witness_IntegerLanes_round : (0 : Int) < 1 ∧ roundAt .rne false 3 0 1 = (2, true) ∧ roundAt .rne false 5 0 1 = (2, true) ∧
    roundAt .rne false 4 0 1 = (2, false) := by decide

/-! ### Retirement -/

/-- A block that an instruction with the marker has closed, before its walk starts. -/
def closed (i : Instr) : State := after (exec i wS)
theorem witness_RetireStartsAndEnds_start : ∃ t, (closed (.add 8 5 6 true)).inSlot 0 0 = some (0, t) ∧ t.run = .block ∧
    t.walking = false ∧ ∀ e ∈ t.block, e.st ≠ .sent := ⟨_, rfl, rfl, rfl, by decide⟩
theorem witness_RetireStartsAndEnds_waits : let s := closed (.lw 8 11 0 true)
    let s := s.updThr 0 fun t => { t with block := t.block.map fun e => { e with st := .sent } }
    ∃ t, s.inSlot 0 0 = some (0, t) ∧ t.run = .block ∧ t.walking = false ∧ ∃ e ∈ t.block, e.st = .sent :=
  ⟨_, rfl, rfl, rfl, _, List.mem_cons_self .., rfl⟩
theorem witness_RetireStartsAndEnds_ends : let t := { wT with run := .block, walking := true }
    (at0 t).inSlot 0 0 = some (0, t) ∧ t.run = .block ∧ t.walking = true ∧ t.block = [] ∧ t.escDue = none ∧
      (t.level = 0 → (((at0 t).vc 0).steps.getD t.slot 0).getLsbD 0 = false) ∧ t.vcore = 0 :=
  ⟨rfl, rfl, rfl, rfl, by decide, by decide, rfl⟩
theorem witness_RetireCommits : let s := atWalk (.add 8 5 6 true) wS
    ∃ t e, s.inSlot 0 0 = some (0, t) ∧ s.thr 0 = some t ∧ t.run = .block ∧ t.walking = true ∧ t.block = [e] ∧ e.st = .done ∧
      e.deferred = false ∧ e.stores = [] ∧ e.csr = none ∧ e.pops = [] ∧ e.app = [] ∧ e.xw = [⟨8, 0x105, true⟩] ∧ (8 : Reg) ≠ 0 ∧
      (8 : Reg).toNat < t.x.length :=
  ⟨_, _, rfl, rfl, rfl, rfl, rfl, rfl, rfl, rfl, rfl, rfl, rfl, by decide, by decide, by decide⟩
/-- A reply filled the register in the same ac: the write discards it and rdrop counts it (R71). -/
theorem witness_RetireCommits_filled : let s := (atWalk (.add 8 5 6 true) wS).updThr 0 fun t => { t with hwAc := wS.ac, hw := [.filled 8] }
    ∃ t e, s.inSlot 0 0 = some (0, t) ∧ t.block = [e] ∧ e.xw = [⟨8, 0x105, true⟩] ∧ .filled 8 ∈ t.hwNow s.ac ∧
      (thr0 (exec (.blockRetire 0 0) s)).map (fun t => (t.xr 8, t.rdrop)) = some (0x105, 1) :=
  ⟨_, _, rfl, rfl, rfl, by decide, by decide⟩
theorem witness_RetireCommits_vector : let s := atWalk (.vsplat .h 31 5 0 true) wS
    ∃ t e w, s.inSlot 0 0 = some (0, t) ∧ t.block = [e] ∧ e.st = .done ∧ e.deferred = false ∧ e.vw = [w] ∧ w.reg = 31 ∧
      w.reg.toNat < t.v.length := ⟨_, _, _, rfl, rfl, rfl, rfl, rfl, rfl, by decide⟩
theorem witness_RetireCommits_mask : let s := atWalk (.mset 7 5 true) wS
    ∃ t e w, s.inSlot 0 0 = some (0, t) ∧ t.block = [e] ∧ e.st = .done ∧ e.deferred = false ∧ e.mw = [w] ∧ w.reg = 7 ∧
      w.reg ≠ 0 ∧ w.reg.toNat < t.m.length := ⟨_, _, _, rfl, rfl, rfl, rfl, rfl, rfl, by decide, by decide⟩
theorem witness_RetireWritesCsr (n : BitVec 12) (h : n = 0x001 ∨ n = 0x100) : let s := atWalk (.csrrw 0 n 5 true) wS
    ∃ t e op, s.inSlot 0 0 = some (0, t) ∧ s.thr 0 = some t ∧ t.run = .block ∧ t.walking = true ∧ t.block = [e] ∧ e.st = .done ∧
      e.deferred = false ∧ e.stores = [] ∧ e.app = [] ∧ e.csr = some (n, op) ∧ n ≠ 0x007 ∧ e.flags = 0 := by
  rcases h with rfl | rfl <;>
    exact ⟨_, _, _, rfl, rfl, rfl, rfl, rfl, rfl, rfl, rfl, rfl, rfl, by decide, rfl⟩
/-- A kernel that runs. -/
def wK : Kernel := ⟨0, 0, .running, [], [], 0, 0, 0, 0, [], [], true, none, 0, 0⟩
/-- The walk stands at a misaligned store of a handler, and of a thread of kernel 3 at level 0. -/
def faulting (lvl : Nat) : State :=
  { (atWalk (.sd 5 6 4 true) (at0 { wT with level := lvl, kernel := some 3 })) with kernels := [(3, wK)] }
theorem witness_RetireTakesFault (lvl : Nat) (h : lvl = 0 ∨ lvl = 1) : let s := faulting lvl
    ∃ t e x, s.inSlot 0 0 = some (0, t) ∧ s.thr 0 = some t ∧ t.run = .block ∧ t.walking = true ∧ t.block = [e] ∧
      e.st = .faulted x ∧ 16 ≤ x.cause ∧ x.cause < 256 ∧ t.light = false ∧ t.level = lvl ∧ t.kernel = some 3 ∧ s.kern 3 = some wK := by
  rcases h with rfl | rfl <;>
    exact ⟨_, _, _, rfl, rfl, rfl, rfl, rfl, rfl, by decide, by decide, rfl, rfl, rfl, rfl⟩
theorem witness_RetireTakesFault_kernel : wK.status = none := rfl
/-- A light thread at a system call. -/
def lightFault : State := { at0 { lightT [] with
  run := .block, walking := true, block := [{ Entry.blank (.ecall true) 0x2000000 0 with st := .faulted ⟨6, 0, 0⟩ }] } with cur := (0, 4) }
theorem witness_RetireTakesFault_light : ∃ t e, lightFault.inSlot 0 4 = some (0, t) ∧ lightFault.thr 0 = some t ∧ t.run = .block ∧
    t.walking = true ∧ t.block = [e] ∧ e.st = .faulted ⟨6, 0, 0⟩ ∧ t.light = true ∧
    ((after (exec (.blockRetire 0 4) lightFault)).reportsDue.map fun r => (r.kind, r.cause)) = [(4, 6)] :=
  ⟨_, _, rfl, rfl, rfl, rfl, rfl, rfl, rfl, by decide⟩
theorem noDesc {s : State} (h : s.ctxs = []) (c n : Nat) : s.ctxWord c n = 0 := by rw [State.ctxWord, h]; rfl
theorem witness_RetireTakesFault_third : let s := faulting 2
    ∃ t e, s.inSlot 0 0 = some (0, t) ∧ s.thr 0 = some t ∧ t.run = .block ∧ t.walking = true ∧ t.block = [e] ∧
      e.st = .faulted ⟨17, 0, 0x104⟩ ∧ t.light = false ∧ t.level = 2 ∧ t.kernel = some 3 ∧ s.kern 3 = some wK ∧ wK.status = none ∧ MemoryCanonical s ∧
      (∀ c, fieldOf (s.ctxWord c 6) 0 48 = 0) ∧ s.locked (crashAddr 0) 64 = false ∧ s.storeBuf = [] ∧
      (let s' := after (exec (.blockRetire 0 0) s)
       (s'.read (crashAddr 0) 8, s'.threads.length, (s'.kern 3).map fun k => k.cause, (s'.vc 0).stubLost)) =
        ((recordHead 2 23 17 0 0 0).toNat, 0, some 23, true) :=
  ⟨_, _, rfl, rfl, rfl, rfl, rfl, by decide, rfl, rfl, rfl, rfl, rfl, by unfold MemoryCanonical; decide,
    fun c => by rw [noDesc (by decide)]; decide, by decide, rfl, by decide⟩
theorem witness_OneInstructionBlock : ShortResult wT.pc wT.readX (.add 8 5 6 true) [5, 6] 8 true 0x105 ∧ wS.cur = (0, 0) ∧
    wT.place = .slot 0 0 ∧ Issuing wS 0 wT (.add 8 5 6 true) (scalarForm [5, 6] [8] true) ∧ wT.block = [] ∧ wT.issued = 0 ∧
    (8 : Reg).toNat < wT.x.length ∧ wT.escDue = none ∧ .filled 8 ∉ wT.hwNow wS.ac ∧
    (wT.level = 0 → ((wS.vc 0).steps.getD 0 0).getLsbD 0 = false) :=
  ⟨(.add 8 5 6 true : ShortResult wT.pc wT.readX _ _ _ _ (wT.readX 5 + wT.readX 6)), rfl, rfl, issuing wS_here (by decide), rfl, rfl,
    by decide, by decide, by decide⟩
theorem witness_OneInstructionBlock_long : LongResult wT.readX (.mul 8 5 7 true) [5, 7] 8 true 15 0 ∧
    Issuing wS 0 wT (.mul 8 5 7 true) (scalarForm [5, 7] [8] true) :=
  ⟨(.mul 8 5 7 true : LongResult wT.readX _ _ _ _ (w64 ((wT.readX 5).toNat * (wT.readX 7).toNat)) 0), issuing wS_here (by decide)⟩
theorem witness_DeferredCommits : let s := atWalk (.lda .v 8 6 true) wS
    ∃ t e, s.thr 0 = some t ∧ t.block = [e] ∧ e.csr = none ∧ e.pops = [] ∧ e.app = [] ∧ e.vw = [] ∧ e.mw = [] ∧ e.flags = 0 ∧
      (8 : Reg) ≠ 0 ∧ (8 : Reg).toNat < t.x.length := ⟨_, _, rfl, rfl, rfl, rfl, rfl, rfl, rfl, rfl, by decide, by decide⟩

/-! ### The walk -/

theorem walking {s : State} {t : Thread} {i : Instr} {e : Entry} (here : s.current = some (0, t)) (known : s.thr 0 = some t)
    (walks : t.walksAt i = some e) (h : s.mayPerform t i = true) : Walking s 0 t i e := ⟨here, known, walks, h⟩

theorem witness_CallsTrap : ∃ t e, Walking (atWalk (.ecall true) wS) 0 t (.ecall true) e ∧ t.light = false ∧ t.level < 2 :=
  ⟨_, _, walking rfl rfl rfl (by decide), rfl, by decide⟩
theorem witness_CallsTrap_level1 : let s := at0 { wT with level := 1 }
    ∃ t e, Walking (atWalk (.ebreak true) s) 0 t (.ebreak true) e ∧ t.light = false ∧ t.level = 1 :=
  ⟨_, _, walking rfl rfl rfl (by decide), rfl, rfl⟩
/-- A return to user mode, and one to a pending wait. -/
theorem witness_XretReturns : let s := at0 { wT with level := 1 }
    ∃ t e, Walking (atWalk (.xret true) s) 0 t (.xret true) e ∧ t.escDue = none ∧ t.level = 1 ∧
      fieldOf t.bank0.stat 3 1 = 0 := ⟨_, _, walking rfl rfl rfl (by decide), by decide, rfl, by decide⟩
theorem witness_XretReturns_wait : let u : Suspended := ⟨0, ⟨.counter 0 0 1, 8, 9, false, false, none, 0⟩, []⟩
    let s := at0 { wT with level := 1, bank0 := ⟨0, 0, 0, 8⟩, susp := [u] }
    ∃ t e, Walking (atWalk (.xret true) s) 0 t (.xret true) e ∧ t.escDue = none ∧ t.level = 1 ∧
      fieldOf t.bank0.stat 3 1 = 1 ∧ (t.susp.find? fun u => u.level == fieldOf t.bank0.stat 1 2) = some u :=
  ⟨_, _, walking rfl rfl rfl (by decide), by decide, rfl, by decide, by decide⟩
theorem witness_StoresPerform : let s := atWalk (.sd 5 6 0 true) wS
    ∃ t e, Walking s 0 t (.sd 5 6 0 true) e ∧ e.Plain ∧ e.stores = [⟨0x100, 8, 5, .write⟩] ∧ e.phase = .fresh ∧
      s.ownWindow t.accessor 0x100 8 = some (.ok (tcmLoc 0 0x100)) ∧ s.tileTrap 0x100 (tcmLoc 0 0x100) = none ∧ s.Settled 0 ∧
      t.appends = [] ∧ MemoryCanonical s :=
  ⟨_, _, walking rfl rfl rfl (by decide), ⟨rfl, rfl, rfl, rfl, rfl, rfl, rfl⟩, rfl, rfl, rfl, by decide, by rintro _ ⟨⟩,
    by decide, by unfold MemoryCanonical; decide⟩
theorem witness_StoresPerform_posted : let s := atWalk (.cadd .v 0 6 5 true) wS
    ∃ t e, Walking s 0 t (.cadd .v 0 6 5 true) e ∧ e.Plain ∧ e.stores = [⟨0x100, 8, 5, .cadd⟩] ∧ e.phase = .fresh ∧
      e.op 0 = w64 0x100 ∧ s.ownWindow t.accessor 0x100 8 = some (.ok (tcmLoc 0 0x100)) ∧ s.bad (tcmLoc 0 0x100) 8 = false :=
  ⟨_, _, walking rfl rfl rfl (by decide), ⟨rfl, rfl, rfl, rfl, rfl, rfl, rfl⟩, rfl, rfl, by decide, rfl, by decide⟩
/-- Two elements at one address of the TCM; the second past it; both in the fabric window. -/
def twoStores (a b : Word) : State := atWalk (.vsts .h 2 10 11 1 true) (vm (fullV [(10, a), (11, b)] [(2, lanes16 [1, 2])]))
theorem witness_StoresPerform_vector : let s := twoStores 0x102 0
    ∃ t e, Walking s 0 t (.vsts .h 2 10 11 1 true) e ∧ e.Plain ∧ e.phase = .fresh ∧ (∀ x ∈ e.stores, x.op = .write) ∧
      (e.stores.map fun x => (s.placeOwn t x).bind fun r => r.toOption) = [some (tcmLoc 0 0x102), some (tcmLoc 0 0x102)] ∧ s.Settled 0 ∧ MemoryCanonical s :=
  ⟨_, _, walking rfl rfl rfl (by decide), ⟨rfl, rfl, rfl, rfl, rfl, rfl, rfl⟩, rfl, by decide, by decide, by rintro _ ⟨⟩,
    by unfold MemoryCanonical; decide⟩
def ownedStores : State := { twoStores 0x1000000 0 with owned := [0] }
theorem witness_StoresPerform_vectorFault : let s := ownedStores
    ∃ t e, Walking s 0 t (.vsts .h 2 10 11 1 true) e ∧ e.Plain ∧ e.phase = .fresh ∧ (∀ x ∈ e.stores, x.op = .write) ∧
      (∀ x ∈ e.stores, s.placeOwn t x ≠ none) ∧ (e.stores.all fun x => match s.placeOwn t x with
        | some (.error y) => y.cause == 18 && y.detail == 6
        | _ => false) = true :=
  ⟨_, _, walking rfl rfl rfl (by decide), ⟨rfl, rfl, rfl, rfl, rfl, rfl, rfl⟩, rfl, by decide, by decide, by decide⟩
theorem witness_StoresPerform_vectorFar : let s := twoStores 0x80000100 0
    ∃ t e, Walking s 0 t (.vsts .h 2 10 11 1 true) e ∧ e.Plain ∧ e.phase = .fresh ∧ ∃ x ∈ e.stores, s.placeOwn t x = none :=
  ⟨_, _, walking rfl rfl rfl (by decide), ⟨rfl, rfl, rfl, rfl, rfl, rfl, rfl⟩, rfl, ⟨_, .head _, rfl⟩⟩

theorem reaches {s : State} {t : Thread} {e : Entry} {va n : Nat} {acc : Access} {d loc : Nat}
    (a : (s.place t va n acc d).toOption = some loc) (b : (s.place t va n acc 0).toOption = some loc)
    (h : (!isReg loc && !s.isMoving loc && !s.locked loc n && !s.refusedThere loc && !s.failsOnWay t loc && !isRemote loc &&
      !rides t.vcore loc && !s.unsent 0 loc) = true)
    (f : e.phase = .fresh) : Reaches s 0 t e va n acc d loc := by
  simp only [Bool.and_eq_true, Bool.not_eq_true'] at h
  obtain ⟨⟨⟨⟨⟨⟨⟨h1, h2⟩, h3⟩, h4⟩, h5⟩, h6⟩, h7⟩, h8⟩ := h
  exact ⟨okOf a, okOf b, h1, h2, .inl f, .inr (.inl ⟨h6, h7⟩), .inr h8, fun _ => h3, h4, h5⟩
theorem witness_AtomicsPerform_lda : let s := atWalk (.lda .v 8 6 true) wS
    ∃ t e, Walking s 0 t (.lda .v 8 6 true) e ∧ Reaches s 0 t e (e.op 0).toNat 8 .read 0 (tcmLoc 0 0x100) ∧ s.canFlush 0 = true ∧
      s.postedAhead 0 (tcmLoc 0 0x100) 8 = false ∧
      (s.touchTlb t (e.op 0).toNat .read).bad (tcmLoc 0 0x100) 8 = false :=
  ⟨_, _, walking rfl rfl rfl (by decide), reaches (by decide) (by decide) (by decide) rfl, by decide, by decide, by decide⟩
theorem witness_AtomicsPerform : let s := atWalk (.aadd .v 8 6 5 true) wS
    ∃ t e, FarAtomic (.aadd .v 8 6 5 true) 0 8 6 5 true ∧ (8 : Reg) ≠ 0 ∧ Walking s 0 t (.aadd .v 8 6 5 true) e ∧
      Reaches s 0 t e (e.op 0).toNat 8 .rw 2 (tcmLoc 0 0x100) ∧ s.canRelease 0 t = true ∧
      ((s.touchTlb t (e.op 0).toNat .rw).release 0).bad (tcmLoc 0 0x100) 8 = false ∧
      s.skipsRelease 0 t (.aadd .v 8 6 5 true) = false :=
  ⟨_, _, .aadd .., by decide, walking rfl rfl rfl (by decide), reaches (by decide) (by decide) (by decide) rfl, by decide, by decide,
    by decide⟩
/-- A compare that finds its value and one that does not; a sum that fits and one that does not. -/
theorem witness_AtomicsPerform_acas : let s := atWalk (.acasV 8 6 7 5 true) wS
    ∃ t e, Walking s 0 t (.acasV 8 6 7 5 true) e ∧ Reaches s 0 t e (e.op 0).toNat 8 .rw 2 (tcmLoc 0 0x100) ∧
      w64 (s.read (tcmLoc 0 0x100) 8) ≠ e.op 1 :=
  ⟨_, _, walking rfl rfl rfl (by decide), reaches (by decide) (by decide) (by decide) rfl, by decide⟩
theorem witness_AtomicsPerform_cadd : let s := atWalk (.cadd .v 8 6 5 true) wS
    ∃ t e, Walking s 0 t (.cadd .v 8 6 5 true) e ∧ Reaches s 0 t e (e.op 0).toNat 8 .rw 2 (tcmLoc 0 0x100) ∧
      s.read (tcmLoc 0 0x100) 8 + (e.op 1).toNat < 2 ^ 64 :=
  ⟨_, _, walking rfl rfl rfl (by decide), reaches (by decide) (by decide) (by decide) rfl, by decide⟩
theorem witness_AtomicsPerform_cadd_over : let s := atWalk (.cadd .v 8 6 5 true) (withTcm (at0 wT) 0x100 (2 ^ 64 - 5))
    ∃ t e, Walking s 0 t (.cadd .v 8 6 5 true) e ∧ Reaches s 0 t e (e.op 0).toNat 8 .rw 2 (tcmLoc 0 0x100) ∧
      s.read (tcmLoc 0 0x100) 8 + (e.op 1).toNat = 2 ^ 64 :=
  ⟨_, _, walking rfl rfl rfl (by decide), reaches (by decide) (by decide) (by decide) rfl, by decide⟩
/-- At 100 ns: a deadline of 0, one in the past, one beyond the ceiling of 1,000 ns; supervisor, ceiling 0. -/
theorem witness_EffectiveDeadline : let s := { wS with pt := 100 }
    (s.pt ≤ 100 + (0x8000000000000000 : Word).toNat % 2 ^ 63 ∧ (50 : Word).toNat ≤ s.pt) ∧ wT.wceil.toNat = s.ctxCeil 0 ∧
      ({ wT with wceil := 1000 } : Thread).wceil.toNat < 2 ^ 63 - 1 := by decide

theorem witness_MemoryWaits_met (word : Bool) : let i : Instr := if word then .lwait 10 5 6 7 true else .cwait 10 5 6 7 true
    let s := atWalk i (counter5 [(6, 4)])
    ∃ t e, Walking s 0 t i e ∧ Reaches s 0 t e (e.op 0).toNat 8 .read 0 (tcmLoc 0 0x100) ∧ s.canFlush 0 = true ∧
      s.bad (tcmLoc 0 0x100) 8 = false ∧ s.storeBuf = [] ∧
      (if word then s.read (tcmLoc 0 0x100) 8 ≠ (e.op 1).toNat else (e.op 1).toNat ≤ s.read (tcmLoc 0 0x100) 8) := by
  cases word <;>
    exact ⟨_, _, walking rfl rfl rfl (by decide), reaches (by decide) (by decide) (by decide) rfl, by decide, by decide, rfl, by decide⟩
theorem witness_MemoryWaits_times (d : Word) (h : d = 0 ∨ d = 0x8000000000000001) : let s := atWalk (.cwait 10 5 6 7 true) (counter5 [(6, 6), (7, d)])
    ∃ t e, Walking s 0 t (.cwait 10 5 6 7 true) e ∧ Reaches s 0 t e (e.op 0).toNat 8 .read 0 (tcmLoc 0 0x100) ∧
      ¬(e.op 1).toNat ≤ s.read (tcmLoc 0 0x100) 8 ∧
      (if d = 0 then (s.newWait t (.counter (tcmLoc 0 0x100) (e.op 0) (e.op 1)) 10 (e.op 2)).deadline ≤ s.pt
        else s.pt < (s.newWait t (.counter (tcmLoc 0 0x100) (e.op 0) (e.op 1)) 10 (e.op 2)).deadline) := by
  rcases h with rfl | rfl <;>
    exact ⟨_, _, walking rfl rfl rfl (by decide), reaches (by decide) (by decide) (by decide) rfl, by decide, by decide⟩

/-- MONA with entry 0 Free, and with none Free; MCLR of the line. -/
def monState (i : Instr) (m : List MonSt) : State := (atWalk i (counter5 [(7, 0x8000000000000001)])).updThr 0 fun t => { t with mon := m }
theorem witness_MonitorsWatch_mona (m : List MonSt) (h : m = [.free, .free, .free, .free] ∨ m = [.quiet 1 64, .quiet 2 128, .quiet 3 192, .quiet 4 256]) :
    let s := monState (.mona 8 5 true) m
    ∃ t e, s.monaPlace t ((e.op 0).toNat / 64 * 64) = .ok (some (tcmLoc 0 0x100)) ∧ Walking s 0 t (.mona 8 5 true) e ∧
      (t.mon.findIdx? fun (m : MonSt) => m.line == some (lineOf (tcmLoc 0 0x100))) = none ∧
      (t.mon.findIdx? fun (m : MonSt) => m == .free) = if m = [.free, .free, .free, .free] then some 0 else none := by
  rcases h with rfl | rfl <;> exact ⟨_, _, rfl, walking rfl rfl rfl (by decide), by decide, by decide⟩
theorem witness_MonitorsWatch_mclr : let s := monState (.mclr 5 true) [.free, .free, .free, .free]
    ∃ t e, s.monaPlace t ((e.op 0).toNat / 64 * 64) = .ok (some (tcmLoc 0 0x100)) ∧ Walking s 0 t (.mclr 5 true) e :=
  ⟨_, _, rfl, walking rfl rfl rfl (by decide)⟩
/-- MWAIT with no armed entry, with one that is written, and with one that is quiet, parking. -/
theorem witness_MonitorsWatch_mwait : let s := monState (.mwait 8 7 true) [.free, .free, .free, .free]
    ∃ t e, Walking s 0 t (.mwait 8 7 true) e ∧ ∀ m ∈ t.mon, m = .free := ⟨_, _, walking rfl rfl rfl (by decide), by decide⟩
theorem witness_MonitorsWatch_written : let s := monState (.mwait 8 7 true) [.free, .written 1 64, .free, .free]
    ∃ t e, Walking s 0 t (.mwait 8 7 true) e ∧ (∃ m ∈ t.mon, m ≠ .free) ∧ t.monMet = true :=
  ⟨_, _, walking rfl rfl rfl (by decide), by decide, by decide⟩
theorem witness_MonitorsWatch_parks : let s := monState (.mwait 8 7 true) [.free, .quiet 1 64, .free, .free]
    ∃ t e, Walking s 0 t (.mwait 8 7 true) e ∧ (∃ m ∈ t.mon, m ≠ .free) ∧ t.monMet = false ∧
      s.pt < (s.newWait t .monitor 8 (e.op 0)).deadline := ⟨_, _, walking rfl rfl rfl (by decide), by decide, by decide, by decide⟩

/-- FENCEW of a reserved class, of drained classes, and of a class with a store still to be performed, at both times. -/
def fenceState (m : Word) (d : Word) (buf : List PStore) : State :=
  { atWalk (.fencew .v 8 6 7 true) (counter5 [(6, m), (7, d)]) with storeBuf := buf }
def oneStore : PStore := ⟨77, 0, none, 0, 0, 0x900000, 0x900000, 8, 1, .write, 0, 0, 0, .buffered, 0, []⟩
theorem witness_FencesWait (m : Word) (h : m = 31 ∨ m = 32) : let s := fenceState m 0 []
    ∃ t e, Walking s 0 t (.fencew .v 8 6 7 true) e ∧ (e.op 0).toNat = m.toNat ∧ s.undrained t 31 [] [] t.appends = 0 := by
  rcases h with rfl | rfl <;> exact ⟨_, _, walking rfl rfl rfl (by decide), by decide, by decide⟩
theorem witness_FencesWait_stores (d : Word) (h : d = 0 ∨ d = 0x8000000000000001) : let s := fenceState 31 d [oneStore]
    ∃ t e, Walking s 0 t (.fencew .v 8 6 7 true) e ∧ (e.op 0).toNat = 31 ∧
      ((s.storeBuf.filter fun p => p.tid == 0).map fun p => p.id) = [77] ∧ s.undrained t 31 [77] [] t.appends ≠ 0 ∧
      (if d = 0 then (s.newWait t (.fence .v 31 [77] [] t.appends) 8 (e.op 1)).deadline ≤ s.pt
        else s.pt < (s.newWait t (.fence .v 31 [77] [] t.appends) 8 (e.op 1)).deadline) := by
  rcases h with rfl | rfl <;> exact ⟨_, _, walking rfl rfl rfl (by decide), by decide, by decide, by decide, by decide⟩
/-- A store lost on its way, with nothing else left: its kernel is to end. -/
theorem witness_FencesWait_lost (d : Word) (h : d = 0 ∨ d = 0x8000000000000001) :
    let s := { fenceState 31 d [] with posted := [(3, 0, ⟨19, 3, 0x100⟩, 0x2000000)] }
    ∃ t e, Walking s 0 t (.fencew .v 8 6 7 true) e ∧ (e.op 0).toNat = 31 ∧ s.lostStore 0 = true ∧
      (if d = 0 then (s.newWait t (.fence .v 31 [] [] t.appends) 8 (e.op 1)).deadline ≤ s.pt
        else s.pt < (s.newWait t (.fence .v 31 [] [] t.appends) 8 (e.op 1)).deadline) := by
  rcases h with rfl | rfl <;> exact ⟨_, _, walking rfl rfl rfl (by decide), by decide, by decide, by decide⟩
/-- IFENCEW with no store left, and with one to its core's I-store, at both times. -/
theorem witness_FencesWait_ifencew : let s := atWalk (.ifencew 8 7 true) (counter5 [])
    ∃ t e, Walking s 0 t (.ifencew 8 7 true) e ∧ s.storeBuf = [] := ⟨_, _, walking rfl rfl rfl (by decide), rfl⟩
theorem witness_FencesWait_ifencewWaits (d : Word) (h : d = 0 ∨ d = 0x8000000000000001) :
    let p : PStore := { oneStore with loc := istLoc 0 0x40, va := 0x2000040 }
    let s := { atWalk (.ifencew 8 7 true) (counter5 [(7, d)]) with storeBuf := [p] }
    ∃ t e, Walking s 0 t (.ifencew 8 7 true) e ∧ (isIst p.loc && !isSpad p.loc && vcoreOfLoc p.loc == some t.vcore) = true ∧
      (if d = 0 then (s.newWait t (.ifence [77]) 8 (e.op 0)).deadline ≤ s.pt
        else s.pt < (s.newWait t (.ifence [77]) 8 (e.op 0)).deadline) := by
  rcases h with rfl | rfl <;> exact ⟨_, _, walking rfl rfl rfl (by decide), by decide, by decide⟩

theorem witness_GroupsChange_gnew : let s := atWalk (.gnew 5 6 true) (groupState [(6, 0x82)])
    ∃ t e, Walking s 0 t (.gnew 5 6 true) e ∧ (e.op 0).toNat < 256 ∧ (e.op 0).toNat.testBit 6 = false ∧ dieOf t.vcore = 0 ∧
      (e.op 0).toNat / 4 % 16 = 0 ∧ (e.op 0).toNat % 4 = t.cls ∧ bitAt (s.dieMask t) 0 = true ∧ (s.group 3).active = false ∧
      (∀ k, k < 3 → (s.group k).active = true) ∧ s.kernelGroups t.kernel < s.groupQuota t ∧ (s.groupsOf 0).length < 4 :=
  ⟨_, _, walking rfl rfl rfl (by decide), by decide, by decide, by decide, by decide, by decide, by decide, by decide, by decide,
    by decide, by decide⟩
theorem witness_GroupsChange_join : let s := atWalk (.join 7 8 true) (groupState [(8, 2)])
    ∃ t e, Walking s 0 t (.join 7 8 true) e ∧ s.groupCheck t 0 (e.op 0) true false = none ∧
      ((s.expireGroup 2).group 2).member 0 = none ∧ (∀ m ∈ ((s.expireGroup 2).group 2).members, m.idx ≠ 0) :=
  ⟨_, _, walking rfl rfl rfl (by decide), by decide, by decide, by decide⟩
/-- JOIN of a member gives its index. -/
theorem witness_GroupsChange_member : let s := atWalk (.join 7 6 true) (barrierState .idle)
    ∃ t e m, Walking s 0 t (.join 7 6 true) e ∧ s.groupCheck t 0 (e.op 0) true false = none ∧
      ((s.expireGroup 2).group 2).member 0 = some m := ⟨_, _, _, walking rfl rfl rfl (by decide), by decide, rfl⟩
/-- LEAVE where the other member has arrived, so that the phase completes, and where it has not. -/
theorem witness_GroupsChange_leave (arr : Arrival) (h : arr = .arrived ∨ arr = .idle) :
    let s := { atWalk (.leave 7 6 true) (barrierState .idle) with
      groups := [(2, { Group.reset with active := true, cls := 2, phase := 5, members := [⟨0, 0, .idle⟩, ⟨1, 7, arr⟩] })] }
    ∃ t e, Walking s 0 t (.leave 7 6 true) e ∧ s.groupCheck t 0 (e.op 0) false true = none ∧
      (let g := (s.expireGroup 2).group 2
       ({ g with members := g.members.filter fun m => m.tid != 0 } : Group).whole = decide (arr = .arrived)) := by
  rcases h with rfl | rfl <;> exact ⟨_, _, walking rfl rfl rfl (by decide), by decide, by decide⟩
theorem test_leave : let o := walked (.leave 7 6 true) (barrierState .idle)
    (xOf o 7, ((after o).group 2).phase, ((after o).group 2).members.length) = (0, 6, 1) := by decide
theorem witness_GroupsChange_gfree : let s := atWalk (.gfree 7 8 true) (groupState [(8, 2)])
    ∃ t e, Walking s 0 t (.gfree 7 8 true) e ∧ s.groupCheck t 0 (e.op 0) false false = none :=
  ⟨_, _, walking rfl rfl rfl (by decide), by decide⟩
theorem witness_GroupsChange_refused : let s := atWalk (.join 7 8 true) (groupState [(8, 0x4003)])
    ∃ t e c d, Walking s 0 t (.join 7 8 true) e ∧ s.groupCheck t 0 (e.op 0) true false = some (c, d) :=
  ⟨_, _, 8, 0, walking rfl rfl rfl (by decide), by decide⟩
theorem witness_GroupsChange_refusedMore : (let s := atWalk (.leave 7 8 true) (groupState [(8, 2)])
    ∃ t e c d, Walking s 0 t (.leave 7 8 true) e ∧ s.groupCheck t 0 (e.op 0) false true = some (c, d)) ∧
    (let s := atWalk (.gfree 7 8 true) (groupState [(8, 0x4003)])
     ∃ t e c d, Walking s 0 t (.gfree 7 8 true) e ∧ s.groupCheck t 0 (e.op 0) false false = some (c, d)) :=
  ⟨⟨_, _, _, _, walking rfl rfl rfl (by decide), rfl⟩, ⟨_, _, _, _, walking rfl rfl rfl (by decide), rfl⟩⟩

/-- The last arrival, and one that is not the last (member 7 has not arrived). -/
def barriers (arr other : Arrival) (i : Instr) : State :=
  let s := barrierState arr
  { atWalk i (s.updThr 0 fun t => { t with wceil := 2000, x := t.x.set 7 0x8000000000000001 }) with
    groups := [(2, { Group.reset with active := true, cls := 2, phase := 5, members := [⟨0, 0, arr⟩, ⟨1, 7, other⟩] })] }
theorem witness_BarriersMeet_last : let s := barriers .idle .arrived (.bara 8 6 true)
    ∃ t e, Walking s 0 t (.bara 8 6 true) e ∧ s.expireGroup (groupKey (e.op 0).toNat) = s ∧
      s.barrierCheck t 0 (e.op 0) true = none ∧ s.canRelease 0 t = true ∧
      (∀ m ∈ (s.group 2).members, (m.tid ≠ 0 → m.arr = .arrived) ∧ (s.thr m.tid).isSome = true) ∧ (s.group 2).phase < 2 ^ 32 ∧
      e.Plain ∧ (8 : Reg).toNat < t.x.length :=
  ⟨_, _, walking rfl rfl rfl (by decide), rfl, by decide, by decide, by decide, by decide, ⟨rfl, rfl, rfl, rfl, rfl, rfl, rfl⟩, by decide⟩
/-- Not the last, with an E after now (vcore 40's clock at 0) and at now, where the ceiling has passed nothing. -/
theorem witness_BarriersMeet_first (c : Reg) (h : c = 7 ∨ c = 0) : let s := barriers .idle .idle (.barw 8 6 c true)
    ∃ t e, Walking s 0 t (.barw 8 6 c true) e ∧ s.expireGroup (groupKey (e.op 0).toNat) = s ∧
      s.barrierCheck t 0 (e.op 0) true = none ∧ s.canRelease 0 t = true ∧ (∃ m ∈ (s.group 2).members, m.tid ≠ 0 ∧ m.arr ≠ .arrived) ∧
      (if c = 7 then s.pt < (s.newWait t (.barrier 2 (some 5) true) 8 (e.op 1)).deadline
        else (s.newWait t (.barrier 2 (some 5) true) 8 (e.op 1)).deadline ≤ s.pt) := by
  rcases h with rfl | rfl <;> exact ⟨_, _, walking rfl rfl rfl (by decide), rfl, by decide, by decide, by decide, by decide⟩
theorem witness_BarriersMeet_late : let s := barriers .arrived .idle (.barx 8 6 0 true)
    ∃ t e m, Walking s 0 t (.barx 8 6 0 true) e ∧ s.barrierCheck t 0 (e.op 0) false = none ∧ (s.group 2).member 0 = some m ∧
      m.arr = .arrived ∧ (s.newWait t (.barrier 2 (some 5) false) 8 (e.op 1)).deadline ≤ s.pt :=
  ⟨_, _, _, walking rfl rfl rfl (by decide), by decide, rfl, rfl, by decide⟩
/-- An arrival of a member that has arrived, and BARX of one that is Idle, are refused. -/
theorem witness_BarriersMeet_refused : (let s := barriers .arrived .idle (.bara 8 6 true)
    ∃ t e k d, Walking s 0 t (.bara 8 6 true) e ∧ s.barrierCheck t 0 (e.op 0) true = some (k, d)) ∧
    (let s := barriers .arrived .idle (.barw 8 6 7 true)
     ∃ t e k d, Walking s 0 t (.barw 8 6 7 true) e ∧ s.barrierCheck t 0 (e.op 0) true = some (k, d)) ∧
    (let s := barriers .idle .idle (.barx 8 6 7 true)
     ∃ t e k d, Walking s 0 t (.barx 8 6 7 true) e ∧ s.barrierCheck t 0 (e.op 0) false = some (k, d)) :=
  ⟨⟨_, _, _, _, walking rfl rfl rfl (by decide), rfl⟩, ⟨_, _, _, _, walking rfl rfl rfl (by decide), rfl⟩,
    ⟨_, _, _, _, walking rfl rfl rfl (by decide), rfl⟩⟩
theorem witness_BarriersMeet_barx (arr : Arrival) (h : arr = .arrived ∨ arr = .passed 4) : let s := barriers arr .idle (.barx 8 6 7 true)
    ∃ t e m, Walking s 0 t (.barx 8 6 7 true) e ∧ s.expireGroup (groupKey (e.op 0).toNat) = s ∧
      s.barrierCheck t 0 (e.op 0) false = none ∧ (s.group 2).member 0 = some m ∧ m.arr = arr ∧
      s.pt < (s.newWait t (.barrier 2 (some 5) false) 8 (e.op 1)).deadline := by
  rcases h with rfl | rfl <;> exact ⟨_, _, _, walking rfl rfl rfl (by decide), rfl, by decide, rfl, rfl, by decide⟩

theorem witness_StreamsBind_sbind : let s := atWalk (.sbind .h 0 12 true) streamState
    ∃ t e loc, Walking s 0 t (.sbind .h 0 12 true) e ∧ e.Plain ∧ s.Settled 0 ∧ t.appends = [] ∧ t.streams.length = 8 ∧
      s.descriptorLoc t (e.op 0).toNat = .ok loc ∧ s.bad loc 64 = false ∧
      badDescriptor (fun (k : Nat) => w64 (s.read (loc + 8 * k) 8)) = false ∧ t.streams.getD 0 none = none ∧ s.residentRoom t.vcore = true :=
  ⟨_, _, tcmLoc 0 0x200, walking rfl rfl rfl (by decide), ⟨rfl, rfl, rfl, rfl, rfl, rfl, rfl⟩, by rintro _ ⟨⟩, by decide, rfl,
    okOf (by decide), by decide, by decide, rfl, by decide⟩
/-- A bound read stream of 20 elements. -/
def bound0 : Stream := ⟨.h, false, false, 0x1000, 0, 2, 0, 20, 1, 0x8000000000002710, 0, 0, [], [], []⟩
theorem witness_StreamsBind_sunb : let s := (atWalk (.sunb 0 true) streamState).updThr 0 fun t => { t with streams := t.streams.set 0 (some bound0) }
    ∃ t e, Walking s 0 t (.sunb 0 true) e ∧ e.Plain ∧ t.streams.getD 0 none = some bound0 ∧ bound0.buf = [] :=
  ⟨_, _, walking rfl rfl rfl (by decide), ⟨rfl, rfl, rfl, rfl, rfl, rfl, rfl⟩, rfl, rfl⟩
/-- SUNB of an ordinary register, and of a write stream with an append not yet accepted. -/
theorem witness_StreamsBind_sunbWaits (x : Option Stream) (h : x = none ∨ x = some { bound0 with append := true, buf := [(0, 0, 0, 0)] }) :
    let s := (atWalk (.sunb 0 true) streamState).updThr 0 fun t => { t with streams := t.streams.set 0 x }
    ∃ t e, Walking s 0 t (.sunb 0 true) e ∧ t.streams.getD 0 none = x := by
  rcases h with rfl | rfl <;> exact ⟨_, _, walking rfl rfl rfl (by decide), rfl⟩
theorem witness_StreamsBind_sstat (x : Option Stream) (h : x = none ∨ x = some bound0) :
    let s := (atWalk (.sstat 6 0 true) streamState).updThr 0 fun t => { t with streams := t.streams.set 0 x }
    ∃ t e, Walking s 0 t (.sstat 6 0 true) e ∧ t.streams.getD 0 none = x := by
  rcases h with rfl | rfl <;> exact ⟨_, _, walking rfl rfl rfl (by decide), rfl⟩
/-- Slots 1 and 2 are in the stream engine, slot 0 is not. -/
theorem witness_StreamsBind_noRoom : let s := { atWalk (.sbind .h 0 12 true) streamState with
      vcores := [(0, { VCore.reset with resident := [1, 2] })] }
    ∃ t e, Walking s 0 t (.sbind .h 0 12 true) e ∧ e.Plain ∧ s.Settled 0 ∧ s.lostStore 0 = false ∧ t.appends = [] ∧ t.streams.length = 8 ∧
      (s.descriptorLoc t (e.op 0).toNat).toOption = some (tcmLoc 0 0x200) ∧ s.bad (tcmLoc 0 0x200) 64 = false ∧
      badDescriptor (fun (k : Nat) => w64 (s.read (tcmLoc 0 0x200 + 8 * k) 8)) = false ∧ s.streamsIn t = false ∧ s.residentRoom t.vcore = false :=
  ⟨_, _, walking rfl rfl rfl (by decide), ⟨rfl, rfl, rfl, rfl, rfl, rfl, rfl⟩, by rintro _ ⟨⟩, by decide, by decide, rfl, by decide, by decide,
    by decide, by decide, by decide⟩

theorem witness_ChannelsSend_sdstep : let s := atWalk (.sdstep 4 6 true) (sduState (fullV [] [(4, lanes16 [9])]))
    ∃ t e, Walking s 0 t (.sdstep 4 6 true) e ∧ s.stalled = false ∧ (e.op 0).toNat ≤ 4080 ∧ (s.sdu t.vcore).owner = some t.ctx :=
  ⟨_, _, walking rfl rfl rfl (by decide), by decide, by decide, by decide⟩
/-- Below, at and above the threshold. -/
theorem witness_ChannelsSend_codes : (3 : Int).natAbs < 4 ∧ 4 ≤ (4 : Int).natAbs ∧ 4 ≤ (-1000 : Int).natAbs := by decide
theorem witness_ChannelsSend_evsend : let s := atWalk (.evsend 8 6 7 true) (at0 (full [(6, 4095), (7, 0x5009990000010201)]))
    ∃ t e, Walking s 0 t (.evsend 8 6 7 true) e ∧ s.stalled = false ∧ e.phase = .fresh ∧ (e.op 0).toNat < 4096 ∧ fieldOf (e.op 1) 1 3 = 0 ∧
      fieldOf (e.op 1) 6 2 = 0 ∧ t.cls ≤ packetClass (e.op 1) :=
  ⟨_, _, walking rfl rfl rfl (by decide), by decide, rfl, by decide, by decide, by decide, by decide⟩
theorem witness_ChannelsSend_evstep : let s := atWalk (.evstep 8 6 7 true) (sduState { full [(7, 0x8000000000001000)] with wceil := 5000 })
    ∃ t e, Walking s 0 t (.evstep 8 6 7 true) e ∧ (e.op 0).toNat = 0 ∧ (s.sdu t.vcore).owner = some t.ctx ∧
      ((s.sdu t.vcore).range 0).enabled = true ∧ 0 < (s.sdu t.vcore).ranges.length ∧
      s.pt < (s.newWait t (.evstep 0 0 0) 8 (e.op 1)).deadline :=
  ⟨_, _, walking rfl rfl rfl (by decide), by decide, by decide, by decide, by decide, by decide⟩
theorem witness_ChannelsSend_recv (q : List (List Word)) (h : q = [[], [7, 9], [], []] ∨ q = [[], [], [], []]) :
    let s := atWalk (.recv 10 6 7 true) { at0 { full [(7, 0x8000000000000100)] with wceil := 5000 } with
      inboxes := [(0, { Inbox.reset with owner := some 0, q := q })] }
    ∃ t e, Walking s 0 t (.recv 10 6 7 true) e ∧ (e.op 0).toNat = 0 ∧ (s.inbox t.vcore).owner = some t.ctx ∧ (s.inbox t.vcore).q = q ∧
      s.pt < (s.newWait t (.recv 0 15) 10 (e.op 1)).deadline := by
  rcases h with rfl | rfl <;> exact ⟨_, _, walking rfl rfl rfl (by decide), by decide, by decide, by decide, by decide⟩
/-- Both queue shapes meet their clause: the lowest class with a packet is 1, and no class has one. -/
theorem witness_ChannelsSend_queues : (15 : Nat).testBit 1 = true ∧ ([[], [7, 9], [], []] : List (List Word)).getD 1 [] = [7, 9] ∧
    (∀ j, j < 1 → ([[], [7, 9], [], []] : List (List Word)).getD j [] = []) ∧
    (∀ k, k < 4 → ([[], [], [], []] : List (List Word)).getD k [] = []) := by decide
def sdstepState : State := atWalk (.sdstep 4 6 true) (sduState (fullV [] [(4, lanes16 [9])]))
theorem witness_ResidualBound : ∃ t e, Walking sdstepState 0 t (.sdstep 4 6 true) e ∧ e.Plain ∧ sdstepState.stalled = false ∧ (e.op 0).toNat = 0 ∧
    (sdstepState.sdu t.vcore).owner = some t.ctx ∧ e.vops = [lanes16 [9]] ∧ t.vcore = 0 :=
  ⟨_, _, walking rfl rfl rfl (by decide), ⟨rfl, rfl, rfl, rfl, rfl, rfl, rfl⟩, by decide, by decide, by decide, rfl, by decide⟩
theorem witness_ResidualBound_range : let u := sdstepState.sdu 0
    sextNat (laneOf (lanes16 [9]) 16 0) 16 = 9 ∧ u.rangeOf 0 = some (0, sdu0.range 0) ∧ ((sdu0.range 0).dests.getD 0 ⟨false, 0, 0, 0⟩).valid = true ∧ (u.slot 0).2.length = 4 ∧
      (changeCode (9 - u.sent 0 0) (u.slot 0).1 (sdu0.range 0).shift).2 = false := by decide
theorem witness_ResidualBound_threshold : (10 : Nat) ≤ 10 ∧ (0 : Nat) ≤ 10 := by decide

/-- A command whose body lies in the TCM, and one with the short body. -/
theorem witness_CommandsEnter : let s := atWalk (.copy1 12 5 6 true) (withTcm (at0 { full [(5, 0x100), (6, 9)] with wceil := 100000 }) 0x100 0x100)
    let body : List Word := 0x100 :: List.replicate 7 0
    ∃ t e, CommandWord (.copy1 12 5 6 true) 1 0 false 12 5 6 true ∧ Walking s 0 t (.copy1 12 5 6 true) e ∧ e.Plain ∧
      s.tcmBody 0 t (e.op 0).toNat = .ok body ∧ s.canRelease 0 t = true ∧ e.begun = none ∧ (s.release 0).roomFor body t.vcore (engineOf 1 t.vcore) = true ∧
      (12 : Reg).toNat < t.empty.length ∧ body.length = 8 ∧ s.nextId < 2 ^ 64 :=
  ⟨_, _, .copy1 .., walking rfl rfl rfl (by decide), ⟨rfl, rfl, rfl, rfl, rfl, rfl, rfl⟩, okOf (by decide), by decide, rfl, by decide, by decide,
    rfl, by decide⟩
theorem witness_CommandsEnter_short : let s := atWalk (.mzero 12 5 6 true) (at0 (full [(6, 9)]))
    ∃ t e, CommandWord (.mzero 12 5 6 true) 0 4 true 12 5 6 true ∧ Walking s 0 t (.mzero 12 5 6 true) e ∧ e.Plain ∧ s.canRelease 0 t = true ∧
      (s.release 0).roomFor (shortBody 4 0 (e.op 0)) t.vcore (engineOf 0 t.vcore) = true ∧ (shortBody 4 0 (e.op 0)).length = 8 :=
  ⟨_, _, .mzero .., walking rfl rfl rfl (by decide), ⟨rfl, rfl, rfl, rfl, rfl, rfl, rfl⟩, by decide, by decide, by decide⟩
/-- The station of cluster 0 maps 0x8000_0040 to the window of vcore 0's copy engine. -/
theorem witness_CommandsEnter_qpush : let s := { atWalk (.qpush 5 6 8 7 true) (at0 (full [(6, 0x80000040)])) with
      tlb := [⟨0, 0, 0x80000000, 0x10000, 0xFF0000000027⟩] }
    ∃ t e, Walking s 0 t (.qpush 5 6 8 7 true) e ∧ e.Plain ∧ (e.op 0).toNat % 64 = 0 ∧ s.canRelease 0 t = true ∧
      s.locate t.accessor (stationOf t.vcore) (e.op 0).toNat 64 .write 1 = .ok 0xFF0000000040 ∧
      windowOf 0xFF0000000040 = some (.copy 0, 0) ∧
      ((s.touchTlb t (e.op 0).toNat .write).release 0).roomFor (vecWords (e.vop 0) ++ vecWords (e.vop 1)) 0 (.copy 0) = true ∧
      (5 : Reg).toNat < t.x.length :=
  ⟨_, _, walking rfl rfl rfl (by decide), ⟨rfl, rfl, rfl, rfl, rfl, rfl, rfl⟩, by decide, by decide, okOf (by decide), by decide, by decide, by decide⟩
/-- A tile of the threads', one of the engines', and one a command names. -/
def tileState (i : Instr) (own : List Nat) (cmds : List Cmd) : State :=
  { atWalk i (at0 { full [(6, 0x1000000), (7, 0x8000000000000100)] with wceil := 5000 }) with owned := own, cmds := cmds }
def oneCmd : Cmd := ⟨50, .copy 0, 0, 0, 0, true, none, 0, false, 0, List.replicate 8 0, none, 900, 0, 0, .running, 0, none, 0, false, [0], false, false, 0⟩
theorem witness_CommandsEnter_tgive : let s := tileState (.tgive 6 true) [] []
    ∃ t e, Walking s 0 t (.tgive 6 true) e ∧ s.ownTile t (e.op 0).toNat = .ok 0 ∧ s.canRelease 0 t = true :=
  ⟨_, _, walking rfl rfl rfl (by decide), okOf (by decide), by decide⟩
/-- TTAKE, as a poll, of a tile that a command names. -/
theorem witness_CommandsEnter_ttakePoll : let s := tileState (.ttake 8 6 0 true) [0] [oneCmd]
    ∃ t e, Walking s 0 t (.ttake 8 6 0 true) e ∧ s.ownTile t (e.op 0).toNat = .ok 0 ∧ s.owned = [0] ∧ (∃ k ∈ s.cmds, 0 ∈ k.spads) ∧
      (s.newWait t (.ttake 0) 8 (e.op 1)).deadline ≤ s.pt :=
  ⟨_, _, walking rfl rfl rfl (by decide), okOf (by decide), rfl, by decide, by decide⟩
theorem witness_CommandsEnter_ttake (own : List Nat) (cmds : List Cmd)
    (h : (own = [] ∧ cmds = []) ∨ (own = [0] ∧ cmds = []) ∨ (own = [0] ∧ cmds = [oneCmd])) : let s := tileState (.ttake 8 6 7 true) own cmds
    ∃ t e, Walking s 0 t (.ttake 8 6 7 true) e ∧ s.ownTile t (e.op 0).toNat = .ok 0 ∧ s.owned = own ∧
      ((∃ k ∈ s.cmds, 0 ∈ k.spads) ↔ cmds = [oneCmd]) ∧ s.pt < (s.newWait t (.ttake 0) 8 (e.op 1)).deadline := by
  rcases h with ⟨rfl, rfl⟩ | ⟨rfl, rfl⟩ | ⟨rfl, rfl⟩ <;>
    exact ⟨_, _, walking rfl rfl rfl (by decide), okOf (by decide), rfl, by decide, by decide⟩
/-- COPY1 of a body that lies in the TCM: of 64 bytes, and of 2^40, refused with detail 2; with room and with the queue full, whose
E is 100 ns ahead or at once; its body past the TCM. -/
def copyState (addr len d : Word) (n : Nat) : State :=
  { atWalk (.copy1 12 5 6 true) (((withTcm (at0 { full [(5, addr), (6, d)] with wceil := 100000 }) 0x100 0x100000000000100).write (tcmLoc 0 0x110) 8 0x4000).write (tcmLoc 0 0x118) 8 len.toNat) with
    cmds := (List.range n).map fun k => { oneCmd with id := 100 + k, st := .queued } }
theorem witness_CommandsEnter_checks (len : Word) (h : len = 64 ∨ len = 0x10000000000) : let s := copyState 0x100 len 9 0
    ∃ t e body, Walking s 0 t (.copy1 12 5 6 true) e ∧ e.Plain ∧ (s.tcmBody 0 t (e.op 0).toNat).toOption = some body ∧ body.length = 8 ∧
      s.canRelease 0 t = true ∧ t.empty.length = 32 ∧ t.x.length = 32 ∧ s.nextId < 2 ^ 64 ∧
      (s.release 0).roomFor body 0 (.copy 0) = true ∧ s.pt ≤ (e.begun.getD (s.deadline (e.op 1) (s.ceil t))).1 ∧
      ((after (exec (.copy1 12 5 6 true) s)).cmds.map fun c => (c.st, c.code, c.detail)) =
        (if len = 64 then [(.queued, none, 0)] else [(.completing, some 11, 2)]) := by
  rcases h with rfl | rfl <;>
    exact ⟨_, _, [0x100000000000100, 0, 0x4000, _, 0, 0, 0, 0], walking rfl rfl rfl (by decide), ⟨rfl, rfl, rfl, rfl, rfl, rfl, rfl⟩, rfl, rfl, by decide, rfl, rfl,
      by decide, by decide, by decide, by decide⟩
theorem witness_CommandsEnter_full (d : Word) (h : d = 0 ∨ d = 0x8000000000000064) : let s := copyState 0x100 64 d 64
    ∃ t e, Walking s 0 t (.copy1 12 5 6 true) e ∧ e.Plain ∧ s.canRelease 0 t = true ∧
      (s.release 0).roomFor [0x100000000000100, 0, 0x4000, 64, 0, 0, 0, 0] 0 (.copy 0) = false ∧
      (let dl := (e.begun.getD (s.deadline (e.op 1) (s.ceil t))).1
       if d = 0 then dl ≤ s.pt else s.pt < dl) := by
  rcases h with rfl | rfl <;>
    exact ⟨_, _, walking rfl rfl rfl (by decide), ⟨rfl, rfl, rfl, rfl, rfl, rfl, rfl⟩, by decide, by decide, by decide⟩
theorem witness_CommandsEnter_unreadable : let s := copyState 0x20000 64 0 0
    ∃ t e x, Walking s 0 t (.copy1 12 5 6 true) e ∧ s.tcmBody 0 t (e.op 0).toNat = .error x :=
  ⟨_, _, _, walking rfl rfl rfl (by decide), rfl⟩
/-- QPUSH to an address that is no window, and to a window whose queue is full, at its E. -/
theorem witness_CommandsEnter_qpushMore (n : Nat) (h : n = 0 ∨ n = 64) :
    let s := { atWalk (.qpush 5 6 8 0 true) (at0 (full [(6, if n = 0 then 0x100 else 0x80000040)])) with
      tlb := [⟨0, 0, 0x80000000, 0x10000, 0xFF0000000027⟩]
      cmds := (List.range n).map fun k => { oneCmd with id := 100 + k, st := .queued } }
    ∃ t e pa, Walking s 0 t (.qpush 5 6 8 0 true) e ∧ e.Plain ∧ (e.op 0).toNat % 64 = 0 ∧
      (s.locate t.accessor (stationOf t.vcore) (e.op 0).toNat 64 .write 1).toOption = some pa ∧
      (if n = 0 then windowOf pa = none else windowOf pa = some (.copy 0, 0) ∧
        ((s.touchTlb t (e.op 0).toNat .write).release 0).roomFor (vecWords (e.vop 0) ++ vecWords (e.vop 1)) 0 (.copy 0) = false ∧
        (e.begun.getD (s.deadline (e.op 1) (s.ceil t))).1 ≤ s.pt) := by
  rcases h with rfl | rfl
  · exact ⟨_, _, tcmLoc 0 0x100, walking rfl rfl rfl (by decide), ⟨rfl, rfl, rfl, rfl, rfl, rfl, rfl⟩, by decide, by decide, by decide⟩
  · exact ⟨_, _, 0xFF0000000040, walking rfl rfl rfl (by decide), ⟨rfl, rfl, rfl, rfl, rfl, rfl, rfl⟩, by decide, by decide, by decide⟩

/-- A thread of a kernel that has one core, in a context that permits every class. -/
def kernelState (i : Instr) (xs : List (Nat × Word)) : State :=
  atWalk i { at0 { full xs with kernel := some 3 } with
    kernels := [(3, { wK with cores := [⟨0, [(0, 0)], 0, 0x1000, 0, 0x1000, true⟩] })], ctxs := [(0, ⟨[0, 0, 0, 0x3D, 0, 0, 0, 0], false⟩)] }
theorem witness_ThreadsComeAndGo_spawn : let s := kernelState (.spawn 8 6 7 9 true) [(6, 0x2000FFC)]
    ∃ t e, Walking s 0 t (.spawn 8 6 7 9 true) e ∧ (e.op 0).toNat < 2 ^ 35 ∧ fieldOf (e.op 0) 0 32 % 4 = 0 ∧
      s.entryInShare t (fieldOf (e.op 0) 0 32) = true ∧ t.cls ≤ fieldOf (e.op 0) 33 2 ∧
      s.permits t.ctx (fieldOf (e.op 0) 33 2) = true ∧ (s.pool (dieOf t.vcore)).length < 4096 :=
  ⟨_, _, walking rfl rfl rfl (by decide), by decide, by decide, by decide, by decide, by decide, by decide⟩
/-- SPAWN of an entry no share holds, and of a class the context does not permit. -/
theorem witness_ThreadsComeAndGo_refused : (let s := atWalk (.spawn 8 6 7 9 true) wS
    ∃ t e, Walking s 0 t (.spawn 8 6 7 9 true) e ∧ s.entryInShare t (fieldOf (e.op 0) 0 32) = false) ∧
    (let s : State := { kernelState (.spawn 8 6 7 9 true) [(6, 0x602000FFC)] with ctxs := [(0, ⟨[0, 0, 0, 0x0D, 0, 0, 0, 0], false⟩)] }
     ∃ t e, Walking s 0 t (.spawn 8 6 7 9 true) e ∧ (e.op 0).toNat < 2 ^ 35 ∧ fieldOf (e.op 0) 0 32 % 4 = 0 ∧
      s.entryInShare t (fieldOf (e.op 0) 0 32) = true ∧ s.permits t.ctx (fieldOf (e.op 0) 33 2) = false) :=
  ⟨⟨_, _, walking rfl rfl rfl (by decide), by decide⟩, ⟨_, _, walking rfl rfl rfl (by decide), by decide, by decide, by decide, by decide⟩⟩
/-- SPAWN with the pool full, before and at its E. -/
theorem witness_ThreadsComeAndGo_full (c : Reg) (h : c = 9 ∨ c = 0) :
    let s : State := { (kernelState (.spawn 8 6 7 c true) [(6, 0x2000FFC), (9, 0x8000000000000100)]).updThr 0 fun t => { t with wceil := 5000 } with
      pools := [(0, List.replicate 4096 ⟨0x2000000, 0, false, 0, some 3, 0, 0⟩)] }
    ∃ t e, Walking s 0 t (.spawn 8 6 7 c true) e ∧ 4096 ≤ (s.pool (dieOf t.vcore)).length ∧ s.permits t.ctx (fieldOf (e.op 0) 33 2) = true ∧
      (let w := s.newWait t (.spawn (e.op 0) (e.op 1)) 8 (e.op 2)
       if c = 9 then s.pt < w.deadline else w.deadline ≤ s.pt) := by
  rcases h with rfl | rfl <;>
    exact ⟨_, _, walking rfl rfl rfl (by decide), Nat.le_of_eq (List.length_replicate ..).symm, by decide, by decide⟩
theorem witness_ThreadsComeAndGo_buffered : let s := (atWalk (.exit 6 true) wS).updThr 0 fun t => { t with
      streams := t.streams.set 0 (some { bound0 with append := true, buf := [(0, 0, 0, 0)] }) }
    ∃ t e, Walking s 0 t (.exit 6 true) e ∧ t.buffered = true := ⟨_, _, walking rfl rfl rfl (by decide), by decide⟩
/-- CSWAP in a light slot and while the moult engine spills. -/
theorem witness_ThreadsComeAndGo_noSwap : (∃ t e, Walking (atWalk (.cswap true) { at0 (lightT []) with cur := (0, 4) }) 0 t (.cswap true) e ∧ 4 ≤ t.slot) ∧
    (let s : State := { atWalk (.cswap true) wS with vcores := [(0, { VCore.reset with banks := [.spilling 0 0x20000, .empty, .empty, .empty] })] }
     ∃ t e n p, Walking s 0 t (.cswap true) e ∧ s.bank t.vcore t.slot = .spilling n p) :=
  ⟨⟨_, _, walking rfl rfl rfl (by decide), by decide⟩, ⟨_, _, _, _, walking rfl rfl rfl (by decide), rfl⟩⟩
theorem witness_ThreadsComeAndGo_exit : ∃ t e, Walking (atWalk (.exit 6 true) wS) 0 t (.exit 6 true) e ∧ t.buffered = false :=
  ⟨_, _, walking rfl rfl rfl (by decide), by decide⟩
theorem witness_ThreadsComeAndGo_tmark : ∃ t e, Walking (atWalk (.tmark 6 true) wS) 0 t (.tmark 6 true) e ∧
    fieldOf (atWalk (.tmark 6 true) wS).dbg.dtrace 52 1 = 0 := ⟨_, _, walking rfl rfl rfl (by decide), by decide⟩
theorem witness_ThreadsComeAndGo_cswap : let s : State := { atWalk (.cswap true) wS with
      threads := (atWalk (.cswap true) wS).threads ++ [(5, { wT with place := Place.bank 0 0 })]
      vcores := [(0, { VCore.reset with banks := [.unsaved, .empty, .empty, .empty] })] }
    ∃ t e tid2 t2, Walking s 0 t (.cswap true) e ∧ e.Plain ∧ t.slot < 4 ∧ t.buffered = false ∧ t.wait = none ∧ t.susp = [] ∧
      (s.vc t.vcore).banks.length = 4 ∧ s.bank t.vcore t.slot = .unsaved ∧ s.inBank t.vcore t.slot = some (tid2, t2) ∧
      s.thr tid2 = some t2 ∧ tid2 ≠ 0 :=
  ⟨_, _, _, _, walking rfl rfl rfl (by decide), ⟨rfl, rfl, rfl, rfl, rfl, rfl, rfl⟩, by decide, by decide, rfl, rfl, by decide, by decide,
    rfl, rfl, by decide⟩

/-! ### Events: for each clause a state that meets its hypotheses, and what the event does in it -/

/-- A load from vcore 1's TCM that has been sent, and a store to it that the walk has presented at time 0. -/
def wF : Thread := full [(5, 5), (6, 0x1000100100)]
def sentLoad : State := after (exec (.lw 8 6 0 true) ((at0 wF).write (tcmLoc 1 0x100) 8 0x80000007))
def presentedStore : State := (atWalk (.sd 5 6 0 true) (at0 wF)).updThr 0 fun t => { t with
  block := t.block.map fun e => { e with phase := .presented ⟨0, 0, 0, [], false⟩ } }
theorem witness_AccessesReturn_load : ∃ t e, sentLoad.inSlot 0 0 = some (0, t) ∧ sentLoad.thr 0 = some t ∧ t.block[0]? = some e ∧
    e.st = .sent ∧ (∃ pin, e.loads = [⟨1, 0x1000100100, 4, none, pin⟩]) ∧ e.post = .x 8 4 true ∧
    sentLoad.sentLocs t e = [(0x1000100100, tcmLoc 1 0x100, 4)] ∧ isReg (tcmLoc 1 0x100) = false ∧
    sentLoad.isMoving (tcmLoc 1 0x100) = false ∧ sentLoad.bad (tcmLoc 1 0x100) 4 = false ∧
    sentLoad.detGate t.ctx t.detKey = true ∧ sentLoad.loadAhead t (t.block.take 0) e = false ∧ sentLoad.pick = 0 ∧
    sentLoad.Settled 0 ∧ sentLoad.pt < e.sentAt + 200000 ∧ sentLoad.unsent 0 (tcmLoc 1 0x100) = false :=
  ⟨_, _, rfl, rfl, rfl, rfl, ⟨_, rfl⟩, rfl, rfl, by decide, by decide, by decide, by decide, by decide, rfl, by rintro _ ⟨⟩, by decide,
    by decide⟩
theorem test_longResultReturn : xw (exec (.longResultReturn 0 0 0 false) sentLoad) = [⟨8, 0xFFFFFFFF80000007, false⟩] := by decide
/-- A store to die SRAM of die 1, through a page of context 0. -/
def presentedFar : State := { (atWalk (.sd 5 6 0 true) (at0 (full [(5, 5), (6, 0x80000100)]))).updThr 0 fun t => { t with
    block := t.block.map fun e => { e with phase := .presented ⟨0, 0, 0, [], false⟩ } } with
  tlb := [⟨0, 0, 0x80000000, 0x10000, 0x4000027⟩] }
theorem witness_AccessesReturn_store (far : Bool) : let s := if far then presentedFar else presentedStore
    let loc := if far then 0x4000100 else tcmLoc 1 0x100
    ∃ t e x, s.inSlot 0 0 = some (0, t) ∧ s.thr 0 = some t ∧ t.run = .block ∧
    t.walking = true ∧ t.block = [e] ∧ e.phase = .presented ⟨0, 0, 0, [], false⟩ ∧ e.Plain ∧ e.stores = [x] ∧ releasesFirst e.ins = false ∧
    s.placeStore t x = .ok loc ∧ isReg loc = false ∧ s.isMoving loc = false ∧ s.locked loc x.size = false ∧
    s.egressOk t.ctx (egressBytes [(x, loc)]) = true ∧ s.detGate t.ctx t.detKey = true ∧ s.pt < 0 + 200000 ∧
    (isTcm loc || isIst loc || isSpad loc || homeDie loc == some (dieOf t.vcore)) = !far ∧ x.op = .write ∧ s.Settled 0 ∧
    MemoryCanonical s := by
  cases far <;>
    exact ⟨_, _, _, rfl, rfl, rfl, rfl, rfl, rfl, ⟨rfl, rfl, rfl, rfl, rfl, rfl, rfl⟩, rfl, rfl, okOf (by decide), by decide, by decide,
      by decide, by decide, by decide, by decide, by decide, rfl, by rintro _ ⟨⟩, by unfold MemoryCanonical; decide⟩
/-- A store to another core's TCM is performed as it is accepted; one to another die waits in the store buffer. -/
theorem test_storeAcceptance : let s := after (exec (.storeAcceptance 0 0) presentedStore)
    (s.storeBuf.length, s.read (tcmLoc 1 0x100) 8) = (0, 5) := by decide
theorem test_storeAcceptance_far : let s := after (exec (.storeAcceptance 0 0) presentedFar)
    (s.storeBuf.map fun p => (p.loc, p.size, p.val), s.read 0x4000100 8) = ([(0x4000100, 8, 5)], 0) := by decide
/-- The store of `presentedFar`, accepted and at its stop of the ring, is performed there. -/
theorem witness_AccessesReturn_perform : let s := after (exec (.storeAcceptance 0 0) presentedFar)
    let s : State := { s with storeBuf := s.storeBuf.map fun p => { p with st := .out } }
    ∃ p, s.storeBuf = [p] ∧ p.op = .write ∧ p.val < 2 ^ (8 * p.size) ∧ s.isMoving p.loc = false ∧ isReg p.loc = false ∧
      s.locked p.loc p.size = false ∧ isRemote p.loc = false ∧ p.st = .out ∧ rides p.v p.loc = true ∧ s.riding (.store p.id) = false ∧
      s.detGate p.ctx (s.storeKey p) = true ∧ s.pick = 0 ∧
      MemoryCanonical s ∧ (after (exec (.storePerform p.id) s)).read 0x4000100 8 = 5 :=
  ⟨_, rfl, rfl, by decide, by decide, by decide, by decide, by decide, rfl, by decide, by decide, by decide, rfl,
    by unfold MemoryCanonical; decide, by decide⟩
/-- A presented VST.h of two elements to die SRAM of die 1: its page there or not, a lock of command 50 there or not. -/
def presentedVec (page : Bool) (locks : List (Nat × Nat × Nat)) : State :=
  { (atWalk (.vst .h 2 6 1 true) (at0 { fullV [(6, 0x80000100)] [(2, lanes16 [1, 2])] with m := [0, 3, 0, 0, 0, 0, 0, 0] })).updThr 0
      fun t => { t with block := t.block.map fun e => { e with phase := .presented ⟨0, 0, 0, [], false⟩ } } with
    tlb := if page then [⟨0, 0, 0x80000000, 0x10000, 0x4000027⟩] else []
    locks := locks }
theorem witness_StoresPerform_presented (page : Bool) (ls : List (Nat × Nat × Nat)) (h : ls = [] ∨ ls = [(0x4000100 / 64, 50, 0)]) :
    let s := presentedVec page ls
    ∃ t e, s.inSlot 0 0 = some (0, t) ∧ s.thr 0 = some t ∧ t.run = .block ∧ t.walking = true ∧ t.block = [e] ∧
      e.phase = .presented ⟨0, 0, 0, [], false⟩ ∧ e.Plain ∧ e.stores ≠ [] ∧ VectorStore t e.ins .h 2 [6] [] 1 true (fun n => t.readX 6 + w64 (n * 2)) ∧
      s.pt < 0 + 200000 ∧
      (s.placePinned t e).map (fun r => r.2.toOption) = (if page then [some 0x4000100, some 0x4000102] else [none, none]) ∧
      s.locked 0x4000100 2 = decide (ls ≠ []) ∧ s.isMoving 0x4000100 = false ∧ t.atOnce 0x4000100 = false ∧
      s.egressOk t.ctx 0 = true ∧ s.detGate t.ctx t.detKey = true := by
  cases page <;> rcases h with rfl | rfl <;>
    exact ⟨_, _, rfl, rfl, rfl, rfl, rfl, rfl, ⟨rfl, rfl, rfl, rfl, rfl, rfl, rfl⟩, by decide, .vst .., by decide, by decide, by decide, by decide,
      by decide, by decide, by decide⟩
/-- They trap, wait, and enter the store buffer in order. -/
theorem test_vectorPresented : let o := fun p l => after (exec (.storeAcceptance 0 0) (presentedVec p l))
    ((((o false []).thr 0).map fun t => t.level), ((o true [(0x4000100 / 64, 50, 0)]).storeBuf.length),
      (o true []).storeBuf.map fun p => (p.loc, p.size, p.val)) = (some 1, 0, [(0x4000100, 2, 1), (0x4000102, 2, 2)]) := by decide
/-- LTB, 200 µs after both. -/
theorem witness_AccessesReturn_ltb : let s := { sentLoad with pt := 200000 }
    ∃ t e, s.inSlot 0 0 = some (0, t) ∧ s.detGate t.ctx t.detKey = true ∧ s.loadAhead t (t.block.take 0) e = false ∧ (t.block.findIdx? fun e => e.st == .sent && decide (e.sentAt + 200000 ≤ s.pt)) = some 0 ∧
      t.block[0]? = some e ∧ (last (exec (.ltbExpiry 0 0) s)).map Entry.st = some (.faulted ⟨19, 2, 0x1000100100⟩) :=
  ⟨_, _, rfl, by decide, by decide, by decide, rfl, by decide⟩
theorem witness_AccessesReturn_ltbStore : let s := { presentedStore with pt := 200000 }
    ∃ t e x, s.inSlot 0 0 = some (0, t) ∧ (∀ e ∈ t.block, e.st ≠ .sent) ∧ t.run = .block ∧ t.walking = true ∧ t.block = [e] ∧
      e.phase = .presented ⟨0, 0, 0, [], false⟩ ∧ 0 + 200000 ≤ s.pt ∧ s.locks = [] ∧ e.stores = [x] :=
  ⟨_, _, _, rfl, by decide, rfl, rfl, rfl, rfl, by decide, rfl, rfl⟩
/-- A presented store whose place was pinned: its page is gone meanwhile (R316). -/
theorem witness_AccessesReturn_pinned : let s := ({ presentedFar with tlb := [] } : State).updThr 0 fun t => { t with
      block := t.block.map fun e => { e with phase := .presented ⟨0, 0, 3, [some 0x4000100], false⟩ } }
    ∃ t e, s.inSlot 0 0 = some (0, t) ∧ t.block = [e] ∧ e.phase = .presented ⟨0, 0, 3, [some 0x4000100], false⟩ ∧
      ((after (exec (.storeAcceptance 0 0) s)).storeBuf.map fun p => (p.loc, p.pinned)) = [(0x4000100, 3)] := ⟨_, _, rfl, rfl, rfl, by decide⟩

def evcfgState : State := atWalk (.csrrw 0 7 5 true) (at0 (full [(5, 0x1040302010020)]))
theorem witness_CoreEvents_evcfg : ∃ t e, evcfgState.inSlot 0 0 = some (0, t) ∧ evcfgState.thr 0 = some t ∧ t.run = .block ∧ t.walking = true ∧
    t.block = [e] ∧ e.st = .done ∧ e.deferred = false ∧ e.csr = some (0x007, .write 0x1040302010020) ∧ t.place = .slot 0 0 ∧
    (evcfgState.inbox 0).owner = none ∧ fieldOf (evcfgState.inbox 0).evcfg 48 1 = 0 ∧ fieldOf 0x1040302010020 48 1 = 1 :=
  ⟨_, _, rfl, rfl, rfl, rfl, rfl, rfl, rfl, rfl, rfl, rfl, by decide⟩
theorem test_evcfgWrite : let s := after (exec (.evcfgWrite 0 0) evcfgState)
    ((s.inbox 0).evcfg, (s.inbox 0).owner) = (0x1040302010020, some 0) := by decide
theorem witness_CoreEvents_window : let s := { wS with pt := 3000000 }
    s.thr 0 = some wT ∧ wT.winIdx ≠ s.pt / 1000000 ∧
      ((thr0 (exec (.timeoutWindowBoundary 0) s)).map fun t => (t.winCount, t.winIdx)) = some (0, 3) := ⟨rfl, by decide, by decide⟩
/-- A thread parked at 0 in a wait, 10 ms and 1 s later. -/
def hungT (w : PWait) : Thread := { wT with
  run := .wait
  walking := true
  block := [Entry.blank (.cwait 10 5 6 7 true) 0x2000000 0]
  wait := some w }
def hung (pt : Nat) : State := { at0 (hungT ⟨.counter (tcmLoc 0 0x100) 0x100 9, 10, 2 ^ 63, false, false, none, 0⟩) with pt := pt }
theorem witness_CoreEvents_hangA : ∃ t, (hung 10000001).inSlot 0 0 = some (0, t) ∧ t.reportedA = false ∧
    t.hangs (hung 10000001).pt ((hung 10000001).vc 0).hangA = true ∧
    ((after (exec (.hangReportA 0 0) (hung 10000001))).reportsDue.map fun r => (r.kind, r.val)) = [(1, 10000001)] :=
  ⟨_, rfl, rfl, by decide, by decide⟩
theorem witness_CoreEvents_hangB : ∃ t, (hung 1000000001).inSlot 0 0 = some (0, t) ∧ t.reportedB = false ∧
    t.hangs (hung 1000000001).pt ((hung 1000000001).vc 0).hangB = true ∧
    (after (exec (.hangReportB 0 0) (hung 1000000001))).log.length = 1 := ⟨_, rfl, rfl, by decide, by decide⟩
/-- A core found idle, idle for 64 ac and for 63, gated, and woken once its wait's E is near. -/
def idleCore (since : Option Nat) (pt ac : Nat) : State :=
  { hung pt with ac := ac, vcores := [(0, { VCore.reset with idleSince := since })] }
theorem witness_CoreEvents_gate : (idleCore none 0 0).coreIdle 0 = true ∧ ((idleCore none 0 0).vc 0).idleSince = none ∧
    (idleCore (some 1) 0 65).coreIdle 0 = true ∧ ((idleCore (some 1) 0 65).vc 0).clockGated = false ∧ (64 : Nat) < 1 + 64 ∧
    ((after (exec (.clockGate 0) (idleCore (some 1) 0 65))).vc 0).clockGated = true ∧
    ((after (exec (.clockGate 0) (idleCore (some 1) 0 64))).vc 0).clockGated = false := by decide
theorem witness_CoreEvents_wake : (idleCore (some 1) 0 65).wakeDue 0 = false ∧ (idleCore (some 1) (2 ^ 63 - 2000) 65).wakeDue 0 = true ∧
    ((after (exec (.coreWake 0) (idleCore (some 1) (2 ^ 63 - 2000) 65))).vc 0).idleSince = none := by decide
theorem witness_CoreEvents_stands : wS.inSlot 0 0 = some (0, wT) ∧ wS.thr 0 = some wT ∧ wT.run = .ready ∧ wT.shed = false ∧
    wS.cur = (0, 0) ∧ faultOf (exec (.illegalInstruction 0) wS) = some ⟨16, 0, 0⟩ := ⟨rfl, rfl, rfl, rfl, rfl, by decide⟩
/-- The last word of the I-store window and the first past it. -/
theorem witness_CoreEvents_fetch : (0x2008000 : Word).toNat < 0x2000000 ∨ 0x2007FFC < (0x2008000 : Word).toNat := by decide
theorem test_instructionFetchFault : faultOf (exec .instructionFetchFault (at0 { wT with pc := 0x2008000 })) = some ⟨18, 1, 0x2008000⟩ := by decide
/-- A breakpoint register of slot 0 that is armed for the thread's PC. -/
theorem witness_CoreEvents_breakpoint : let s := { wS with vcores := [(0, { VCore.reset with bps := [0x408000, 0, 0, 0] })] }
    s.inSlot 0 0 = some (0, wT) ∧ wT.run = .ready ∧ wT.shed = false ∧ s.breaks wT = true ∧
      faultOf (exec (.breakpointTrap 0 0) s) = some ⟨5, 1, 0⟩ := ⟨rfl, rfl, rfl, by decide, by decide⟩

/-- A reply to an empty register, and one to a full one. -/
def replyState (e : Option Nat) : State := { at0 { wT with empty := wT.empty.set 9 e } with replies := [⟨50, 0, 9, 0x700⟩] }
theorem witness_RepliesAndWaits_reply (e : Option Nat) (h : e = some 50 ∨ e = none) : ∃ t r, let s := replyState e
    (s.replies.find? fun (x : Reply) => x.id == 50) = some r ∧ r.id = 50 ∧ s.thr r.tid = some t ∧ t.placing r.id = false ∧ t.placed = true ∧
      t.empty.getD r.reg.toNat none = e ∧ r.reg ≠ 0 ∧ r.reg.toNat < t.x.length ∧ t.rdrop.toNat < (if t.light then 0xFFFF else 0xFFFFFFFF) := by
  rcases h with rfl | rfl <;> exact ⟨_, _, rfl, rfl, rfl, by decide, by decide, by decide, by decide, by decide, by decide⟩
theorem test_replyArrival : xOf (exec (.replyArrival 50) (replyState (some 50))) 9 = 0x700 := by decide
theorem test_replyArrival_dropped : let o := exec (.replyArrival 50) (replyState none)
    (xOf o 9, (thr0 o).map fun t => t.rdrop) = (0, some 1) := by decide
/-- A TIMEOUT reply past a limit of 0, to a thread parked on its register between blocks. -/
theorem witness_RepliesAndWaits_escalates : let t := { wT with
      empty := wT.empty.set 9 (some 50), run := .wait, wait := some ⟨.reply 9, 9, 0, false, false, none, 0⟩, tmolim := 0 }
    let s : State := { at0 t with replies := [⟨50, 0, 9, 1⟩] }
    s.thr 0 = some t ∧ t.placing 50 = false ∧ t.placed = true ∧ t.escDue = none ∧ t.tmolim.toNat < 1 ∧ t.walking = false ∧ t.block = [] ∧
      t.issued = 0 ∧ t.shed = false ∧ t.light = false ∧ t.level = 0 ∧
      ((thr0 (exec (.replyArrival 50) s)).map fun t => (t.level, t.bank0.cause, t.bank0.val)) = some (1, 2, 1) :=
  ⟨rfl, by decide, by decide, by decide, by decide, rfl, rfl, rfl, rfl, rfl, rfl, by decide⟩
theorem witness_RepliesAndWaits_posted : let s := { wS with posted := [(3, 0, ⟨20, 0, 0x100⟩, 0x2000000)], kernels := [(3, wK)] }
    s.posted[0]? = some (3, 0, ⟨20, 0, 0x100⟩, 0x2000000) ∧ s.kern 3 = some wK ∧ wK.status = none ∧ wK.st = .running ∧
      ((after (exec (.postedFaultReport 0) s)).kern 3).map (fun k => (k.st, k.status)) = some (.faulting, some 0x140107) :=
  ⟨rfl, rfl, rfl, rfl, by decide⟩
/-- CWAIT parked on a counter: met, at E; not met, after E; and of host memory, re-read. -/
def parked (loc : Nat) (target : Word) (pt : Nat) : State := 
  { (at0 wT).write loc 8 7 with pt := pt, threads := [(0, hungT ⟨.counter loc 0x100 target, 10, 100, false, true, none, 0⟩)] }
theorem witness_RepliesAndWaits_wait (pt : Nat) (target : Word) (h : (pt = 100 ∧ target = 7) ∨ (pt = 101 ∧ target = 8)) :
    let s := parked (tcmLoc 0 0x100) target pt
    ∃ t w e, s.thr 0 = some t ∧ t.run = .wait ∧ t.absent = 0 ∧ t.walking = true ∧ t.wait = some w ∧ t.susp = [] ∧ t.block = [e] ∧
      w.verdict = none ∧ w.kind = .counter (tcmLoc 0 0x100) 0x100 target ∧ w.kind.home = some (tcmLoc 0 0x100) ∧ e.Plain ∧ w.rd ≠ 0 ∧
      w.rd.toNat + 1 < t.x.length ∧ w.rd.toNat < 31 ∧ s.bad (tcmLoc 0 0x100) 8 = false ∧
      (if pt = 100 then s.pt ≤ w.deadline ∧ target.toNat ≤ s.read (tcmLoc 0 0x100) 8 else w.deadline < s.pt) := by
  rcases h with ⟨rfl, rfl⟩ | ⟨rfl, rfl⟩ <;>
    exact ⟨_, _, _, rfl, rfl, rfl, rfl, rfl, rfl, rfl, rfl, rfl, by decide, ⟨rfl, rfl, rfl, rfl, rfl, rfl, rfl⟩, by decide, by decide,
      by decide, by decide, by decide⟩
theorem test_waitConditionMet :
    pair (exec (.waitConditionMet 0) ((parked (tcmLoc 0 0x100) 8 100).write (tcmLoc 0 0x100) 8 8)) 10 = (8, 0) := by decide
theorem test_waitDeadlineExpiry : pair (exec (.waitDeadlineExpiry 0) (parked (tcmLoc 0 0x100) 8 101)) 10 = (7, 0x201) := by decide
theorem witness_RepliesAndWaits_verdict : ∀ v : Verdict, wT.migrate = none ∧ ∃ w : PWait, w.verdict = some v ∧ w.kind ≠ .monitor ∧ (∀ l, w.kind ≠ .ifence l) ∧
    ∀ p b n g o f c, w.kind ≠ .place p b n g o f c :=
  fun v => ⟨rfl, ⟨.recv 0 15, 8, 0, false, false, some v, 0⟩, rfl, by simp, by simp, by simp⟩
theorem witness_RepliesAndWaits_poll : let s := parked 0x800000000000 7 90
    ∃ t w, s.thr 0 = some t ∧ t.wait = some w ∧ t.susp = [] ∧ w.verdict = none ∧ w.kind = .counter 0x800000000000 0x100 7 ∧
      isHost 0x800000000000 = true ∧ s.bad 0x800000000000 8 = false ∧ (7 : Word).toNat ≤ s.read 0x800000000000 8 :=
  ⟨_, _, rfl, rfl, rfl, rfl, rfl, by decide, by decide, by decide⟩
/-- R73: a follow thread on core 0 whose next word is lw x5, 0(x6), with x6 naming the scratchpad of cluster 1, where its kernel
runs on core 16. -/
def followT : Thread := { lightT [(6, 0x10010C0000)] with follow := true, kernel := some 3 }
def followState : State := { (at0 followT).write (istLoc 0 0) 4 0x00032283 with
  threads := [(0, followT)], kernels := [(3, { wK with cores := [⟨16, [], 0, 0x1000, 0, 0, true⟩] })] }
/-- It moves at once where its block is empty, and else closes its block and moves once that has retired. -/
theorem witness_CoreEvents_follow (b : List Entry) (h : b = [] ∨ b = [Entry.blank (.add 8 5 6 false) 0x1FFFFFC 0]) :
    let u : Thread := { followT with block := b }
    let s : State := { followState with threads := [(0, u)], cur := (0, 4) }
    s.inSlot 0 4 = some (0, u) ∧ s.thr 0 = some u ∧ u.run = .ready ∧ u.shed = false ∧
    u.issueTrap (.lw 5 6 0 false) (scalarForm [6] [5] false) = none ∧ u.emptyRead [6] = none ∧
    s.followDest u (.lw 5 6 0 false) = some (1, 16, 4) ∧
    (thr0 (exec (.lw 5 6 0 false) s)).map (fun t => (t.place, t.followTo)) =
      some (if b = [] then (.slot 16 4, none) else (.slot 0 4, some 1)) := by
  rcases h with rfl | rfl <;> exact ⟨rfl, rfl, rfl, rfl, by decide, by decide, by decide, by decide⟩
theorem witness_CoreEvents_followMove (c : Nat) (h : c = 1 ∨ c = 2) : let u : Thread := { followT with followTo := some c }
    let s : State := { followState with threads := [(0, u)] }
    s.inSlot 0 4 = some (0, u) ∧ s.thr 0 = some u ∧ u.run = .ready ∧ u.shed = false ∧ u.block = [] ∧ u.followTo = some c ∧
    s.followSlot u c = (if c = 1 then some (16, 4) else none) ∧
    (thr0 (exec (.followMove 0 4) s)).map (fun t => t.place) = some (if c = 1 then .slot 16 4 else .slot 0 4) := by
  rcases h with rfl | rfl <;> exact ⟨rfl, rfl, rfl, rfl, rfl, rfl, by decide, by decide⟩
theorem witness_CoreEvents_followFetch : (followState.fetch followT).toOption = some 0x00032283 := by decide

/-- A stream of 20 elements of 2 bytes at 0x100, its engine context resident; one that needs the engine; a pop past its E. -/
def streamT (r : Run) (w : Option PWait) : Thread := { wT with
  run := r
  wait := w
  streams := wT.streams.set 0 (some { bound0 with base := 0x100 }) }
def streamAt (r : Run) (w : Option PWait) (res : List Nat) (pt : Nat) : State :=
  { withTcm (at0 wT) 0x100 7 with threads := [(0, streamT r w)], vcores := [(0, { VCore.reset with resident := res })], pt := pt }
theorem witness_StreamsMove_ready : let s := streamAt .ready none [0] 0
    ∃ x, s.inSlot 0 0 = some (0, streamT .ready none) ∧ (streamT .ready none).streams.getD 0 none = some x ∧ s.streamsIn (streamT .ready none) = true ∧
      x.append = false ∧ x.fetchPos < x.total ∧ (streamT .ready none).lateOn 0 s.pt = false ∧ s.mayFetch (streamT .ready none) 0 = true ∧
      ((s.streamVec (streamT .ready none) x x.fetchPos).all fun r => match r with
        | .ok p => !s.noDevice p.1
        | .error _ => false) = true := ⟨_, rfl, rfl, by decide, rfl, by decide, by decide, by decide, by decide⟩
theorem test_streamDataReady : ((thr0 (exec (.streamDataReady 0 0 0) (streamAt .ready none [0] 0))).bind fun t => (t.streams.getD 0 none).map fun x =>
    x.ready.map fun y => (y.pos, laneOf y.vec 16 0)) = some [(0, 7)] := by decide
/-- A pop that waits until 50. -/
def popWait : PWait := ⟨.stream 0, 0, 50, false, false, none, 0⟩
theorem witness_StreamsMove_deadline : let s := streamAt .wait (some popWait) [] 51
    s.inSlot 0 0 = some (0, streamT .wait (some popWait)) ∧ (streamT .wait (some popWait)).run = .wait ∧
      (streamT .wait (some popWait)).walking = false ∧ popWait.deadline < s.pt ∧
      ((thr0 (exec (.streamDeadline 0 0) s)).map fun t => (t.sbstat, t.run)) = some (16, .ready) := ⟨rfl, rfl, rfl, by decide, by decide⟩
theorem witness_StreamsMove_drain : let s := streamAt .wait (some popWait) [] 0
    (s.threads.find? fun e => e.2.vcore == 0 && s.needsEngine e.2) = some (0, streamT .wait (some popWait)) ∧
      (s.vc 0).resident.length < 2 ∧ ((after (exec (.streamContextDrain 0) s)).vc 0).resident = [0] := ⟨rfl, by decide, by decide⟩
/-- The context of a shed thread is still in the engine. -/
theorem witness_StreamsMove_shed : let s : State := { streamAt .ready none [0] 0 with threads := [(0, { streamT .ready none with shed := true })] }
    s.shedContext 0 = some 0 ∧ ((after (exec (.streamContextDrain 0) s)).vc 0).resident = [] ∧
      (streamT .ready none).binds 0 = false := by decide

/-- A packet of vcore 0 to vcore 2 that stands first on its path, from an EVSEND of thread 0 that has sent it. -/
def pkt (f : Origin) (a : Option Bool) : Packet := ⟨60, 0, 2, 0, 0x5000000000010201, f, a, false, 0, 0⟩
def evsendT : Thread := (((atWalk (.evsend 8 6 7 true) (at0 (full [(6, 2), (7, 0x5000000000010201)]))).thr 0).map fun t =>
  { t with block := t.block.map fun e => { e with phase := .accepted } }).getD wT
def pktState (p : Packet) (ev : Word) (own : Option Nat) : State :=
  { at0 evsendT with packets := [p], inboxes := [(2, { Inbox.reset with evcfg := ev, owner := own })], sdus := [(0, sdu0)] }
theorem witness_PacketsTravel_arrival (ev : Word) (own : Option Nat) (h : (ev = 512 ∧ own = none) ∨ (ev = 0x1000000000020 ∧ own = some 0)) :
    let p := pkt (.evsend 0) none
    let s := pktState p ev own
    (s.packets.find? fun q => q.id == p.id) = some p ∧ (s.packets.find? fun q => q.src == p.src && q.dst == p.dst && q.answer.isNone &&
      !q.resend && fieldOf q.word 52 12 == fieldOf p.word 52 12 && packetClass q.word == packetClass p.word) = some p ∧ s.moving = none ∧
      s.riding (.packet p.id) = false ∧ s.detGate p.ctx p.detKey = true ∧
      ((fieldOf (s.inbox 2).evcfg 48 1 = 0 ∧ own = none) ∨ (fieldOf (s.inbox 2).evcfg 48 1 = 1 ∧ (s.inbox 2).owner = some p.ctx ∧
        isMarker p.word = false ∧ fieldOf p.word 8 8 ≠ 0x80 ∧ (s.inbox 2).q = [[], [], [], []] ∧ 0 < fieldOf (s.inbox 2).evcfg 0 10 ∧
        fieldOf (s.inbox 2).evcfg 16 8 + fieldOf (s.inbox 2).evcfg 24 8 + fieldOf (s.inbox 2).evcfg 32 8 +
          fieldOf (s.inbox 2).evcfg 40 8 < fieldOf (s.inbox 2).evcfg 0 10 ∧ s.receivers 2 = [])) := by
  rcases h with ⟨rfl, rfl⟩ | ⟨rfl, rfl⟩ <;> exact ⟨by decide, by decide, rfl, by decide, by decide, by decide⟩
theorem test_eventPacketArrival : let s := after (exec (.eventPacketArrival 60) (pktState (pkt (.evsend 0) none) 0x1000000000020 (some 0)))
    (s.packets.map fun q => q.answer, (s.inbox 2).q) = ([some true], [[0x5000000000010201], [], [], []]) := by decide
theorem test_eventPacketArrival_refused : (after (exec (.eventPacketArrival 60) (pktState (pkt (.evsend 0) none) 512 none))).packets.map
    (fun q => q.answer) = [some false] := by decide
/-! Packets to a thread of context 0 on vcore 2, with given contents of the inbox. -/
def inboxState (w : Word) (ev : Word) (q : List (List Word)) : State :=
  { pktState { pkt (.evsend 0) none with word := w } ev (some 0) with
    inboxes := [(2, { Inbox.reset with evcfg := ev, owner := some 0, q := q })] }
/-- The answer and the class-0 queue. -/
def arrives (w : Word) (ev : Word) (q : List (List Word)) : List (Option Bool) × List Word :=
  let s := after (exec (.eventPacketArrival 60) (inboxState w ev q))
  (s.packets.map fun q => q.answer, (s.inbox 2).q.getD 0 [])
/-- A code of 2 merges with the latest packet of its flow, up to a sum of 127 and to 7 merges, in a full inbox too; where it does
not it is appended where there is room: of a capacity of 2 one place is left, and none (R195). -/
theorem witness_PacketsTravel_merge : let w : Word := 0x5000000000010201
    let a := arrives w 0x1000000000001
    (a [[0x5000000000017D01], [], [], []] , a [[0x5000000000017E01], [], [], []], a [[0x500000000001010F], [], [], []]) =
        (([some true], [0x5000000000017F03]), ([some false], [0x5000000000017E01]), ([some false], [0x500000000001010F])) ∧
      arrives w 0x1000000000002 [[0x5000000000017E01], [], [], []] = ([some true], [0x5000000000017E01, w]) := by decide
/-- A code of 0x80 is kept as 0x81 with FIX; the sixty-fourth marker is kept and the next refused. -/
theorem witness_PacketsTravel_kinds : arrives 0x5000000000018001 0x1000000000001 [[], [], [], []] = ([some true], [0x5000000000018181]) ∧
    (let m : Word := 0x5000000000010041
     isMarker m = true ∧ (arrives m 0x1000000000000 [List.replicate 63 m, [], [], []]).1 = [some true] ∧
      (arrives m 0x1000000000000 [List.replicate 64 m, [], [], []]).1 = [some false]) := by decide +kernel
theorem witness_PacketsTravel_settles (a : Bool) : let s := pktState (pkt (.evsend 0) (some a)) 512 none
    (s.packets.find? fun q => q.id == 60 && q.answer == some a) = some (pkt (.evsend 0) (some a)) ∧ s.riding (.packet 60) = false ∧ s.thr 0 = some evsendT ∧
      evsendT.walking = true ∧ (evsendT.block.map fun e => (e.phase, e.ins)) = [(.accepted, .evsend 8 6 7 true)] := by
  cases a <;> exact ⟨by decide, by decide, rfl, rfl, rfl⟩
/-- R320, R321: from die 0 to die 1 clockwise, a packet enters the slots of the next stop and leaves the ring there; meanwhile
it does not arrive. Ten hops go clockwise, eleven the other way. -/
def ringState : State := (pktState (pkt (.evsend 0) none) 512 none).ringPost 60 0 256 1 false
theorem test_ring : ((ringState.ringHop 1).stop 2).cw.map (fun f => f.msg) = [.packet 60] ∧ (ringState.ringHop 1).riding (.packet 60) = true ∧
    ((ringState.ringHop 1).ringHop 2).riding (.packet 60) = false ∧
    (after (exec (.eventPacketArrival 60) (ringState.ringHop 1))).packets.map (fun q => q.answer) = [none] := by decide
theorem test_ringWay : clockwise 1 11 = true ∧ clockwise 1 12 = false := by decide
theorem test_packetAck : xOf (exec (.packetAck 60) (pktState (pkt (.evsend 0) (some true)) 512 none)) 8 = 0 := by decide
theorem test_packetNack : xOf (exec (.packetNack 60) (pktState (pkt (.evsend 0) (some false)) 512 none)) 8 = 4 := by decide
/-- A change of 8 that slot 0 has sent is taken back. -/
theorem witness_PacketsTravel_takesBack : let s := pktState (pkt (.sdstep 0 0 8 0 0) (some false)) 512 none
    (s.packets.find? fun q => q.id == 60 && q.answer == some false) = some (pkt (.sdstep 0 0 8 0 0) (some false)) ∧ 0 < ((s.sdu 0).slot 0).2.length ∧
      ((after (exec (.packetNack 60) s)).sdu 0).sent 0 0 = -8 := by decide
theorem witness_PacketsTravel_resend : let p := { pkt (.marker 0 0 0) none with resend := true }
    let s := pktState p 512 none
    (s.packets.find? fun q => q.id == 60 && q.resend) = some p ∧ s.stalled = false ∧ (after (exec (.markerResend 60) s)).packets = [{ p with resend := false }] := by decide
theorem witness_PacketsTravel_marker : let u := { sdu0 with steps := [⟨0, 0, 0, 0, false, 0⟩] }
    let s := { at0 wT with sdus := [(0, u)] }
    (u.steps.find? fun k => k.range == 0) = some ⟨0, 0, 0, 0, false, 0⟩ ∧ (⟨0, 0, 0, 0, false, 0⟩ : SdStep).marking = false ∧ s.stalled = false ∧ (s.packets = []) ∧
      (∃ d ∈ List.range 4, ((u.range 0).dests.getD d ⟨false, 0, 0, 0⟩).valid = true) ∧
      (after (exec (.stepMarkerSend 0 0) s)).packets.map (fun q => (q.dst, isMarker q.word)) = [(2, true)] :=
  ⟨by decide, rfl, by decide, rfl, by decide, by decide⟩

/-- A copy command of 64 bytes in vcore 0's TCM, in each of its states. -/
def copyCmd (st : CmdSt) : Cmd := { oneCmd with st := st, body := [0x100, 0, 64, 0x400, 0, 0, 0, 0], spads := [], reg := some 9, deadline := 900 }
def cmdState (c : Cmd) (pt : Nat) : State := { withTcm (at0 wT) 0x100 7 with cmds := [c], pt := pt }
theorem witness_EnginesWork_start : let c := copyCmd .queued
    let s := cmdState c 900
    (s.cmds.find? fun x => x.id == c.id) = some c ∧ s.stalled = false ∧ (∀ v ∈ c.members, s.vcoreMoving v = false) ∧
      s.pt ≤ c.deadline ∧ s.detGate c.ctx (s.cmdKey c) = true ∧ s.mayStart c = true ∧ (after (exec (.commandStart 50 1) s)).cmds.length = 1 :=
  ⟨by decide, by decide, by decide, by decide, by decide, by decide, by decide⟩
theorem witness_EnginesWork_deadline : let c := copyCmd .running
    let s := cmdState c 900
    (s.cmds.find? fun x => x.id == c.id) = some c ∧ c.deadline ≤ s.pt ∧
      (after (exec (.commandDeadline 50) s)).cmds.map (fun c => (c.st, c.code)) = [(.completing, some 1)] := by decide
theorem witness_EnginesWork_completion : let c := { copyCmd .completing with code := some 11, detail := 2 }
    let s := cmdState c 0
    (s.cmds.find? fun x => x.id == c.id) = some c ∧ s.writesHeld c = false ∧ s.detGate c.ctx (s.cmdKey c) = true ∧
      (let s' := after (exec (.commandCompletion 50) s)
       (s'.cmds, s'.replies.map fun r => (r.id, r.reg, r.status)) = ([], [(50, 9, 0x20B)])) := by decide

/-- SDCFG of range 3 of vcore 0: base 16, 4 slots, s = 1, channel 9, class 2, a destination. -/
def sdcfgCmd : Cmd := { oneCmd with eng := .sdu 0, op := 0, spads := [], body := [0, 0x2009000020040103, 0x8000000000000002, 0, 0, 0, 0, 0] }
theorem witness_EnginesWork_sdcfg : let s := cmdState sdcfgCmd 0
    (s.cmds.find? fun x => x.id == sdcfgCmd.id) = some sdcfgCmd ∧ s.stalled = false ∧ (∀ v ∈ sdcfgCmd.members, s.vcoreMoving v = false) ∧
      s.detGate 0 (s.cmdKey sdcfgCmd) = true ∧
      fieldOf (sdcfgCmd.dw 1) 0 3 = 3 ∧ s.rangeQuiet 0 3 = true ∧ (s.sdu 0).refuses 0 sdcfgCmd.body = none ∧ (s.sdu 0).ranges.length = 8 ∧
      (∃ d ∈ sdcfgDests sdcfgCmd.body, d.valid = true) ∧
      (let r := ((after (exec (.commandStart 50 1) s)).sdu 0).range 3
       (r.enabled, r.base, r.count, r.shift, r.channel, r.cls) = (true, 16, 4, 1, 9, 2)) := by decide
/-- A completion add of 5 to the counter at 0x100 (which holds 7). -/
def addCmd : Cmd := { copyCmd .completing with body := [0x100, 0, 64, 0x400, 0, 0, 0x0140000000000100, 0] }
theorem witness_EnginesWork_add : let s := cmdState addCmd 0
    (s.cmds.find? fun x => x.id == addCmd.id) = some addCmd ∧ s.writesHeld addCmd = false ∧ s.detGate 0 (s.cmdKey addCmd) = true ∧
      addCmd.inc = 5 ∧ addCmd.counterVa = 0x100 ∧ s.bad (tcmLoc 0 0x100) 8 = false ∧ s.isMoving (tcmLoc 0 0x100) = false ∧
      isRemote (tcmLoc 0 0x100) = false ∧ isReg (tcmLoc 0 0x100) = false ∧ s.locked (tcmLoc 0 0x100) 8 = false ∧ s.read (tcmLoc 0 0x100) 8 + addCmd.inc < 2 ^ 64 ∧
      (after (exec (.commandCompletion 50) s)).read (tcmLoc 0 0x100) 8 = 12 := by decide
theorem witness_EnginesWork_addPlace : ∃ ls, (cmdState addCmd 0).engLocs addCmd 0x100 8 .ewrite = .ok (tcmLoc 0 0x100 :: ls) ∧
    MemoryCanonical (cmdState addCmd 0) := ⟨_, rfl, by unfold MemoryCanonical; decide⟩
theorem witness_EnginesWork_abort : let c := { oneCmd with eng := .collective 1, body := [0, 0, 0, 0x500000000, 0, 0, 0, 0] }
    let s := cmdState c 0
    (s.cmds.find? fun x => x.id == c.id) = some c ∧ c.comm = 5 ∧
      (after (exec (.collectiveAbort 1 5) s)).cmds.map (fun c => (c.st, c.code)) = [(.completing, some 7)] := by decide
/-- Context 1's table in die SRAM: the top node at 0x10000, its second level at 0x20000 with a 512 MiB leaf for 0x4000_0000. -/
def walkable : State := (({ wS with ctxs := [(1, ⟨[0x10000, 0, 0, 1, 0, 0, 0, 0], false⟩)] }).write 0x10000 8 0x20001).write 0x20010 8 0x10000000027
theorem witness_EnginesWork_walk : walkable.cached 5 1 0x40000123 = none ∧ (walkable.tlb.filter fun x => x.st == 5).length < 8192 ∧
    leafAllows 0x10000000027 .read = true ∧
    (after (exec (.pageWalk 5 1 0x40000123 .read) walkable)).tlb = [⟨5, 1, 0x40000000, 0x20000000, 0x10000000027⟩] := by decide
theorem witness_EnginesWork_leaf : (walkable.walk 1 0x40000123 0).toOption = some (0x10000000027, 0x20000000) := by decide
/-- Station commands over the page of 0x4000_0000 of context 1. -/
def stationCmd (op : Nat) (st : CmdSt) : Cmd :=
  { oneCmd with eng := .stations, op := op, spads := [], st := st, body := [0, 0x40000000, 0x100000001, 0, 0x10000, 0, 0, 0] }
theorem witness_EnginesWork_shoot : let c := stationCmd 0 .queued
    let s := { cmdState c 0 with tlb := [⟨5, 1, 0x40000000, 0x10000, 0x27⟩, ⟨5, 2, 0x40000000, 0x10000, 0x27⟩] }
    (s.cmds.find? fun x => x.id == c.id) = some c ∧ c.pageCtx = 1 ∧
      (after (exec (.shoot 50) s)).tlb = [⟨5, 2, 0x40000000, 0x10000, 0x27⟩] := by decide
theorem witness_EnginesWork_shootEnds : let c := stationCmd 0 .running
    let s := cmdState c 0
    (s.cmds.find? fun x => x.id == c.id) = some c ∧ s.storeBuf = [] ∧
      (after (exec (.shoot 50) s)).cmds.map (fun c => c.st) = [.completing] := by decide
theorem witness_EnginesWork_wake : let c := stationCmd 1 .queued
    let x := { oneCmd with id := 51, ctx := 1, st := .paused 0x40000040 }
    let s := { cmdState c 0 with cmds := [x, c] }
    (s.cmds.find? fun x => x.id == c.id) = some c ∧ c.covers (0x40000040 / 65536 * 65536) 65536 = true ∧
      (∀ y ∈ s.cmds, y.id = c.id → y = c) ∧
      ((after (exec (.wake 50) s)).cmds.find? fun c => c.id == 51).map (fun c => c.st) = some .running := by decide
/-- MOVE of frame 0 to frame 0x10000 takes along the wait on a counter at 0x100. -/
theorem witness_EnginesWork_move : let c := stationCmd 2 .queued
    let s := { parked 0x100 9 0 with cmds := [c] }
    (s.cmds.find? fun x => x.id == c.id) = some c ∧ (c.dw 3).toNat ≤ 0x100 ∧ 0x100 < (c.dw 3).toNat + fieldOf (c.dw 2) 0 32 * 65536 ∧
      (thr0 (exec (.move 50) s)).bind (fun t => t.wait.map fun w => w.kind) = some (.counter 0x10100 0x100 9) := by decide

/-- What a command that works meets. -/
def working (s : State) (c : Cmd) : Bool :=
  (s.cmds.find? fun x => x.id == c.id) == some c && !s.stalled && (c.members.all fun v => !s.vcoreMoving v) && decide (s.pt ≤ c.deadline) &&
    s.detGate c.ctx (s.cmdKey c)
/-- A matrix command on tile 0 of vcore 0, and an INT32 tile of a context. -/
def tileCmd (op : Nat) (st : CmdSt) (body : List Word) : Cmd :=
  { oneCmd with eng := .matrix 0, op := op, st := st, spads := [], body := 0 :: body ++ List.replicate (7 - body.length) 0 }
def tile9 (ctx : Nat) : Tile := ⟨1, ctx, 0, List.replicate 256 9⟩
def tilesState (c : Cmd) (t : List (Nat × Tile)) : State := { cmdState c 0 with tiles := t }
/-- TCFG of tile 0 as INT32, zeroed: Free, the context's own, and another context's; then TREL and MZERO of it. -/
theorem witness_EnginesWork_tcfg (t : List (Nat × Tile)) (h : t = [] ∨ t = [(0, tile9 0)] ∨ t = [(0, tile9 7)]) :
    let c := tileCmd 7 .queued [1, 5]
    let s := tilesState c t
    working s c = true ∧ s.mayStart c = true ∧ c.accTiles = [0] ∧
      (let s' := after (exec (.commandStart 50 1) s)
       (s'.cmds.map (fun c => (c.st, c.code, c.detail)), s'.tiles) =
        if t = [(0, tile9 7)] then ([(.completing, some 11, 3)], t) else ([(.completing, none, 0)], [(0, ⟨1, 0, 0, List.replicate 256 0⟩)])) := by
  rcases h with rfl | rfl | rfl <;> decide +kernel
theorem witness_EnginesWork_trel : let c := tileCmd 8 .queued [1]
    working (tilesState c [(0, tile9 0)]) c = true ∧ (tilesState c [(0, tile9 0)]).mayStart c = true ∧
      (after (exec (.commandStart 50 1) (tilesState c [(0, tile9 0)]))).tiles = [] := by decide
theorem witness_EnginesWork_mzero : let c := tileCmd 4 .queued [1]
    working (tilesState c [(0, tile9 0)]) c = true ∧ (tilesState c [(0, tile9 0)]).mayStart c = true ∧
      (after (exec (.commandStart 50 1) (tilesState c [(0, tile9 0)]))).tiles = [(0, ⟨1, 0, 0, List.replicate 256 0⟩)] := by decide +kernel
/-- MMA of one row, column and depth, INT8: A at tile 0's scratchpad, B behind it. -/
def mmaCmd (st : CmdSt) : Cmd := { tileCmd 0 st [0x1000000, 0x1000100, 0, 0x100010001] with mfmt := 0x22 }
def mmaState (st : CmdSt) : State :=
  let s := tilesState (mmaCmd st) [(0, tile9 0)]
  { (s.write (spadLoc 0 0) 1 0xFD).write (spadLoc 0 0x100) 1 5 with owned := [0] }
theorem witness_EnginesWork_compute : working (mmaState .queued) (mmaCmd .queued) = true ∧ (mmaState .queued).mayStart (mmaCmd .queued) = true ∧
    (mmaCmd .queued).computes = true ∧ (mmaState .queued).thr 0 = some wT ∧
    (let s' := after (exec (.commandStart 50 1) (mmaState .queued))
     (s'.cmds.map fun c => c.st, (s'.thr 0).map fun t => t.mprogOf)) = ([.running], some (some 50)) := by decide
/-- The slice: 9 + (−3) × 5 = −6 in element 0 alone. -/
theorem witness_EnginesWork_slice : let c := mmaCmd .running
    (mmaState .running).sliceStop c 0 = none ∧ c.skips 0 = false ∧ (c.blocks.map fun b => b.key) = [0] ∧ c.afmt = 2 ∧ c.bfmt = 2 ∧
      (let s' := after (exec (.commandStart 50 1) (mmaState .running))
       (s'.cmds.map (fun c => (c.st, c.units)), s'.tiles.map fun t => (t.2.el.getD 0 0, t.2.el.getD 1 0))) = ([(.completing, 1)], [(0xFFFFFFFA, 9)]) := by
  decide +kernel
/-- MMA.BS whose only slice is skipped. -/
theorem witness_EnginesWork_skips : ({ mmaCmd .running with op := 1 } : Cmd).skips 0 = true ∧ ({ mmaCmd .running with op := 1 } : Cmd).computes = true := by
  decide
/-- MLDA of row 0 and columns 0 and 1 from the TCM; MSTA of element 1 as INT8. -/
theorem witness_EnginesWork_mlda : let c := tileCmd 5 .running [0x100, 64, 0x30001]
    let s := (tilesState c [(0, tile9 0)]).write (tcmLoc 0 0x104) 4 77
    working s c = true ∧ c.nextRow = some 0 ∧ c.computes = false ∧ (c.rowElems 0).length = 2 ∧
      (let s' := after (exec (.commandStart 50 1) s)
       s'.tiles.map fun t => (t.2.el.getD 0 0, t.2.el.getD 1 0, t.2.el.getD 2 0)) = [(7, 77, 9)] := by decide +kernel
theorem witness_EnginesWork_msta : let c := { tileCmd 6 .running [0x100, 64, 0x20001] with body := [0x1000000000, 0x100, 64, 0x20001, 0, 0, 0, 0] }
    let s := tilesState c [(0, ⟨1, 0, 0, (List.replicate 256 9).set 1 0xFFFFFF00⟩)]
    working s c = true ∧ c.out = 4 ∧ c.rowElems 0 = [(1, 0x101)] ∧
      (let s' := after (exec (.commandStart 50 1) s)
       s'.read (tcmLoc 0 0x100) 2) = 0x8007 := by decide +kernel

/-- A running copy or Ladle command: operation, FLAGS and its doublewords 1 to 5. -/
def unitCmd (eng : Eng) (op : Nat) (flags : Word) (body : List Word) : Cmd :=
  { oneCmd with eng := eng, op := op, st := .running, spads := [], body := (flags <<< 34) :: body ++ List.replicate (7 - body.length) 0 }
/-- Its first unit in a state whose TCM holds 7 at 0x100, 0x44332211 at 0x200 and 1 at 0x300: the units done and 8 bytes at 0x400. -/
def unitState (c : Cmd) : State :=
  ((cmdState c 0).write (tcmLoc 0 0x200) 8 0x44332211).write (tcmLoc 0 0x300) 8 1
def unitOf (c : Cmd) : List (CmdSt × Nat) × Nat :=
  let s := after (exec (.commandStart 50 1) (unitState c))
  (s.cmds.map fun c => (c.st, c.units), s.read (tcmLoc 0 0x400) 8)
/-- COPY1, a row of COPY2, an element of COPYX by index 1, and CFILL. -/
theorem witness_EnginesWork_copies :
    let c1 := unitCmd (.copy 0) 0 0 [0x200, 0x400, 4]
    let c2 := unitCmd (.copy 0) 1 0 [0x201, 0x400, 0x200000001, 0]
    let cx := unitCmd (.copy 0) 2 0 [0x201, 0x300, 0x400, 1]
    let cf := unitCmd (.copy 0) 3 0 [0x1234, 0x400, 8]
    ([c1, c2, cx, cf].all fun c => working (unitState c) c && c.st == .running && c.eng == .copy 0) = true ∧
      unitOf c1 = ([(.completing, 1)], 0x44332211) ∧ unitOf c2 = ([(.completing, 1)], 0x3322) ∧ unitOf cx = ([(.completing, 1)], 0x33) ∧
      unitOf cf = ([(.completing, 1)], 0x1234) := by decide +kernel
theorem witness_EnginesWork_writes : let c := unitCmd (.copy 0) 0 0 [0x200, 0x400, 4]
    ((unitState c).engLocs c 0x400 4 .ewrite).toOption = some ((List.range 4).map fun i => tcmLoc 0 (0x400 + i)) ∧
      MemoryCanonical (unitState c) ∧ (unitState c).locks = [] := ⟨by decide, by unfold MemoryCanonical; decide, rfl⟩
/-- A ring of one row whose P at 0x300 is 1 past its C at 0x308 is full; a page that is not present; a line another command holds locked. -/
theorem witness_EnginesWork_waits :
    let c := unitCmd (.copy 0) 1 3 [0x200, 0x400, 0x400000002, 0, 0x300]
    let p := unitCmd (.copy 0) 0 0 [0x80000000, 0x400, 4]
    let l := unitCmd (.copy 0) 3 0 [0x1234, 0x80000000, 8]
    let sl := { unitState l with tlb := [⟨0, 0, 0x80000000, 0x10000, 0x27⟩], locks := [(0, 77, 0)] }
    bitAt c.flags 0 = true ∧ c.flags / 2 = 1 ∧
      (after (exec (.commandStart 50 1) (unitState c))).cmds.map (fun c => c.units) = [0] ∧
      (let s := after (exec (.commandStart 50 1) (unitState p))
       (s.cmds.map fun c => c.st, s.reportsDue.map fun r => (r.kind, r.val)) = ([.paused 0x80000000], [(3, 0x80000000)])) ∧
      (after (exec (.commandStart 50 1) sl)).cmds.map (fun c => c.units) = [0] := by decide +kernel
/-- QNT8 of the FP32 element −127 has scale 1, in BF16; DQNT gives it back; an infinity gives the scale 0x7FC0 and report 1. -/
theorem witness_EnginesWork_ladle :
    let q := unitCmd (.ladle 0) 0 0 [0x500, 0x400, 0x600, 1]
    let d := unitCmd (.ladle 0) 2 0 [0x500, 0x400, 0x600, 1]
    let u := fun (c : Cmd) (x y : Nat) => after (exec (.commandStart 50 1) (((unitState c).write (tcmLoc 0 0x500) 4 x).write (tcmLoc 0 0x600) 2 y))
    (working (unitState q) q && working (unitState d) d && q.st == .running && d.st == .running) = true ∧
      ((u q 0xC2FE0000 0).read (tcmLoc 0 0x400) 1, (u q 0xC2FE0000 0).read (tcmLoc 0 0x600) 2) = (0x81, 0x3F80) ∧
      (u d 0x81 0x3F80).read (tcmLoc 0 0x400) 4 = 0xC2FE0000 ∧
      ((u q 0x7F800000 0).read (tcmLoc 0 0x600) 2, (u q 0x7F800000 0).cmds.map fun c => c.detail) = (0x7FC0, [1]) := by decide +kernel

/-- CRED of one rank on communicator 0 of IO die 0: one INT32 element. -/
theorem witness_EnginesWork_cred :
    let c := { oneCmd with eng := .collective 0, op := 0, st := .running, spads := [], body := [0, 0x100, 0x400, 1, 0, 0, 0, 0] }
    let s := { cmdState c 0 with comms := [(0, [0x10100])] }
    s.ranks c = 1 ∧ s.myRank c = 0 ∧ c.collSize = 4 ∧
      (let s' := after (exec (.commandStart 50 1) s)
       (s'.cmds.map fun c => (c.st, c.units), s'.read (tcmLoc 0 0x400) 8)) = ([(.completing, 1)], 7) := by decide +kernel
/-- SDRST of range 0, while a step of it is open and after. -/
def sdrstCmd : Cmd := { oneCmd with eng := .sdu 0, op := 1, spads := [], body := [0, 0x101, 0, 0, 0, 0, 0, 0] }
theorem witness_EnginesWork_sdrst (steps : List SdStep) (h : steps = [] ∨ steps = [⟨0, 0, 0, 0, false, 0⟩]) :
    let s := { cmdState sdrstCmd 0 with sdus := [(0, { sdu0 with steps := steps })] }
    sdrstCmd.st = .running ∧ fieldOf (sdrstCmd.dw 1) 0 8 = 1 ∧ s.rangeQuiet 0 0 = decide (steps = []) ∧ (s.sdu 0).owner = some 0 ∧
      (let s' := after (exec (.commandStart 50 1) s)
       (s'.cmds.map fun c => c.st, ((s'.sdu 0).range 0).enabled)) = if steps = [] then ([.completing], false) else ([.running], true) := by
  rcases h with rfl | rfl <;> decide
/-- A queued copy of a kernel that ends after a fault does not start (R287). -/
theorem witness_EnginesWork_faulting : let c := { copyCmd .queued with kernel := some 3 }
    let s := { cmdState c 0 with kernels := [(3, { wK with st := .faulting })] }
    c.st = .queued ∧ s.faulting c = true ∧ (after (exec (.commandStart 50 1) s)).cmds.map (fun c => c.st) = [.queued] := by decide
/-- A SHOOT waits for the pinned store it covers, taken by its old entry before it, and for no later one (R316). -/
theorem witness_EnginesWork_shootWaits (n : Nat) (h : n = 1 ∨ n = 9) : let c := { stationCmd 0 .running with deadline := 9 }
    let p : PStore := { oneStore with ctx := 1, va := 0x40000000, pinned := n }
    let s := { cmdState c 0 with storeBuf := [p] }
    c.pageCtx = 1 ∧ c.covers p.va p.size = true ∧
      (after (exec (.shoot 50) s)).cmds.map (fun c => c.st) = [if n = 9 then .completing else .running] := by
  rcases h with rfl | rfl <;> decide
/-- An earlier command of its class, and one of class 0, go first (R213). -/
theorem witness_EnginesWork_turn : let c := stationCmd 0 .queued
    let s := fun x => { cmdState c 0 with cmds := [x, c] }
    (cmdState c 0).turnComes c = true ∧ (s { c with id := 49 }).turnComes c = false ∧
      ({ cmdState c 0 with cmds := [{ c with cls := 2 }, { c with id := 51 }] } : State).turnComes { c with cls := 2 } = false := by decide

/-! A queue whose slots, counts and status array lie in vcore 2's TCM, reached through the fabric window. -/
def qDesc : List Word := [0x1000200000, 0x1000200800, 0x1000200808, 0x1000201000, 2, 0, 0, 0]
/-- One thread on die 0, an image of 4 bytes at 0x8000_0000, no precondition; the CRC computed apart from the model. -/
def qPacket : List Word := [0x1010000000000, 0x80000000, 0x100010004, 0, 0, 0, 77, 0x30CDF8BD00000000]
def qOf (st : QSt) (taken : Nat) (last : Option Nat) (pre : Bool) : Queue := 
  { Queue.fresh qDesc 0 with
    st := st
    taken := taken
    pubs := [(1, 0)]
    lastRead := last
    translated := true
    hold := 100
    preMet := pre
    packet := if st = .reading then [] else qPacket }
def qState (x : Queue) (pt : Nat) : State :=
  let s := (List.range 8).foldl (fun (s : State) n => s.write (tcmLoc 2 (8 * n)) 8 (qPacket.getD n 0).toNat) { State.reset with nextId := 9, pt := pt }
  { s.write (tcmLoc 2 0x800) 8 1 with
    ctxs := [(0, ⟨[0, 0, 4, 0x3D, 0, 0, 0, 0], false⟩)], boot := { Boot.reset with stage := 4 }, qtab := [(0, qDesc)], queues := [(0, x)]
    tlb := [⟨128, 0, 0x80000000, 0x10000, 0x2F⟩] }
theorem witness_QueuesServe_register : (0 : Nat) < 4 ∧ (5 : Nat) < 64 ∧ 3 ≤ (qState (qOf .idle 0 none false) 0).boot.stage ∧
    (qState (qOf .idle 0 none false) 0).boot.stage ≠ 15 ∧ (queueDesc qDesc).getD 0 0 ≠ 0 ∧ fieldOf ((queueDesc qDesc).getD 4 0) 0 4 ≤ 12 ∧
    (qState (qOf .idle 0 none false) 0).resident (fieldOf ((queueDesc qDesc).getD 4 0) 4 6) = true ∧
    ((after (exec (.queueRegister 0 5 qDesc) (qState (qOf .idle 0 none false) 0))).queue 0 5).map (fun x => (x.st, x.taken)) = some (.idle, 0) := by
  decide
theorem witness_QueuesServe_kick : let s := qState (qOf .idle 0 none false) 0
    s.queue 0 0 = some (qOf .idle 0 none false) ∧ s.published 0 (qOf .idle 0 none false) = some 1 ∧ 3 ≤ s.boot.stage ∧ s.boot.stage ≠ 15 ∧
      ((after (exec (.queueKick 0 0) s)).queue 0 0).map (fun x => x.st) = some .reading := by decide
theorem witness_QueuesServe_resume (st : QSt) : (qState (qOf st 0 none false) 0).queue 0 0 = some (qOf st 0 none false) := rfl
theorem test_queueResume : ((after (exec (.queueResume 0 0) (qState (qOf (.stale 1) 0 none false) 0))).queue 0 0).map (fun x => x.st) = some .reading := by
  decide
theorem witness_QueuesServe_read : let x := qOf .reading 0 none false
    let s := qState x 0
    s.queue 0 0 = some x ∧ x.st = .reading ∧ x.packet = [] ∧ x.lastRead = none ∧ s.published 0 x = some 1 ∧ 1 - x.taken ≤ x.size ∧
      packetMatches qPacket x.taken = true ∧ (s.qpTouch 0 x.ctx x.slotVa .read).yields 0 0 (pkClass qPacket) = false ∧ s.packetCheck x qPacket = none ∧
      ((after (exec (.packetReread 0 0) s)).queue 0 0).map (fun x => (x.st, x.taken)) = some (.holding, 1) := by decide +kernel
theorem witness_QueuesServe_slot : ((qState (qOf .reading 0 none false) 0).slotRead 0 (qOf .reading 0 none false)).toOption = some (some qPacket) := by
  decide
/-- The same slot read as packet 1's of a queue of one slot does not match. -/
theorem witness_QueuesServe_mismatch : packetMatches qPacket 1 = false := by decide
theorem witness_QueuesServe_stale : let x := qOf .reading 0 (some 0) false
    let s := qState x 100001
    s.queue 0 0 = some x ∧ x.packet = [] ∧ x.lastRead = some 0 ∧ x.t0.getD s.pt + x.staleNs < s.pt ∧
      ((after (exec (.queueStale 0 0) s)).queue 0 0).map (fun x => x.st) = some (.stale 1) := by decide
theorem witness_QueuesServe_precondition : let x := qOf .holding 1 none false
    let s := qState x 100
    s.queue 0 0 = some x ∧ s.placedFor x = false ∧ x.preMet = false ∧ x.told = none ∧ s.pt ≤ x.hold ∧ s.holdCheck 0 x = .ok ∧
      pkPre x.packet = 0 ∧ ((after (exec (.preconditionMet 0 0) s)).queue 0 0).map (fun x => x.preMet) = some true := by decide
theorem witness_QueuesServe_deadline : let x := qOf .holding 1 none true
    let s := qState x 101
    s.queue 0 0 = some x ∧ s.placedFor x = false ∧ x.hold < s.pt ∧ s.holdCheck 0 x = .ok ∧ pkDone x.packet = 0 ∧
      fieldOf (x.desc.getD 4 0) 12 1 = 0 ∧ x.dw 3 ≠ 0 ∧ x.taken = x.heldNo + 1 ∧
      (after (exec (.holdDeadline 0 0) s)).read (tcmLoc 2 0x1000) 8 = 0x201 := by decide
theorem witness_QueuesServe_status : let x := qOf .holding 1 none true
    ((qState x 101).qpPlace 0 x.ctx (x.dw 3 + x.heldNo % x.size * 8) 8 .write 1).toOption = some (tcmLoc 2 0x1000) := by decide
/-- A halted queue resumed; the counter of a precondition below and at its target. -/
theorem witness_QueuesServe_halted (pubs : List (Nat × Nat)) (h : pubs = [] ∨ pubs = [(1, 0)]) :
    let x := { qOf .halted 0 none false with pubs := pubs }
    (qState x 0).queue 0 0 = some x ∧ x.st = .halted ∧
      ((after (exec (.queueResume 0 0) (qState x 0))).queue 0 0).map (fun x => x.st) = some (if pubs = [] then .idle else .reading) := by
  rcases h with rfl | rfl <;> decide
theorem witness_QueuesServe_counter (target : Word) (h : target = 7 ∨ target = 8) :
    let x := { qOf .holding 1 none false with packet := (qPacket.set 3 0x1000200900).set 4 target }
    let s := (qState x 100).write (tcmLoc 2 0x900) 8 7
    pkPre x.packet = 0x1000200900 ∧ (s.qpReadLoc 0 x.ctx 0x1000200900 8 .read).toOption = some (tcmLoc 2 0x900) ∧
      s.qpBad (tcmLoc 2 0x900) 8 = false ∧ x.translated = true ∧
      ((after (exec (.preconditionMet 0 0) s)).queue 0 0).map (fun x => (x.preMet, x.preLoc)) =
        some (if target = 7 then (true, none) else (false, some (tcmLoc 2 0x900))) := by
  rcases h with rfl | rfl <;> decide

/-! Kernels: the packet's, on core 0 of die 0. -/
def placeState : State := qState (qOf .holding 1 none true) 50
theorem witness_KernelsLive_placement : let x := qOf .holding 1 none true
    placeState.queue 0 0 = some x ∧ placeState.placedFor x = false ∧ x.preMet = true ∧ placeState.pt ≤ x.hold ∧
      placeState.classShed (pkClass x.packet) = false ∧ placeState.threadsHeld x.ctx 0 + pkThreads x.packet ≤ placeState.ctxCap x.ctx 0 ∧
      (placeState.findCores x.packet).isSome = true := by decide +kernel
theorem test_kernelPlacement : ((after (exec (.kernelPlacement 0 0) placeState)).kern 9).map (fun k => (k.st, k.cores.map fun c => (c.v, c.slots))) =
    some (.loading, [(0, [(0, 0)])]) := by decide +kernel
def kLoading (img started : Bool) : Kernel := ⟨0, 0, .loading, qPacket, qDesc, 0, 0, 0, 0, [⟨0, [(0, 0)], 0x7C00, 0x400, 0, 0, started⟩], [], img, none, 0, 0⟩
def loadState (k : Kernel) : State := { (placeState.write 0 8 0x11223344) with kernels := [(9, k)], nextId := 10 }
theorem witness_KernelsLive_image : let s := loadState (kLoading false false)
    s.kern 9 = some (kLoading false false) ∧ (s.imageBytes (kLoading false false)).toOption = some ([0x44, 0x33, 0x22, 0x11], false) ∧
      (after (exec (.imageLoad 9) s)).read (istLoc 0 0x7C00) 8 = 0x11223344 := by decide
theorem witness_KernelsLive_start : let s := loadState (kLoading true false)
    s.kern 9 = some (kLoading true false) ∧ ((kLoading true false).cores.find? fun c => c.v == 0 && !c.started).map (fun c => c.slots) = some [(0, 0)] ∧
      ((after (exec (.startMessage 9 0) s)).thr 10).map (fun t => (t.pc, t.xr 10, t.xr 11, t.xr 12)) = some (0x2000000, 77, 0, 1) ∧
      ((after (exec (.startMessage 9 0) s)).kern 9).map (fun k => k.st) = some .running := by decide
/-- A pool entry of die 0 goes to slot 4 of core 0. -/
theorem witness_KernelsLive_pool : let s := { loadState { kLoading true true with st := .running } with pools := [(0, [⟨0x2000010, 5, false, 0, some 9, 0, 0⟩])] }
    (s.poolNext 0).map (fun x => (x.1, x.2.2)) = some (0, 0, 4) ∧
      ((after (exec (.poolDispatch 0) s)).thr 10).map (fun t => (t.light, t.pc, t.xr 10)) = some (true, 0x2000010, 5) := by decide
theorem witness_KernelsLive_end : let s := loadState { kLoading true true with st := .faulting }
    (s.kern 9).map (fun k => k.st) = some .faulting ∧ ((after (exec (.kernelEndSequence 9) s)).kern 9).map (fun k => k.st) = some .ending := by
  decide
theorem witness_KernelsLive_ending : let k := { kLoading true true with st := KSt.ending }
    let s := loadState k
    s.kern 9 = some k ∧ s.hasThreads 9 = false ∧ s.hasWork 9 = false ∧ s.endWaits 9 k = false ∧ s.posted = [] ∧ k.status = none ∧
      s.doneTrap k = none ∧ ((after (exec (.kernelEnding 9) s)).kern 9).isNone = true := by decide
theorem witness_KernelsLive_draining (st : KSt) (h : st = .running ∨ st = .draining) : let s := loadState { kLoading true true with st := st }
    (s.kern 9).map (fun k => k.st) = some st ∧ s.hasThreads 9 = false ∧ s.hasWork 9 = false ∧
      ((after (exec (.kernelEnding 9) s)).kern 9).map (fun k => k.st) = some .ending := by
  rcases h with rfl | rfl <;> decide

/-! Contexts and banks: thread 0 in vcore 0's bank of slot 0, whose save record is at 0x20000 of context 0's save area. -/
def csaDesc : List Word := [0, 0, 0, 1, 0, 0x1000000020000, 0, 0]
def bankState (b : BankSt) (t : Thread) : State := { State.reset with
  threads := [(0, t)]
  nextId := 1
  ctxs := [(0, ⟨csaDesc, false⟩)]
  vcores := [(0, { VCore.reset with banks := [b, .empty, .empty, .empty], saveAddr := [0x20000, 0, 0, 0, 0, 0, 0, 0] })] }
def bankT : Thread := { wT with place := .bank 0 0 }
def recT : Thread := { wT with place := .record 0 0 0x20000, saved := some 0x20000 }
def started (s : State) : State := { s with boot := { s.boot with stage := 3 } }
theorem witness_ContextsMove_descriptor : mapGet? (started State.reset).ctxs 63 = none ∧ 3 ≤ (started State.reset).boot.stage ∧
    (started State.reset).boot.stage ≠ 15 ∧
    (after (exec (.contextDescriptorWrite 63 7 5) (started State.reset))).ctxWord 63 7 = maskWord 5 (ctxMask 7) := by decide
theorem witness_ContextsMove_killBit : let s := { started State.reset with ctxs := [(3, ⟨[0, 0, 0, 1, 0, 0, 0, 0], false⟩)] }
    (mapGet? s.ctxs 3).map (fun x => (fieldOf (x.desc.getD 3 0) 0 1, x.killing)) = some (1, false) ∧ (2 : Word).getLsbD 1 = true ∧
      (mapGet? (after (exec (.contextDescriptorWrite 3 3 2) s)).ctxs 3).map (fun x => x.killing) = some true := by decide
theorem witness_ContextsMove_kill : let s := { State.reset with ctxs := [(3, ⟨[0, 0, 0, 3, 0, 0, 0, 0], true⟩)], tlb := [⟨5, 3, 0x40000000, 0x10000, 0x27⟩] }
    mapGet? s.ctxs 3 = some ⟨[0, 0, 0, 3, 0, 0, 0, 0], true⟩ ∧ s.moving = none ∧ s.queues = [] ∧ s.threads = [] ∧ s.cmds = [] ∧ s.kernels = [] ∧
      s.storeBuf = [] ∧ (after (exec (.contextKill 3) s)).ctxs = [] ∧ (after (exec (.contextKill 3) s)).tlb = [] := by decide
/-- A kill of context 0: a queue, a thread, a pool entry, a group, a tile, a kernel and a command of its own, and a store outstanding. -/
theorem witness_ContextsMove_discard : let s : State := { State.reset with
      ctxs := [(0, ⟨[0, 0, 0, 3, 0, 0, 0, 0], true⟩)]
      queues := [(0, qOf .idle 0 none false)]
      threads := [(0, { wT with kernel := some 3 })]
      pools := [(0, [⟨0x2000010, 5, false, 0, some 3, 0, 0⟩])]
      groups := [(2, { Group.reset with active := true })]
      tiles := [(0, ⟨1, 0, 0, []⟩)]
      kernels := [(3, wK)]
      cmds := [copyCmd .queued]
      storeBuf := [oneStore] }
    mapGet? s.ctxs 0 = some ⟨[0, 0, 0, 3, 0, 0, 0, 0], true⟩ ∧ s.moving = none ∧ s.locks = [] ∧
      (let s' := after (exec (.contextKill 0) s)
       (s'.queues.length, s'.threads.length, (s'.pool 0).length, (s'.group 2).active, s'.tiles.length) = (0, 0, 0, false, 0) ∧
         s'.cmds.map (fun c => c.st) = [.completing] ∧ (s'.kern 3).map (fun k => k.st) ≠ some .running ∧ (mapGet? s'.ctxs 0).isSome = true) := by
  decide +kernel
theorem witness_ContextsMove_spill : let s := bankState .unsaved bankT
    s.inBank 0 0 = some (0, bankT) ∧ 0 < (s.vc 0).banks.length ∧ s.bank 0 0 = .unsaved ∧ s.inCsa 0 (s.recordPa 0 0) = true ∧
      (after (exec (.spill 0 0) s)).bank 0 0 = .spilling 0 0x20000 := ⟨rfl, by decide, by decide, by decide, by decide⟩
theorem witness_ContextsMove_spillDone : let s := bankState (.spilling 0 0x20000) bankT
    s.inBank 0 0 = some (0, bankT) ∧ s.bank 0 0 = .spilling 0 0x20000 ∧ MemoryCanonical s ∧ bankT.x.length = 32 ∧ bankT.v.length = 32 ∧
      bankT.m.length = 8 ∧ ∀ e ∈ s.threads, ∀ w n q, e.2.place = .record w n q → q ≠ 0x20000 :=
  ⟨rfl, by decide, by unfold MemoryCanonical; decide, rfl, rfl, rfl, by
    intro e he w n q h
    cases he with
    | head => cases h
    | tail _ h => cases h⟩
theorem test_spillDone : let s := after (exec (.spillDone 0 0) (bankState (.spilling 0 0x20000) bankT))
    (s.bank 0 0, (s.thr 0).map fun t => t.saved) = (.saved, some (some 0x20000)) := by decide
theorem witness_ContextsMove_swapin : let s := bankState .unsaved bankT
    s.slotFree 0 0 = true ∧ s.vcoreMoving 0 = false ∧
      ((after (exec (.swapin 0 0) s)).thr 0).map (fun t => t.place) = some (.slot 0 0) := by decide
theorem witness_ContextsMove_fill : let s := bankState .empty recT
    s.threads.map (fun e => e.2.place) = [.record 0 0 (s.recordPa 0 0)] ∧ (s.vc 0).banks.length = 4 ∧ s.bank 0 0 = .empty ∧
      s.inCsa 0 (s.recordPa 0 0) = true ∧ (after (exec (.fill 0 0) s)).bank 0 0 = .filling 0 0 := by decide
theorem witness_ContextsMove_fillBanks : ∀ e ∈ (bankState .empty recT).vcores, ∀ b ∈ e.2.banks, ∀ since, b ≠ .filling 0 since := by
  intro e he b hb since h
  have hb' : (bankState .empty recT).vcores.all (fun e => e.2.banks.all fun b => b == .empty) = true := by decide
  have := List.all_eq_true.mp (List.all_eq_true.mp hb' e he) b hb
  subst h
  simp at this
/-- A record that was written and not touched since. -/
theorem witness_ContextsMove_unchanged : let t := recT.imaged
    let s := (bankState (.filling 0 0) t).writeBytes 0x20000 t.saveRecord
    s.bank 0 0 = .filling 0 0 ∧ s.thr 0 = some t ∧ t.saved = some 0x20000 ∧
      ∀ p ∈ t.recordParts.zipIdx, s.changedPart 0x20000 (t.image.getD p.2 []) p.1 = none := by
  refine ⟨rfl, rfl, rfl, fun p hp => ?_⟩
  have hw : Memory.wf (bankState (.filling 0 0) recT.imaged).mem = true := by decide
  have h := List.mem_zipIdx hp
  have hi : recT.imaged.image.getD p.2 [] = p.1.nums := by
    have hl : p.2 < recT.imaged.recordParts.length := by omega
    have hg : recT.imaged.image = recT.imaged.recordParts.map fun p => p.nums := rfl
    rw [hg, List.getD_eq_getElem?_getD, List.getElem?_map, List.getElem?_eq_getElem hl]
    simp [h.2.2]
  rw [hi]
  exact State.changedPart_written _ _ _ _ (h.2.2 ▸ List.getElem_mem _) rfl rfl hw
theorem witness_ContextsMove_fillDone : let s := (bankState (.filling 0 0) recT).write 0x20028 8 99
    s.bank 0 0 = .filling 0 0 ∧ s.thr 0 = some recT ∧ recT.saved = some 0x20000 ∧ 0 < (s.vc 0).banks.length ∧
      (after (exec (.fillDone 0 0) s)).bank 0 0 = .saved := by decide
/-- A light thread held after a trap, and the requests of a Ready one. -/
def heldT : Thread := { lightT [] with run := .wait, wait := some ⟨.light, 0, 0, false, false, none, 0⟩ }
theorem witness_ContextsMove_resume : (at0 heldT).inSlot 0 4 = some (0, heldT) ∧ (at0 heldT).thr 0 = some heldT ∧ heldT.run = .wait ∧
    heldT.wait = some ⟨.light, 0, 0, false, false, none, 0⟩ ∧ heldT.susp = [] ∧
    (thr0 (exec (.resume 0 4) (at0 heldT))).map (fun t => t.run) = some .ready := ⟨rfl, rfl, rfl, rfl, rfl, by decide⟩
theorem test_preempt : (thr0 (exec (.preempt 0 0) wS)).map (fun t => t.preempt) = some true := by decide
theorem test_migrate : (thr0 (exec (.migrate 0 0 true) wS)).map (fun t => t.migrate) = some (some (0, 1000000, true)) := by decide
theorem witness_ContextsMove_force : let t := { wT with migrate := some (0, 1000000, true) }
    let s := { at0 t with pt := 1000000 }
    s.inSlot 0 0 = some (0, t) ∧ (1000000 : Nat) ≤ s.pt ∧
      (thr0 (exec (.migrationForceExpiry 0 0) s)).map (fun t => t.migrate) = some (some (0, 1000000, false)) := ⟨rfl, by decide, by decide⟩
theorem witness_ContextsMove_traps : let t := { wT with preempt := true, migrate := some (1, 0, false) }
    (at0 t).inSlot 0 0 = some (0, t) ∧ t.run = .ready ∧ t.block = [] ∧ t.issued = 0 ∧ t.shed = false ∧ t.wait = none ∧ t.light = false ∧
      t.level = 0 ∧ (0 : Nat) ≤ (at0 t).pt ∧ (thr0 (exec (.preemptionTrap 0 0) (at0 t))).map (fun t => (t.level, t.bank0.cause)) = some (1, 3) ∧
      (thr0 (exec (.migrationTrap 0 0) (at0 t))).map (fun t => (t.bank0.cause, t.bank0.stat)) = some (4, 0x101) :=
  ⟨rfl, rfl, rfl, rfl, rfl, rfl, rfl, rfl, by decide, by decide, by decide⟩
def reportState : State := { State.reset with reportsDue := [⟨5, 1, 2, 3, 4, 0x2000000, 9, 10⟩] }
theorem witness_ContextsMove_report : reportState.reportsDue.length = 1 ∧ MemoryCanonical reportState ∧
    reportState.read 0xFF0007000000 8 - reportState.read 0xFF0007000008 8 < 4096 ∧
    reportState.read 0xFF0007000000 8 < 2 ^ 64 - 1 ∧ (after (exec .reportPost reportState)).reportsDue = [] :=
  ⟨rfl, by unfold MemoryCanonical; decide, by decide, by decide, by decide⟩
/-- VA 5 and VB 6 of cluster 0, GO. -/
def goWord : Word := 0x80060005
theorem witness_ContextsMove_remap : fieldOf goWord 31 1 = 1 ∧ fieldOf goWord 12 1 = 0 ∧ State.reset.moving = none ∧
    fieldOf goWord 0 12 ≠ fieldOf goWord 16 12 ∧ clusterOf (fieldOf goWord 0 12) = clusterOf (fieldOf goWord 16 12) ∧
    State.reset.slotsEmpty 5 = true ∧ State.reset.slotsEmpty 6 = true ∧
    (after (exec (.remapGo goWord) State.reset)).moving = some ⟨5, some 6, 0⟩ := by decide
theorem witness_ContextsMove_moved : let s := { State.reset with moving := some ⟨5, some 6, 0⟩ }
    s.moveWaits ⟨5, some 6, 0⟩ = false ∧ s.held = [] ∧ (5 : Nat) ≠ 6 ∧ (let s' := after (exec .remapMoveComplete s)
      (s'.moving, s'.position 5, s'.position 6)) = (none, 6, 5) := by decide

/-! Links and the host. -/
/-- A data flit under key 3, its tag the one the port computes. -/
def bareFlit : FlitText := ⟨1, 0, 1, 0, 0, 0x55⟩
def fl1 : Flit := ⟨bareFlit, Config.gcmTag 3 (nonceOf 0 0 0) (flitHeader bareFlit) bareFlit.payload⟩
def upPort : Port := { Port.reset with
  up := true
  ver := 1
  txKeys := [some 1, some 2]
  rxKeys := [some 3, some 4]
  replay := [⟨⟨bareFlit, 0⟩, 0, .store 77⟩] }
/-- The ports after reset but for port 0, with a store for another package in its unacknowledged flit. -/
def portState (p : Port) (pt : Nat) : State := { State.reset with
  ports := p :: List.replicate 11 Port.reset
  ptSet := true
  pt := pt
  storeBuf := [{ oneStore with loc := 0x400000000000, st := .sent 0 }]
  boot := { Boot.reset with stage := 1, timeSource := 3 } }
theorem witness_LinksCarry_clock : (400 : Nat) ≤ 400 ∧ (1000 : Nat) ≤ 1000 ∧ 425 % 25 = 0 ∧ State.reset.clockChange = none ∧
    (after (exec .clockStallComplete (after (exec (.ringClockChange 1000) State.reset)))).mhz = 1000 := by decide
theorem witness_LinksCarry_up : let p := { upPort with up := false, replay := [] }
    (portState p 0).ports.length = 12 ∧ (portState p 0).port 0 = p ∧ 1 ≤ (portState p 0).boot.stage ∧ (portState p 0).boot.stage ≤ 4 ∧
      (∀ k ∈ p.txKeys ++ p.rxKeys, k.isSome = true) ∧
      ((after (exec (.jorraxPortUp 0 ⟨9, 2⟩ ⟨1, 1⟩) (portState p 0))).port 0).peer = 9 := by decide
theorem witness_LinksCarry_port : (portState upPort 0).port 0 = upPort ∧ upPort.up = true := ⟨rfl, rfl⟩
theorem test_jorraxPortDown : let s := after (exec (.jorraxPortDown 0) (portState upPort 0))
    ((s.port 0).txKeys, s.storeBuf.map fun p => p.id) = ([none, none], []) := by decide
theorem witness_LinksCarry_flit : fl1.type = 1 ∧ fl1.seq.toNat = upPort.rxSeq ∧ fl1.slot.toNat = upPort.rxSlot ∧
    fl1.ver.toNat = upPort.ver ∧ upPort.rxKeys.getD upPort.rxSlot none = some 3 ∧
    Config.gcmTag 3 (nonceOf upPort.peer upPort.peerPort fl1.seq) (flitHeader fl1.toFlitText) fl1.payload = fl1.tag :=
  ⟨rfl, rfl, rfl, rfl, rfl, rfl⟩
/-- A flit out of order is dropped and answered NAK. -/
theorem witness_LinksCarry_drop : let f : FlitText := { bareFlit with seq := 7 }
    f.type = 1 ∧ f.seq.toNat ≠ upPort.rxSeq ∧
      (let s := after (exec (.jorraxFlitReceive 0 f 0) (portState upPort 0))
       (s.jorraxIn.length, (s.port 0).ctl.map fun a => a.type) = (0, [3])) := by decide
/-- An ACK under key 3, its tag the one the port computes; one of a slot without a key, and one of another version, is answered NAK. -/
theorem witness_LinksCarry_ackFlit : let f : FlitText := { bareFlit with type := 2 }
    upPort.up = true ∧ f.type = 2 ∧ upPort.rxKeys.getD f.slot.toNat none = some 3 ∧ f.ver.toNat = upPort.ver ∧ upPort.outq = [] ∧
      (∀ f ∈ upPort.replay, ∀ who l k, f.msg ≠ .read who l k) :=
  ⟨rfl, rfl, rfl, rfl, rfl, by simp [upPort]⟩
theorem witness_LinksCarry_ackUnauthentic (p : Port) (f : FlitText)
    (h : (p = { upPort with rxKeys := [none, some 4] } ∧ f = { bareFlit with type := 2 }) ∨ (p = upPort ∧ f = { bareFlit with type := 2, ver := 2 })) :
    (p.rxKeys.getD f.slot.toNat none = none ∨ f.ver.toNat ≠ p.ver) ∧ f.type = 2 ∧
      (let s := after (exec (.jorraxFlitReceive 0 f 0) (portState p 0))
       ((s.port 0).replay.length, (s.port 0).ctl.map fun a => a.type) = (1, [3])) := by
  rcases h with ⟨rfl, rfl⟩ | ⟨rfl, rfl⟩ <;> decide
theorem witness_LinksCarry_ack : upPort.outq = [] ∧ upPort.rolling = false ∧
    (∃ f ∈ upPort.replay, acknowledges 0 f.flit.seq.toNat = true) ∧
    (after (exec (.jorraxAck 0 0) (portState upPort 9))).storeBuf.map (fun p => p.st) = [.delivered] := by decide
theorem witness_LinksCarry_nak : upPort.replay.length = 1 ∧ upPort.fails < 16 ∧
    (∀ f ∈ upPort.replay, acknowledges (2 ^ 40 - 1) f.flit.seq.toNat = false) ∧
    ((after (exec (.jorraxNak 0 (2 ^ 40 - 1)) (portState upPort 9))).port 0).replay.map (fun f => f.at_) = [9] := by decide
theorem witness_LinksCarry_timeout : (∃ f ∈ upPort.replay, f.at_ + 1000 ≤ (portState upPort 1000).pt) ∧
    ((after (exec (.jorraxReplayTimeout 0) (portState upPort 1000))).port 0).fails = 1 := by decide
/-- The sender's key in use is refused; its other slot, and the receiver's, take a new one. -/
theorem witness_LinksCarry_key : upPort.needsKey true 1 = false ∧ upPort.needsKey true 0 = true ∧ upPort.needsKey false 1 = false ∧
    ((after (exec (.keySlotWrite 0 true 1 9) (portState upPort 0))).port 0).txKeys = [some 1, some 9] ∧
    ((after (exec (.keySlotWrite 0 true 0 9) (portState upPort 0))).port 0).busy = true ∧
    ((after (exec (.keySlotWrite 0 false 1 9) (portState upPort 0))).port 0).rxRolling = true := by decide
theorem witness_LinksCarry_switch : upPort.rolling = false ∧ (upPort.txKeys.getD (1 - upPort.txSlot) none).isSome = true ∧
    upPort.txSlot < 2 ∧ (∃ f ∈ upPort.replay, f.flit.slot.toNat = upPort.txSlot) ∧
    ((after (exec (.keySwitch 0) (portState upPort 0))).port 0).txSlot = 1 := by decide
theorem witness_LinksCarry_sync : (-1000 : Int).natAbs ≤ 1000 ∧ (portState upPort 0).ptSet = true ∧
    (after (exec (.timeSyncExchange 0 (-7)) (portState upPort 0))).trim = -5000 := by decide
theorem witness_LinksCarry_loss : let s := portState Port.reset 100000001
    s.ptSet = true ∧ s.ptFree = false ∧ (∀ p ∈ s.ports, p.up = false) ∧ s.lastUp + 100000000 < s.pt ∧
      (after (exec .timeSyncLoss s)).ptFree = true := by decide
/-- Import entry 0 lets package 7 read and write die SRAM from 0x50000; aperture entry 0 the same; doorbell 2 counts at
0x1000200800. -/
def hostState : State := { qState (qOf .idle 0 none false) 0 with
  imports := [(0, 0x0007000000050007)]
  apertures := [(0, 0x0000000000050007)]
  doorbells := [(2, [0x100, 0x1000200800])] }
theorem witness_LinksCarry_remote : hostState.serves = true ∧ importSrc 0x0007000000050007 7 = true ∧
    importLoc 0x0007000000050007 0x18 false true = some 0x50018 ∧ importLoc 0x0007000000050007 0x18 true true = some 0x50018 ∧
    0x18 % 8 = 0 ∧ hostState.bad 0x50018 8 = false ∧ hostState.locked 0x50018 8 = false ∧ hostState.locked 0x50018 4 = false ∧
    (after (exec (.remoteAccess 7 0x18 .store 4 0x123456789) hostState)).read 0x50018 8 = 0x23456789 := by decide
theorem witness_LinksCarry_doorbell : mapGet? hostState.doorbells (16 / 8) = some [0x100, 0x1000200800] ∧ 3 ≤ hostState.boot.stage ∧
    hostState.serves = true ∧ hostState.resident 0 = true ∧
    (hostState.qpPlace 0 0 0x1000200800 8 .write 1).toOption = some (tcmLoc 2 0x800) ∧ isReg (tcmLoc 2 0x800) = false ∧
    hostState.locked (tcmLoc 2 0x800) 8 = false ∧ isRemote (tcmLoc 2 0x800) = false ∧
    hostState.bad (tcmLoc 2 0x800) 8 = false ∧ hostState.isMoving (tcmLoc 2 0x800) = false ∧
    (after (exec (.counterWindowWrite 16 8 4) hostState)).read (tcmLoc 2 0x800) 8 = 5 := by decide
theorem witness_LinksCarry_aperture : hostState.apertureLoc 0x19 true = some 0x50019 ∧ hostState.locked 0x50019 1 = false ∧
    (after (exec (.hostMemoryAccess true ⟨2, 0x19⟩ 1 0xAB) hostState)).read 0x50018 8 = 0xAB00 := by decide
/-- A host read of a line that fails its check value leaves as a poisoned completion (R332). -/
theorem witness_LinksCarry_poisoned : let s := { hostState with poison := [0x50000 / 64] }
    s.apertureLoc 0x19 false = some 0x50019 ∧ s.serves = true ∧ s.bad 0x50019 1 = true ∧
      (after (exec (.hostMemoryAccess false ⟨2, 0x19⟩ 1 0) s)).hostReads = [none] := by decide
theorem test_bstatRead : (after (exec (.hostMemoryAccess false ⟨4, 0x300000⟩ 8 0) hostState)).hostReads = [some hostState.boot.bstat.toNat] := by
  decide
/-- Import entry 0 answers package 7 and no other; the last bytes of its 64 KiB; operations that add, compare and swap. -/
theorem witness_LinksCarry_remoteMore : importSrc 0x0007000000050007 8 = false ∧ 0xFFF8 % 65536 + 8 ≤ 65536 ∧
    importLoc 0x0007000000050007 0xFFF8 true true = some 0x5FFF8 ∧ hostState.locked 0x5FFF8 8 = false ∧ hostState.bad 0x5FFF8 8 = false ∧
    (let o := fun op val => (after (exec (.remoteAccess 7 0xFFF8 op 8 val) (hostState.write 0x5FFF8 8 7))).read 0x5FFF8 8
     o (.atomic 0 true) 5 = 12) := by decide
/-- A host write of three bytes. -/
theorem witness_LinksCarry_window : (∀ i < 3, hostState.apertureLoc (0x19 + i) true = some (0x50019 + i) ∧ hostState.locked (0x50019 + i) 1 = false) ∧
    (after (exec (.hostMemoryAccess true ⟨2, 0x19⟩ 3 0xCCBBAA) hostState)).read 0x50018 8 = 0xCCBBAA00 := by decide
theorem witness_LinksCarry_canonical : MemoryCanonical hostState := by
  unfold MemoryCanonical
  decide

/-! The power controller. -/
/-- A frame of 46 bytes: SEQ 1, 50,000 mHz, and a bus voltage in mV by its four bytes. -/
def frameOf (type : BitVec 8) (vbus : List (BitVec 8)) : WaisarFrame :=
  ⟨0x88B5, [1, type, 1, 0, 0x50, 0xC3, 0, 0] ++ vbus ++ List.replicate 34 0⟩
def frame1 : WaisarFrame := frameOf 1 [0x80, 0xBB, 0, 0]
/-- 70,001 mV. -/
def frameHigh : WaisarFrame := frameOf 1 [0x71, 0x11, 1, 0]
def powerState (p : Power) (pt : Nat) : State := { State.reset with power := p, pt := pt }
def pw : Power := { Power.reset with waisarVer := 1, target := 800 }
theorem witness_PowerIsHeld_reading : pw.accepts frame1 = true ∧ pw.pmeas ≤ pw.targetOf (frameField frame1 4 4) (frameField frame1 8 4) ∧
    (after (exec (.waisarReading frame1) (powerState pw 0))).power.lastSeq = some 1 := by decide
theorem witness_PowerIsHeld_discard : pw.accepts frameHigh = false ∧
    (after (exec (.waisarReading frameHigh) (powerState pw 0))).power.discarded = 1 := by decide
theorem witness_PowerIsHeld_foreign : ({ frame1 with etherType := 0x800 } : WaisarFrame).etherType ≠ 0x88B5 ∧
    pw.accepts { frame1 with etherType := 0x800 } = false := by decide
/-- A version offer of 0 to 3. -/
theorem witness_PowerIsHeld_offer : let f : WaisarFrame := ⟨0x88B5, [0, 2, 0, 0, 0, 3] ++ List.replicate 40 0⟩
    f.payload.length = 46 ∧ frameField f 1 1 = 2 ∧ frameField f 4 1 ≤ 1 ∧ 1 ≤ frameField f 5 1 ∧
      (after (exec (.waisarVersionOffer f.etherType f.payload) State.reset)).power.waisarVer = 1 := by decide
theorem witness_PowerIsHeld_loss : pw.tloss = false ∧ pw.lastReading + 20000000 ≤ (powerState pw 20000000).pt ∧
    (let p := (after (exec .telemetryLoss (powerState pw 20000000))).power
     (p.tloss, p.target) = (true, 800)) := by decide
theorem witness_PowerIsHeld_shed : let t := { wT with shedReq := some 5, cls := 2 }
    let s := { at0 t with pt := 5 }
    s.thr 0 = some t ∧ (5 : Nat) ≤ s.pt ∧ t.atPoint = true ∧ t.appends = [] ∧
      (thr0 (exec .shedForceExpiry s)).map (fun t => t.shed) = some true :=
  ⟨rfl, by decide, by decide, by decide, by decide⟩
theorem witness_PowerIsHeld_restore : let p := { pw with shed := 14, restoreSince := some 0, target := 1600 }
    let s := powerState p 20000000
    p.nextRestore = some 1 ∧ p.restoring = none ∧ s.shedPending = false ∧ p.roomToRestore = true ∧
      0 + fieldOf p.prest 16 16 * 1000000 ≤ s.pt ∧ (after (exec .restoreHoldExpiry s)).power.shed = 12 := by decide
theorem witness_PowerIsHeld_window : let p := { pw with slopeFree := true }
    p.winAt < (powerState p 100000).pt / 100000 ∧ p.restoring = none ∧
      (after (exec (.powerWindowEnd 300 [300, 0, 0, 0]) (powerState p 100000))).power.pmeas = 300 := by decide
theorem witness_PowerIsHeld_overcap : let p := { pw with overcap := true, overSince := 0 }
    p.overSince + 2000000 ≤ (powerState p 2000000).pt ∧ (after (exec .overcapEnd (powerState p 2000000))).power.overEnd = 2000000 := by decide
theorem test_rackBus : ((after (exec (.rackBusOutOfRange 43999) State.reset)).power.slopeFree, (after (exec (.rackBusOutOfRange 44000) State.reset)).power.slopeFree) =
    (true, false) := by decide
/-- Currents within 10 %, and 100 against 50. -/
theorem witness_PowerIsHeld_pair : 10 * (max 100 90 - min 100 90) ≤ max 100 90 ∧ max 100 50 < 10 * (max 100 50 - min 100 50) ∧
    Power.reset.pairBallast = [] ∧ Power.reset.throttle = [] ∧
    (let p := (after (exec (.clusterPairCurrentSample 0 0 100 50) State.reset)).power
     p.pairBallast ≠ [] ∨ p.throttle ≠ []) := by decide
theorem witness_PowerIsHeld_droop : mapGet State.reset.power.stretch 3 0 ≠ State.reset.ac + 1 ∧
    (let p := (after (exec (.droopDetect 3) State.reset)).power
     (p.stretch, p.lag) = ([(3, 1)], [(3, 1)])) := by decide
theorem test_canaryWarning : (after (exec (.canaryWarning 3) State.reset)).power.canary = [(3, 5)] := by decide
theorem witness_PowerIsHeld_canary : let p := { pw with canary := [(3, 10)], canaryAt := [(3, 0)] }
    mapGet p.canary 3 0 = 10 ∧ mapGet p.canaryAt 3 0 + 1000000 ≤ (powerState p 1000000).pt ∧
      mapGet (after (exec (.canaryStepDown 3) (powerState p 1000000))).power.canary 3 0 = 5 := by decide
/-- Whether gating pays is the opaque `Config.gateWorth`'s to say; a core must be clock-gated first. -/
theorem witness_PowerIsHeld_gate (unit : Nat) (hu : unit = 0 ∨ unit = 7) (h : Config.gateWorth 4 unit 0 = true) :
    let s : State := { State.reset with vcores := [(4, { VCore.reset with clockGated := true })] }
    unit ∈ [0, 1, 2, 3, 7] ∧ s.unitIdle 4 unit = true ∧ (s.vc 4).clockGated = true ∧ Config.gateWorth 4 unit s.pt = true := by
  rcases hu with rfl | rfl <;> exact ⟨by decide, by decide, rfl, h⟩
theorem witness_PowerIsHeld_trip : pw.trip = false ∧ pw.tripAt ≤ 115 ∧ (after (exec (.sensorRead 4 115) (powerState pw 0))).power.trip = true := by
  decide
theorem witness_PowerIsHeld_tripped : (powerState { pw with trip := true } 0).power.trip = true := rfl
theorem witness_PowerIsHeld_cool : 94 < pw.tripAt ∧ 94 < pw.migt ∧ 94 < pw.thrt ∧
    mapGet? (after (exec (.sensorRead 4 94) (powerState pw 0))).power.temps 4 = some 94 := by decide
theorem witness_PowerIsHeld_step : let p := { pw with temps := [(4, 105)] }
    let s := powerState p 100000
    p.thermAt + 100000 ≤ s.pt ∧ (∃ e ∈ p.temps, p.thrt ≤ e.2) ∧ s.clockChange = none ∧ 425 ≤ s.mhz ∧ s.mhz ≤ 1000 ∧ s.mhz % 25 = 0 ∧
      (after (exec .thermalClockStep s)).clockChange = some (775, 100000) := by decide
/-- A curve at its first point, between two of a fall, at its last, and one out of order. -/
theorem witness_PowerIsHeld_curve : let l : List (Int × Nat) := [(-10, 900), (11, 500)]
    rising l = true ∧ l.getLast? = some (11, 500) ∧ (-10 : Int) ≤ 0 ∧ (0 : Int) < 11 ∧
      ([-11, -10, 0, 11, 12].map fun x => pw.curve l x) = [900, 900, 709, 500, 500] ∧ rising [((3 : Int), 1), (3, 2)] = false := by decide
/-- A class whose part would rise by 100 W in a window of which UPSLOPE gives 0 W. -/
theorem witness_PowerIsHeld_restoring : let p := { pw with slopeFree := true, restoring := some 1, meter := [50, 50, 0, 0] }
    p.winAt < (powerState p 100000).pt / 100000 ∧ p.tloss = false ∧
      (let held := 150 - (50 + (max 1 (fieldOf p.prest 32 16) + p.upFrac) / 10)
       held ≠ 0 ∧ (let s := after (exec (.powerWindowEnd 300 [50, 150, 0, 0]) (powerState p 100000))
        (s.power.pmeas, s.power.restoring, s.power.restThr)) = (300 - held, some 1, 1)) := by decide

/-! Bring-up and registers. Whether an image verifies is said by opaque functions of `Config`. -/
def image1 : FirmImage := ⟨5, 0, 4, 77, 88, 9, [], [], [], 4, [3]⟩
def bootState (stage tried : Nat) : State := { wS with boot := { Boot.reset with
  stage := stage
  tried := tried
  rootKey := Config.sha256 [77]
  supKey := Config.sha256 [77] } }
theorem test_moduleReset : let s := after (exec (.moduleReset true) wS)
    (s.boot.stage, s.threads.length, s.read (tcmLoc 0 0x100) 8) = (0, 0, 0) := by decide
theorem witness_ModuleStarts_verify (h : Config.headerOk 5 4 (FirmImage.body image1) = true)
    (hs : Config.lmsValid 77 (FirmImage.signed image1) 88 = true) :
    (bootState 0 0).boot.stage = 0 ∧ (bootState 2 0).boot.stage = 2 ∧
      FirmImage.error image1 (bootState 0 0).boot.rootKey (bootState 0 0).boot.minsvn 1 = none ∧
      FirmImage.error image1 (bootState 2 0).boot.supKey (bootState 2 0).boot.minsvn 6 = none := by
  have e : ∀ k sig, k = Config.sha256 [77] → FirmImage.error image1 k 0 sig = none := by
    rintro k sig rfl
    unfold FirmImage.error
    rw [show Config.headerOk image1.magic image1.length (FirmImage.body image1) = true from h,
      show Config.lmsValid image1.pubKey (FirmImage.signed image1) image1.signature = true from hs]
    simp [image1]
  exact ⟨rfl, rfl, e _ _ rfl, e _ _ rfl⟩
theorem witness_ModuleStarts_fails (slot : Nat) (h : Config.headerOk 5 4 (FirmImage.body image1) = false) :
    (bootState 0 slot).boot.stage = 0 ∧ slot = (bootState 0 slot).boot.tried ∧
    FirmImage.error image1 (bootState 0 slot).boot.rootKey (bootState 0 slot).boot.minsvn 1 = some 3 := by
  refine ⟨rfl, rfl, ?_⟩
  unfold FirmImage.error
  rw [show Config.headerOk image1.magic image1.length (FirmImage.body image1) = false from h]
  rfl
/-- The lowest-numbered package keeps its PT; another one with an Up port takes the neighbour's. -/
theorem witness_ModuleStarts_links (reach : List (BitVec 16)) (h : reach = [] ∨ reach = [3]) :
    let info : LinkInfo := ⟨true, 1, 1, 1, 1, 12, 0, reach, some 5000⟩
    let s : State := { portState upPort 9 with boot := { Boot.reset with stage := 1 } }
    s.boot.stage = 1 ∧ info.trained = true ∧ info.hostLo ≤ 1 ∧ 1 ≤ info.hostHi ∧ info.waisarLo ≤ 1 ∧ 1 ≤ info.waisarHi ∧
      (info.reach.map fun p => p.toNat).foldl min info.package.toNat = (if reach = [] then 12 else 3) ∧
      (∃ p ∈ s.ports, p.up = true) ∧
      (let t := after (exec (.linkBringup info) s)
       (t.boot.stage, t.boot.package, t.pt) = (2, 12, if reach = [] then 9 else 5000)) := by
  rcases h with rfl | rfl <;> exact ⟨rfl, rfl, by decide, by decide, by decide, by decide, by decide, ⟨upPort, .head _, rfl⟩, by decide⟩
theorem witness_ModuleStarts_untrained : let info : LinkInfo := ⟨false, 1, 1, 1, 1, 12, 0, [], none⟩
    info.trained = false ∧ (let s := after (exec (.linkBringup info) (bootState 1 0))
     (s.boot.stage, s.boot.err) = (15, 4)) := by decide
theorem witness_ModuleStarts_attest : (bootState 3 0).boot.idIndex < 32768 ∧
    (after (exec (.attestationRequest 5) (bootState 3 0))).boot.idIndex = 1 := by decide
theorem witness_ModuleStarts_exhausted : let s := { bootState 3 0 with boot := { (bootState 3 0).boot with idIndex := 32768 } }
    32768 ≤ s.boot.idIndex ∧ (after (exec (.attestationRequest 5) s)).boot.refused = true := by decide
theorem witness_ModuleStarts_soft : isSram (5 * 64) = true ∧ (after (exec (.softError 5) State.reset)).poison = [5] := by decide
/-- A supervisor image whose header is wrong. -/
theorem witness_ModuleStarts_supervisorFails (h : Config.headerOk 5 4 (FirmImage.body image1) = false) :
    (bootState 2 0).boot.stage = 2 ∧ FirmImage.error image1 (bootState 2 0).boot.supKey (bootState 2 0).boot.minsvn 6 = some 3 := by
  refine ⟨rfl, ?_⟩
  unfold FirmImage.error
  rw [show Config.headerOk image1.magic image1.length (FirmImage.body image1) = false from h]
  rfl
/-- A line of a TCM, of a scratchpad, of an I-store and of LPDDR. -/
theorem witness_ModuleStarts_softLines : isTcm (tcmLoc 0 0 / 64 * 64) = true ∧ isSpad (spadLoc 0 64 / 64 * 64) = true ∧
    isIst (istLoc 0 64 / 64 * 64) = true := by decide
/-- Two multiples of PERIOD have passed: the first pulse is the first's. -/
theorem witness_ModuleStarts_pulse : let s := { State.reset with dbg := { Debug.reset with dsamp := 10 }, pt := 25000 }
    fieldOf s.dbg.dsamp 0 32 * 1000 ≠ 0 ∧ (s.dbg.lastPulse / 10000 + 1) * 10000 ≤ s.pt ∧
      (after (exec .samplingPulse s)).dbg.lastPulse = 10000 := by decide
theorem test_registerWrite : fieldOf (after (exec (.registerWrite 0x100018 0x02FF5A50) State.reset)).power.ptherm 16 8 = 115 := by decide
/-- The clock stalls while it changes (R322). -/
theorem test_clockStall : (after (exec (.ringClockChange 500) State.reset)).stalled = true := by decide

end Sys2Proof.Tests
end

section
/-!
Bytes written at a home are read back as the number they hold (R2, R119).
-/
namespace Sys2Proof.Machine

/-- The bytes lie from `loc` on one by one, so the read takes them up in their own order. -/
theorem State.read_writeBytes (s : State) (loc : Nat) (bs : List Byte) (h : MemoryCanonical s) :
    (s.writeBytes loc bs).read loc bs.length = ofBytes bs := by
  refine State.read_eq_ofBytes _ loc bs fun i hi => ?_
  rw [State.writeBytes_byteAt s loc bs _ h, if_pos (by omega), Nat.add_sub_cancel_left]

/-- The number written is cut to the `n` bytes that hold it. -/
theorem State.read_write (s : State) (loc n val : Nat) (h : MemoryCanonical s) :
    (s.write loc n val).read loc n = val % 2 ^ (8 * n) := by
  have hread := s.read_writeBytes loc (bytesOf val n) h
  rwa [length_bytesOf, ofBytes_bytesOf] at hread

/-- Settles O10: a write lays down the little-endian bytes of its number and touches no other cell. -/
theorem writeThenRead : Obligations.WriteThenRead := by
  intro s loc n val
  exact ⟨s.read_write loc n val, fun h a ha => s.write_byteAt_outside loc n val a h ha, s.write_wf loc n val⟩

end Sys2Proof.Machine
end

section
/-!
What each part of the machine reads as right after reset (R19, R112, R184, R194, R323, R367).
-/
namespace Sys2Proof.Machine

/-! ## A store with no entry gives the reset contents -/

@[simp] theorem mapGet_nil (k : Nat) (d : α) : mapGet ([] : AMap α) k d = d := rfl

@[simp] theorem State.byteAt_reset (loc : Nat) : State.reset.byteAt loc = 0 := rfl
@[simp] theorem State.vc_reset (v : Nat) : State.reset.vc v = .reset := mapGet_nil v _
@[simp] theorem State.inbox_reset (v : Nat) : State.reset.inbox v = .reset := mapGet_nil v _
@[simp] theorem State.sdu_reset (v : Nat) : State.reset.sdu v = .reset := mapGet_nil v _

/-! ## A list of reset entries gives one at every index, in range or not -/

theorem getD_replicate_self {α : Type} (n i : Nat) (a : α) : (List.replicate n a).getD i a = a := by
  rw [List.getD_eq_getElem?_getD, List.getElem?_replicate]
  split <;> rfl

@[simp] theorem State.port_reset (p : Nat) : State.reset.port p = .reset := getD_replicate_self 12 p Port.reset
@[simp] theorem Sdu.range_reset (r : Nat) : Sdu.reset.range r = .reset := getD_replicate_self 8 r Range.reset

/-! ## Canonical form and the reset values of an inbox and an SDU -/

/-- The empty store is in canonical form. -/
theorem memoryCanonical_reset : MemoryCanonical State.reset := by
  unfold MemoryCanonical
  rfl

/-- The word 512 holds CAP, the low ten bits, and leaves bit 48, the enable, clear (R194). -/
theorem Inbox.reset_disabled :
    fieldOf Inbox.reset.evcfg 0 10 = 512 ∧ fieldOf Inbox.reset.evcfg 48 1 = 0 ∧ Inbox.reset.owner = none := by
  decide

/-- No range of an SDU after reset is enabled, whatever its number (R184). -/
theorem Sdu.reset_disabled : Sdu.reset.owner = none ∧ ∀ r, (Sdu.reset.range r).enabled = false :=
  ⟨rfl, fun r => by rw [Sdu.range_reset]; rfl⟩

/-- Settles O8: every vcore, inbox, SDU and port reads as its own reset contents, whose fields are those of the tables. -/
theorem resetState : Obligations.ResetState := by
  have hvc : ∀ v, (State.reset.vc v).hangA = 10000 ∧ (State.reset.vc v).hangB = 1000000 :=
    fun v => by rw [State.vc_reset]; exact ⟨rfl, rfl⟩
  have hport : ∀ p, (State.reset.port p).up = false := fun p => by rw [State.port_reset]; rfl
  refine ⟨⟨memoryCanonical_reset, State.byteAt_reset⟩, rfl, hvc, fun v => ?_, fun v => ?_, hport, rfl, rfl, rfl⟩
  · rw [State.inbox_reset]
    exact Inbox.reset_disabled
  · rw [State.sdu_reset]
    exact Sdu.reset_disabled

end Sys2Proof.Machine
end

section
/-!
The decoder and the encoder are inverse on legal words (R21 to R35): the other half of Laws/PerInstr.lean, form by form.
-/
namespace Sys2Proof.Laws

/-! ## Fields that are cut and joined again -/

@[simp] theorem VType.bits_ofBits (t : BitVec 3) : (VType.ofBits t).bits = t := by revert t; decide
@[simp] theorem Scope.bits_ofBits (b : BitVec 2) : (Scope.ofBits b).bits = b := by revert b; decide
@[simp] theorem Round.bits_ofBits (b : BitVec 2) : (Round.ofBits b).bits = b := by revert b; decide

@[simp] theorem upper_append_lower (d : BitVec 5) : d.extractLsb' 3 2 ++ d.extractLsb' 0 3 = d := by
  revert d; decide

/-- A field whose upper part is fixed is that part and its three lower bits. -/
theorem append_lower {d : BitVec 5} {u : BitVec 2} (h : d.extractLsb' 3 2 = u) : u ++ d.extractLsb' 0 3 = d := by
  rw [← h, upper_append_lower]

/-- A field whose lower part is fixed is its two upper bits and that part. -/
theorem upper_append_of_lower {d : BitVec 5} {u : BitVec 3} (h : d.extractLsb' 0 3 = u) : d.extractLsb' 3 2 ++ u = d := by
  rw [← h, upper_append_lower]

/-- A shift amount's sixth bit is the low one of its two-bit field, whose other bit is 0 (R24). -/
theorem shamt_upper {f2 : BitVec 2} {b : BitVec 5} (h : f2.extractLsb' 1 1 = 0#1) :
    0#1 ++ (f2.extractLsb' 0 1 ++ b).extractLsb' 5 1 = f2 := by
  revert f2 b; decide

@[simp] theorem shamt_lower (f2 : BitVec 2) (b : BitVec 5) : (f2.extractLsb' 0 1 ++ b).extractLsb' 0 5 = b := by
  revert f2 b; decide

/-- The fields of a word, one by one. -/
theorem Raw.mk_eq_iff (f5 : BitVec 5) (f2 : BitVec 2) (b a : BitVec 5) (t : BitVec 3) (d op : BitVec 5) (lo : BitVec 2) (r : Raw) :
    Raw.mk f5 f2 b a t d op lo = r ↔
      f5 = r.f5 ∧ f2 = r.f2 ∧ b = r.b ∧ a = r.a ∧ t = r.t ∧ d = r.d ∧ op = r.op ∧ lo = r.lo := by
  cases r
  simp

theorem rawU_fields {r : Raw} {op : BitVec 5} (h : low r.marked = r.lo) (hop : r.op = op) :
    rawU r.immU r.d op r.marked = r := by
  subst hop
  obtain ⟨f5, f2, b, a, t, d, op, lo⟩ := r
  simp only [rawU, h, Raw.mk.injEq, and_true]
  refine ⟨?_, ?_, ?_, ?_, ?_⟩ <;>
  · refine BitVec.eq_of_getLsbD_eq fun i hi => ?_
    simp only [Raw.immU, BitVec.getLsbD_append, BitVec.getLsbD_extractLsb']
    grind

theorem rawI_fields {r : Raw} {t : BitVec 3} {op : BitVec 5} (h : low r.marked = r.lo) (ht : r.t = t) (hop : r.op = op) :
    rawI r.immI r.a t r.d op r.marked = r := by
  subst ht hop
  obtain ⟨f5, f2, b, a, t, d, op, lo⟩ := r
  simp only [rawI, h, Raw.mk.injEq, and_true]
  refine ⟨?_, ?_, ?_⟩ <;>
  · refine BitVec.eq_of_getLsbD_eq fun i hi => ?_
    simp only [Raw.immI, BitVec.getLsbD_append, BitVec.getLsbD_extractLsb']
    grind

theorem rawS_fields {r : Raw} {t : BitVec 3} {op : BitVec 5} (h : low r.marked = r.lo) (ht : r.t = t) (hop : r.op = op) :
    rawS r.immS r.b r.a t op r.marked = r := by
  subst ht hop
  obtain ⟨f5, f2, b, a, t, d, op, lo⟩ := r
  simp only [rawS, h, Raw.mk.injEq, true_and, and_true]
  refine ⟨?_, ?_, ?_⟩ <;>
  · refine BitVec.eq_of_getLsbD_eq fun i hi => ?_
    simp only [Raw.immS, BitVec.getLsbD_append, BitVec.getLsbD_extractLsb']
    grind

theorem rawB_fields {r : Raw} {t : BitVec 3} {op : BitVec 5} (h : low r.marked = r.lo) (ht : r.t = t) (hop : r.op = op) :
    rawB r.offB r.b r.a t op r.marked = r := by
  subst ht hop
  obtain ⟨f5, f2, b, a, t, d, op, lo⟩ := r
  simp only [rawB, h, Raw.mk.injEq, true_and, and_true]
  refine ⟨?_, ?_, ?_⟩ <;>
  · refine BitVec.eq_of_getLsbD_eq fun i hi => ?_
    simp only [Raw.offB, BitVec.getLsbD_append, BitVec.getLsbD_extractLsb']
    grind

theorem rawJ_fields {r : Raw} {op : BitVec 5} (h : low r.marked = r.lo) (hop : r.op = op) :
    rawJ r.offJ r.d op r.marked = r := by
  subst hop
  obtain ⟨f5, f2, b, a, t, d, op, lo⟩ := r
  simp only [rawJ, h, Raw.mk.injEq, and_true]
  refine ⟨?_, ?_, ?_, ?_, ?_⟩ <;>
  · refine BitVec.eq_of_getLsbD_eq fun i hi => ?_
    simp only [Raw.offJ, BitVec.getLsbD_append, BitVec.getLsbD_extractLsb']
    grind

/-- What a conditional form decodes to, it decodes to by its own test or by those that follow. -/
theorem ite_some_imp {α : Type} {c P : Prop} [Decidable c] {o o' : Option α} {i : α} (h : c → o = some i → P)
    (h' : o' = some i → P) : (if c then o else o') = some i → P := by
  split
  · exact h ‹c›
  · exact h'

/-! ## What decodes to an instruction is its encoding (R22, R33), by major opcode -/

section
variable {r : Raw} {i : Instr} (hlo : low r.marked = r.lo)
include hlo

theorem encodeRaw_of_decodeLoad (h : decodeLoad r = some i) (hop : r.op = 0#5) : encodeRaw i = some r := by
  unfold decodeLoad at h
  split at h <;> cases h <;> exact congrArg some (rawI_fields hlo ‹_› hop)

theorem encodeRaw_of_decodeStore (h : decodeStore r = some i) (hop : r.op = 8#5) : encodeRaw i = some r := by
  unfold decodeStore at h
  split at h <;> cases h <;> exact congrArg some (rawS_fields hlo ‹_› hop)

theorem encodeRaw_of_decodeBranch (h : decodeBranch r = some i) (hop : r.op = 24#5) : encodeRaw i = some r := by
  unfold decodeBranch at h
  split at h <;> cases h <;> exact congrArg some (rawB_fields hlo ‹_› hop)

/-- A register form names every field of its word, those it fixes by the test that chose it. -/
theorem encodeRaw_of_decodeOp (h : decodeOp r = some i) (hop : r.op = 12#5) : encodeRaw i = some r := by
  unfold decodeOp at h
  repeat' split at h
  all_goals cases h
  all_goals refine congrArg some ?_
  all_goals simp_all [Raw.mk_eq_iff]

theorem encodeRaw_of_decodeOp32 (h : decodeOp32 r = some i) (hop : r.op = 14#5) : encodeRaw i = some r := by
  unfold decodeOp32 at h
  repeat' split at h
  all_goals cases h
  all_goals refine congrArg some ?_
  all_goals simp_all [Raw.mk_eq_iff]

theorem encodeRaw_of_decodeXeng (h : decodeXeng r = some i) (hop : r.op = 30#5) : encodeRaw i = some r := by
  revert h
  unfold decodeXeng
  split
  all_goals repeat' refine ite_some_imp ?_ ?_
  all_goals intros
  all_goals rename _ = some i => h; cases h
  all_goals refine congrArg some ?_
  all_goals simp_all [Raw.mk_eq_iff]

theorem encodeRaw_of_decodeSync (h : decodeSync r = some i) (hop : r.op = 2#5) : encodeRaw i = some r := by
  revert h
  unfold decodeSync
  split
  all_goals repeat' refine ite_some_imp ?_ ?_
  all_goals intros
  all_goals rename _ = some i => h; cases h
  all_goals refine congrArg some ?_
  all_goals simp_all [Raw.mk_eq_iff]

theorem encodeRaw_of_decodeVec (h : decodeVec r = some i) (hop : r.op = 10#5) : encodeRaw i = some r := by
  unfold decodeVec at h
  repeat' split at h
  all_goals cases h
  all_goals refine congrArg some ?_
  all_goals simp_all [Raw.mk_eq_iff, append_lower, upper_append_of_lower]

theorem encodeRaw_of_decodeVmem (h : decodeVmem r = some i) (hop : r.op = 22#5) : encodeRaw i = some r := by
  unfold decodeVmem at h
  repeat' split at h
  all_goals cases h
  all_goals refine congrArg some ?_
  all_goals simp_all [Raw.mk_eq_iff, append_lower]

/-- The shift forms split their amount over two fields (R24); the other immediates are the I format's. -/
theorem encodeRaw_of_decodeOpImm (h : decodeOpImm r = some i) (hop : r.op = 4#5) : encodeRaw i = some r := by
  unfold decodeOpImm at h
  repeat' split at h
  all_goals cases h
  all_goals refine congrArg some ?_
  all_goals simp_all [Raw.mk_eq_iff, Raw.shamt, shamt_upper, rawI_fields hlo]

theorem encodeRaw_of_decodeOpImm32 (h : decodeOpImm32 r = some i) (hop : r.op = 6#5) : encodeRaw i = some r := by
  unfold decodeOpImm32 at h
  repeat' split at h
  all_goals cases h
  all_goals refine congrArg some ?_
  all_goals simp_all [Raw.mk_eq_iff, rawI_fields hlo]

theorem encodeRaw_of_decodeSystem (h : decodeSystem r = some i) (hop : r.op = 28#5) : encodeRaw i = some r := by
  unfold decodeSystem at h
  repeat' split at h
  all_goals cases h
  all_goals refine congrArg some ?_
  all_goals simp_all [Raw.mk_eq_iff, rawI_fields hlo]

end

/-- What the form of a word decodes to is encoded by the same fields. -/
theorem encodeRaw_of_decodeForm {r : Raw} {i : Instr} (h : decodeForm r = some i) : encodeRaw i = some r := by
  unfold decodeForm at h
  split at h
  case isTrue => cases h
  case isFalse hsize =>
    have hlo : low r.marked = r.lo := low_of_marked r.lo (fun h0 => hsize (.inl h0)) (fun h1 => hsize (.inr h1))
    split at h
    case h_1 hop => exact encodeRaw_of_decodeLoad hlo h hop
    case h_2 hop => exact encodeRaw_of_decodeSync hlo h hop
    case h_3 hop => exact encodeRaw_of_decodeOpImm hlo h hop
    case h_4 hop => cases h; exact congrArg some (rawU_fields hlo hop)
    case h_5 hop => exact encodeRaw_of_decodeOpImm32 hlo h hop
    case h_6 hop => exact encodeRaw_of_decodeStore hlo h hop
    case h_7 hop => exact encodeRaw_of_decodeVec hlo h hop
    case h_8 hop => exact encodeRaw_of_decodeOp hlo h hop
    case h_9 hop => cases h; exact congrArg some (rawU_fields hlo hop)
    case h_10 hop => exact encodeRaw_of_decodeOp32 hlo h hop
    case h_11 hop => exact encodeRaw_of_decodeVmem hlo h hop
    case h_12 hop => exact encodeRaw_of_decodeBranch hlo h hop
    case h_13 hop =>
      split at h
      case isTrue ht => cases h; exact congrArg some (rawI_fields hlo ht hop)
      case isFalse => cases h
    case h_14 hop => cases h; exact congrArg some (rawJ_fields hlo hop)
    case h_15 hop => exact encodeRaw_of_decodeSystem hlo h hop
    case h_16 hop => exact encodeRaw_of_decodeXeng hlo h hop
    case h_17 => cases h

/-- The fields of an instruction's word are those of a form that decodes to it; an event has none. -/
theorem decodeForm_of_encodeRaw {i : Instr} {r : Raw} (h : encodeRaw i = some r) : decodeForm r = some i := by
  cases i with
  | lui => exact WordForm.lui _ _ _ r h
  | auipc => exact WordForm.auipc _ _ _ r h
  | jal => exact WordForm.jal _ _ _ r h
  | jalr => exact WordForm.jalr _ _ _ _ r h
  | beq => exact WordForm.beq _ _ _ _ r h
  | bne => exact WordForm.bne _ _ _ _ r h
  | blt => exact WordForm.blt _ _ _ _ r h
  | bge => exact WordForm.bge _ _ _ _ r h
  | bltu => exact WordForm.bltu _ _ _ _ r h
  | bgeu => exact WordForm.bgeu _ _ _ _ r h
  | lb => exact WordForm.lb _ _ _ _ r h
  | lh => exact WordForm.lh _ _ _ _ r h
  | lw => exact WordForm.lw _ _ _ _ r h
  | ld => exact WordForm.ld _ _ _ _ r h
  | lbu => exact WordForm.lbu _ _ _ _ r h
  | lhu => exact WordForm.lhu _ _ _ _ r h
  | lwu => exact WordForm.lwu _ _ _ _ r h
  | sb => exact WordForm.sb _ _ _ _ r h
  | sh => exact WordForm.sh _ _ _ _ r h
  | sw => exact WordForm.sw _ _ _ _ r h
  | sd => exact WordForm.sd _ _ _ _ r h
  | addi => exact WordForm.addi _ _ _ _ r h
  | slti => exact WordForm.slti _ _ _ _ r h
  | sltiu => exact WordForm.sltiu _ _ _ _ r h
  | xori => exact WordForm.xori _ _ _ _ r h
  | ori => exact WordForm.ori _ _ _ _ r h
  | andi => exact WordForm.andi _ _ _ _ r h
  | slli => exact WordForm.slli _ _ _ _ r h
  | srli => exact WordForm.srli _ _ _ _ r h
  | srai => exact WordForm.srai _ _ _ _ r h
  | clz => exact WordForm.clz _ _ _ r h
  | ctz => exact WordForm.ctz _ _ _ r h
  | cpop => exact WordForm.cpop _ _ _ r h
  | addiw => exact WordForm.addiw _ _ _ _ r h
  | slliw => exact WordForm.slliw _ _ _ _ r h
  | srliw => exact WordForm.srliw _ _ _ _ r h
  | sraiw => exact WordForm.sraiw _ _ _ _ r h
  | add => exact WordForm.add _ _ _ _ r h
  | sub => exact WordForm.sub _ _ _ _ r h
  | sll => exact WordForm.sll _ _ _ _ r h
  | slt => exact WordForm.slt _ _ _ _ r h
  | sltu => exact WordForm.sltu _ _ _ _ r h
  | xor => exact WordForm.xor _ _ _ _ r h
  | srl => exact WordForm.srl _ _ _ _ r h
  | sra => exact WordForm.sra _ _ _ _ r h
  | or => exact WordForm.or _ _ _ _ r h
  | and => exact WordForm.and _ _ _ _ r h
  | orn => exact WordForm.orn _ _ _ _ r h
  | andn => exact WordForm.andn _ _ _ _ r h
  | mul => exact WordForm.mul _ _ _ _ r h
  | mulh => exact WordForm.mulh _ _ _ _ r h
  | mulhsu => exact WordForm.mulhsu _ _ _ _ r h
  | mulhu => exact WordForm.mulhu _ _ _ _ r h
  | div => exact WordForm.div _ _ _ _ r h
  | divu => exact WordForm.divu _ _ _ _ r h
  | rem => exact WordForm.rem _ _ _ _ r h
  | remu => exact WordForm.remu _ _ _ _ r h
  | min => exact WordForm.min _ _ _ _ r h
  | minu => exact WordForm.minu _ _ _ _ r h
  | max => exact WordForm.max _ _ _ _ r h
  | maxu => exact WordForm.maxu _ _ _ _ r h
  | sh1add => exact WordForm.sh1add _ _ _ _ r h
  | sh2add => exact WordForm.sh2add _ _ _ _ r h
  | sh3add => exact WordForm.sh3add _ _ _ _ r h
  | addw => exact WordForm.addw _ _ _ _ r h
  | subw => exact WordForm.subw _ _ _ _ r h
  | sllw => exact WordForm.sllw _ _ _ _ r h
  | srlw => exact WordForm.srlw _ _ _ _ r h
  | sraw => exact WordForm.sraw _ _ _ _ r h
  | mulw => exact WordForm.mulw _ _ _ _ r h
  | divw => exact WordForm.divw _ _ _ _ r h
  | divuw => exact WordForm.divuw _ _ _ _ r h
  | remw => exact WordForm.remw _ _ _ _ r h
  | remuw => exact WordForm.remuw _ _ _ _ r h
  | ecall => exact WordForm.ecall _ r h
  | ebreak => exact WordForm.ebreak _ r h
  | xret => exact WordForm.xret _ r h
  | csrrw => exact WordForm.csrrw _ _ _ _ r h
  | csrrs => exact WordForm.csrrs _ _ _ _ r h
  | csrrc => exact WordForm.csrrc _ _ _ _ r h
  | csrrwi => exact WordForm.csrrwi _ _ _ _ r h
  | csrrsi => exact WordForm.csrrsi _ _ _ _ r h
  | csrrci => exact WordForm.csrrci _ _ _ _ r h
  | cwait => exact WordForm.cwait _ _ _ _ _ r h
  | lwait => exact WordForm.lwait _ _ _ _ _ r h
  | barw => exact WordForm.barw _ _ _ _ r h
  | recv => exact WordForm.recv _ _ _ _ r h
  | fencew => exact WordForm.fencew _ _ _ _ _ r h
  | mwait => exact WordForm.mwait _ _ _ r h
  | ifencew => exact WordForm.ifencew _ _ _ r h
  | barx => exact WordForm.barx _ _ _ _ r h
  | spawn => exact WordForm.spawn _ _ _ _ _ r h
  | acasV => exact WordForm.acasV _ _ _ _ _ r h
  | acasS => exact WordForm.acasS _ _ _ _ _ r h
  | ttake => exact WordForm.ttake _ _ _ _ r h
  | qpush => exact WordForm.qpush _ _ _ _ _ r h
  | evstep => exact WordForm.evstep _ _ _ _ r h
  | cadd => exact WordForm.cadd _ _ _ _ _ r h
  | mona => exact WordForm.mona _ _ _ r h
  | mclr => exact WordForm.mclr _ _ r h
  | join => exact WordForm.join _ _ _ r h
  | leave => exact WordForm.leave _ _ _ r h
  | gnew => exact WordForm.gnew _ _ _ r h
  | gfree => exact WordForm.gfree _ _ _ r h
  | bara => exact WordForm.bara _ _ _ r h
  | exit => exact WordForm.exit _ _ r h
  | lda => exact WordForm.lda _ _ _ _ r h
  | stl => exact WordForm.stl _ _ _ _ r h
  | tgive => exact WordForm.tgive _ _ r h
  | tmark => exact WordForm.tmark _ _ r h
  | cswap => exact WordForm.cswap _ r h
  | aadd => exact WordForm.aadd _ _ _ _ _ r h
  | aand => exact WordForm.aand _ _ _ _ _ r h
  | aor => exact WordForm.aor _ _ _ _ _ r h
  | axor => exact WordForm.axor _ _ _ _ _ r h
  | amin => exact WordForm.amin _ _ _ _ _ r h
  | amax => exact WordForm.amax _ _ _ _ _ r h
  | aminu => exact WordForm.aminu _ _ _ _ _ r h
  | amaxu => exact WordForm.amaxu _ _ _ _ _ r h
  | aswap => exact WordForm.aswap _ _ _ _ _ r h
  | vadd => exact WordForm.vadd _ _ _ _ _ _ r h
  | vsub => exact WordForm.vsub _ _ _ _ _ _ r h
  | vmul => exact WordForm.vmul _ _ _ _ _ _ r h
  | vmulh => exact WordForm.vmulh _ _ _ _ _ _ r h
  | vmadd => exact WordForm.vmadd _ _ _ _ _ _ r h
  | vmin => exact WordForm.vmin _ _ _ _ _ _ r h
  | vmax => exact WordForm.vmax _ _ _ _ _ _ r h
  | vand => exact WordForm.vand _ _ _ _ _ _ r h
  | vor => exact WordForm.vor _ _ _ _ _ _ r h
  | vxor => exact WordForm.vxor _ _ _ _ _ _ r h
  | vsll => exact WordForm.vsll _ _ _ _ _ _ r h
  | vsrl => exact WordForm.vsrl _ _ _ _ _ _ r h
  | vsra => exact WordForm.vsra _ _ _ _ _ _ r h
  | vcmpeq => exact WordForm.vcmpeq _ _ _ _ _ _ r h
  | vcmplt => exact WordForm.vcmplt _ _ _ _ _ _ r h
  | vcmple => exact WordForm.vcmple _ _ _ _ _ _ r h
  | vsel => exact WordForm.vsel _ _ _ _ _ _ r h
  | vcvt => exact WordForm.vcvt _ _ _ _ _ _ _ r h
  | vnrw => exact WordForm.vnrw _ _ _ _ _ _ r h
  | vwid => exact WordForm.vwid _ _ _ _ _ r h
  | vrsum => exact WordForm.vrsum _ _ _ _ _ r h
  | vrmax => exact WordForm.vrmax _ _ _ _ _ r h
  | vrmin => exact WordForm.vrmin _ _ _ _ _ r h
  | vperm => exact WordForm.vperm _ _ _ _ _ _ r h
  | vdot => exact WordForm.vdot _ _ _ _ _ r h
  | vpopc => exact WordForm.vpopc _ _ _ _ _ r h
  | vlut => exact WordForm.vlut _ _ _ _ _ r h
  | vabs => exact WordForm.vabs _ _ _ _ _ r h
  | vsplat => exact WordForm.vsplat _ _ _ _ _ r h
  | vext => exact WordForm.vext _ _ _ _ _ r h
  | vins => exact WordForm.vins _ _ _ _ _ r h
  | scmac => exact WordForm.scmac _ _ _ _ _ _ r h
  | vld => exact WordForm.vld _ _ _ _ _ r h
  | vst => exact WordForm.vst _ _ _ _ _ r h
  | vlds => exact WordForm.vlds _ _ _ _ _ _ r h
  | vsts => exact WordForm.vsts _ _ _ _ _ _ r h
  | vldx => exact WordForm.vldx _ _ _ _ _ _ r h
  | vstx => exact WordForm.vstx _ _ _ _ _ _ r h
  | vldb => exact WordForm.vldb _ _ _ _ _ r h
  | sbind => exact WordForm.sbind _ _ _ _ r h
  | sunb => exact WordForm.sunb _ _ r h
  | sstat => exact WordForm.sstat _ _ _ r h
  | mldm => exact WordForm.mldm _ _ _ r h
  | mstm => exact WordForm.mstm _ _ _ r h
  | mand => exact WordForm.mand _ _ _ _ r h
  | mor => exact WordForm.mor _ _ _ _ r h
  | mxor => exact WordForm.mxor _ _ _ _ r h
  | mnot => exact WordForm.mnot _ _ _ r h
  | mpopc => exact WordForm.mpopc _ _ _ r h
  | mfirst => exact WordForm.mfirst _ _ _ r h
  | mset => exact WordForm.mset _ _ _ r h
  | sdstep => exact WordForm.sdstep _ _ _ r h
  | evsend => exact WordForm.evsend _ _ _ _ r h
  | mma => exact WordForm.mma _ _ _ _ r h
  | mmaBs => exact WordForm.mmaBs _ _ _ _ r h
  | mlut => exact WordForm.mlut _ _ _ _ r h
  | mbin => exact WordForm.mbin _ _ _ _ r h
  | mzero => exact WordForm.mzero _ _ _ _ r h
  | mlda => exact WordForm.mlda _ _ _ _ r h
  | msta => exact WordForm.msta _ _ _ _ r h
  | tcfg => exact WordForm.tcfg _ _ _ _ r h
  | trel => exact WordForm.trel _ _ _ _ r h
  | mteam => exact WordForm.mteam _ _ _ _ r h
  | copy1 => exact WordForm.copy1 _ _ _ _ r h
  | copy2 => exact WordForm.copy2 _ _ _ _ r h
  | copyx => exact WordForm.copyx _ _ _ _ r h
  | cfill => exact WordForm.cfill _ _ _ _ r h
  | qnt8 => exact WordForm.qnt8 _ _ _ _ r h
  | qs2p => exact WordForm.qs2p _ _ _ _ r h
  | dqnt => exact WordForm.dqnt _ _ _ _ r h
  | cred => exact WordForm.cred _ _ _ _ r h
  | cbcast => exact WordForm.cbcast _ _ _ _ r h
  | cagath => exact WordForm.cagath _ _ _ _ r h
  | sdcfg => exact WordForm.sdcfg _ _ _ _ r h
  | sdrst => exact WordForm.sdrst _ _ _ _ r h
  -- an event has no word
  | _ => cases h

/-! ## Decoding -/

/-- A word decodes to the instruction of its form, where the operands of that are legal (R33). -/
theorem decode_eq_some_iff (w : IWord) (i : Instr) : decode w = some i ↔ decodeForm (splitWord w) = some i ∧ i.wf = true := by
  unfold decode
  split
  case h_1 j hj =>
    rw [hj]
    split <;> grind
  case h_2 hn => simp [hn]

/-- Settles O2: the fields of the word decode to the instruction's form, and the instruction is legal. -/
theorem decodeOfEncode : Obligations.DecodeOfEncode := by
  intro i w hwf h
  obtain ⟨r, hr, rfl⟩ := Option.map_eq_some_iff.1 h
  rw [decode_eq_some_iff, splitWord_joinWord]
  exact ⟨decodeForm_of_encodeRaw hr, hwf⟩

/-- Settles O3: the instruction's fields are those the word was cut into, and joining them gives the word again. -/
theorem encodeOfDecode : Obligations.EncodeOfDecode := by
  intro w i h
  obtain ⟨hform, hwf⟩ := (decode_eq_some_iff w i).1 h
  refine ⟨?_, hwf⟩
  rw [encode, encodeRaw_of_decodeForm hform, Option.map_some, joinWord_splitWord]

end Sys2Proof.Laws
end

section
/-!
What stops an instruction as it issues: a fault of its word (R33, R35, R77, R100) and a read of an empty register (R64, R71).
-/
namespace Sys2Proof.Machine

/-! ## The thread that issues -/

/-- A Ready thread that nothing keeps back looks at its next word: it is in the current slot, not shed, and has not to move (R73). -/
structure Looking (s : State) (tid : Nat) (t : Thread) : Prop where
  here    : s.current = some (tid, t)
  ready   : t.run = .ready
  served  : t.shed = false
  settled : s.followNow t = none

/-- A fault of the word itself stops the block before the word reads anything (R33, R67). -/
theorem State.issue_trapped {s : State} {tid : Nat} {t : Thread} {i : Instr} {f : Form} {x : Trap} (body : Body)
    (h : Looking s tid t) (hread : readsTcm i = false) (hx : t.issueTrap i f = some x) :
    s.issue i f body = s.stopped tid t (s.entry t i) x := by
  obtain ⟨l, hl⟩ := s.blockStart_eq t
  have hx' : ({ t with snap := l } : Thread).issueTrap i f = some x := hx
  simp only [State.issue, h.here, h.ready, h.served, h.settled, hread]
  simp only [hl, hx']
  rw [if_neg (by simp), State.append_fail _ _ _ _ _ x _ rfl, State.stopped, State.issued, hl]
  rfl

/-- A read of an empty register parks the thread before its instruction (R64, R71). -/
theorem State.issue_empty {s : State} {tid : Nat} {t : Thread} {i : Instr} {f : Form} {r : Reg} (body : Body)
    (h : Looking s tid t) (hread : readsTcm i = false) (hopen : t.issueTrap i f = none) (hr : t.emptyRead f.reads = some r) :
    s.issue i f body =
      { s with
        dbg := { s.dbg with issuedNow := mapSet s.dbg.issuedNow t.vcore (s.ac * 8 + t.slot) }
        threads := mapSet s.threads tid { s.blockStart t with
          run := .wait, wait := some ⟨.reply r, r, 0, false, false, none, 0⟩, parkedAt := s.pt, reportedA := false,
          reportedB := false } } := by
  obtain ⟨l, hl⟩ := s.blockStart_eq t
  have hopen' : ({ t with snap := l } : Thread).issueTrap i f = none := hopen
  have hr' : ({ t with snap := l } : Thread).emptyRead f.reads = some r := hr
  simp only [State.issue, h.here, h.ready, h.served, h.settled, hread]
  simp only [hl, hopen', hr']
  rw [if_neg (by simp)]
  rfl

/-- A word whose thread meets a fault of the word itself answers the stopped state. -/
theorem State.threadOp_trapped {s : State} {tid : Nat} {t : Thread} {i : Instr} {f : Form} {x : Trap} {body : Body} {perf : Perform}
    (h : Looking s tid t) (hread : readsTcm i = false) (hx : t.issueTrap i f = some x) :
    s.threadOp i f body perf = .next (s.stopped tid t (s.entry t i) x) := by
  rw [s.threadOp_ready i f body perf tid t h.here h.ready, s.issue_trapped body h hread hx]

/-! ## The faults of a word (R27, R33, R35, R77, R100) -/

/-- A light thread may name no x register above x15 and issue no form that is closed to it (R35). -/
theorem Thread.issueTrap_light {t : Thread} {i : Instr} {f : Form} (hl : t.light = true)
    (hf : f.light = false ∨ ∃ r ∈ f.reads ++ f.writes, 16 ≤ r.toNat) : t.issueTrap i f = some ⟨16, 0, wordOf i⟩ := by
  unfold Thread.issueTrap
  rw [if_pos]
  rcases hf with hf | ⟨r, hr, h16⟩
  · simp [hl, hf]
  · rw [hl, Bool.true_and, Bool.or_eq_true]
    exact .inr (List.any_eq_true.2 ⟨r, hr, by simpa using h16⟩)

/-- A form that names no v register uses no stream the wrong way (R178). -/
theorem Thread.streamIllegal_scalar (t : Thread) (f : Form) (hr : f.vreads = []) (hw : f.vwrites = []) : t.streamIllegal f = false := by
  simp [Thread.streamIllegal, hr, hw]

/-- The fault of a CSR instruction that writes, of any thread: the registers it names may be closed too, which is the same fault. -/
theorem Thread.issueTrap_csrrw {t : Thread} (rd a : Reg) (c : BitVec 12) (mark : Bool)
    (h : csrTrap t.light t.sup c.toNat true (wordOf (.csrrw rd c a mark)) = some ⟨16, 0, wordOf (.csrrw rd c a mark)⟩) :
    t.issueTrap (.csrrw rd c a mark) (scalarForm [a] [rd] mark) = some ⟨16, 0, wordOf (.csrrw rd c a mark)⟩ := by
  unfold Thread.issueTrap
  split
  · rfl
  · rw [t.streamIllegal_scalar _ rfl rfl]
    exact h

theorem csrTrap_absent {light sup : Bool} {n : Nat} {writes : Bool} {word : Word} (h : csrClass n = none) :
    csrTrap light sup n writes word = some ⟨16, 0, word⟩ := by
  simp [csrTrap, h]

theorem csrTrap_readOnly {light sup : Bool} {n : Nat} {word : Word} (h : csrClass n = some .ro) :
    csrTrap light sup n true word = some ⟨16, 0, word⟩ := by
  simp [csrTrap, h]

/-- Settles O18: each word meets its fault as it issues, and an empty source parks the thread. -/
theorem issueStops : Obligations.IssueStops := by
  refine ⟨fun s tid t hc hr hs hf => ?_, fun s tid t rd a b r mark hc hr hs hf hopen hempty => ?_⟩
  · have h : Looking s tid t := ⟨hc, hr, hs, hf⟩
    refine ⟨fun rd a b mark hl hreg => ?_, fun ty d a b m mark hl => ?_, fun mark hu => ⟨?_, ?_⟩, fun mark hsup hlev => ?_,
      fun rd a mark hl hu => ?_, fun rd a c mark hn => ?_, fun rd a c mark hro => ?_⟩
    · refine State.threadOp_trapped h rfl (t.issueTrap_light hl (.inr ?_))
      rcases hreg with hreg | hreg | hreg
      · exact ⟨rd, by simp [scalarForm], hreg⟩
      · exact ⟨a, by simp [scalarForm], hreg⟩
      · exact ⟨b, by simp [scalarForm], hreg⟩
    · exact State.threadOp_trapped h rfl (Thread.issueTrap_light hl (.inl rfl))
    · show execCswap mark s = _
      refine State.threadOp_trapped h rfl ?_
      simp [Thread.issueTrap, deferredForm, Thread.streamIllegal, hu]
    · show execXret mark s = _
      refine State.threadOp_trapped h rfl ?_
      simp [Thread.issueTrap, deferredForm, Thread.streamIllegal, hu]
    · show execXret mark s = _
      refine State.threadOp_trapped h rfl ?_
      simp [Thread.issueTrap, deferredForm, Thread.streamIllegal, hsup, hlev]
    · refine State.threadOp_trapped h rfl ?_
      simp [Thread.issueTrap, scalarForm, Thread.streamIllegal, hl, hu, csrTrap, csrClass]
    · exact State.threadOp_trapped h rfl (Thread.issueTrap_csrrw rd a c mark (csrTrap_absent hn))
    · exact State.threadOp_trapped h rfl (Thread.issueTrap_csrrw rd a c mark (csrTrap_readOnly hro))
  · have h : Looking s tid t := ⟨hc, hr, hs, hf⟩
    have hissue := State.threadOp_ready s (.add rd a b mark) (scalarForm [a, b] [rd] mark)
      (fun _ _ t e => (e.short rd (t.readX a + t.readX b), t.pc + 4)) noPerform tid t hc hr
    rw [State.issue_empty _ h rfl hopen hempty] at hissue
    exact hissue

end Sys2Proof.Machine
end

section
/-!
No meaning of the model is a refusal (R33): every word and every event answers a next state or the one named fault. A meaning is a
tree of case splits with these answers at its leaves; `repeat'` follows the splits to the leaves, whose constructor closes them.
-/
namespace Sys2Proof.Machine

/-- The outcome is a next state or a fault. -/
inductive Answers : Host.Outcome State Fault Refusal → Prop
  | next (s : State) : Answers (.next s)
  | fault (f : Fault) : Answers (.fault f)

theorem Answers.not_refused {o : Host.Outcome State Fault Refusal} (h : Answers o) (r : Refusal) : o ≠ .refused r := by
  rintro rfl
  cases h

/-! ## Words: an instruction of the thread in the current slot, where no device stops it -/

theorem State.threadOp_answers (s : State) (i : Instr) (f : Form) (body : Body) (perf : Perform) :
    Answers (s.threadOp i f body perf) := by
  unfold State.threadOp
  repeat' (first | with_reducible constructor | split)

theorem State.xcmd_answers (s : State) (i : Instr) (no op : Nat) (short : Bool) (rd rs1 rs2 : Reg) (mark : Bool) :
    Answers (s.xcmd i no op short rd rs1 rs2 mark) := s.threadOp_answers _ _ _ _

theorem State.farAtomic_answers (s : State) (i : Instr) (op : Nat) (rd rs1 rs2 : Reg) (mark : Bool) :
    Answers (s.farAtomic i op rd rs1 rs2 mark) := by
  unfold State.farAtomic
  split
  · exact .fault _
  · split <;> exact s.threadOp_answers _ _ _ _

theorem execCadd_answers (s : State) (scope : Scope) (rd rs1 rs2 : Reg) (mark : Bool) :
    Answers (execCadd scope rd rs1 rs2 mark s) := by
  simp only [execCadd]
  split
  · exact .fault _
  · split <;> exact s.threadOp_answers _ _ _ _

theorem execLda_answers (s : State) (scope : Scope) (rd rs1 : Reg) (mark : Bool) : Answers (execLda scope rd rs1 mark s) := by
  simp only [execLda]
  split
  · exact .fault _
  · exact s.threadOp_answers _ _ _ _

theorem State.compareSwap_answers (s : State) (i : Instr) (rd rs1 rs2 rs3 : Reg) (mark : Bool) :
    Answers (s.compareSwap i rd rs1 rs2 rs3 mark) := by
  unfold State.compareSwap
  split
  · exact .fault _
  · exact s.threadOp_answers _ _ _ _

theorem State.wordWait_answers (s : State) (i : Instr) (rd rs1 rs2 rs3 : Reg) (mark : Bool) (kind : Nat → Word → Word → WaitKind)
    (late : Word → Word → Word) : Answers (s.wordWait i rd rs1 rs2 rs3 mark kind late) := by
  unfold State.wordWait
  split
  · exact .fault _
  · exact s.threadOp_answers _ _ _ _

/-! ## Events whose meaning is made of further steps -/

/-- The units of a command run one after the other (R214). -/
theorem State.runUnits_answers (s : State) (id n : Nat) : Answers (s.runUnits id n) := by
  induction n generalizing s with
  | zero => exact .next s
  | succ n ih =>
    unfold State.runUnits
    repeat' (first | with_reducible constructor | exact ih _ | split)

theorem execCommandStart_answers (s : State) (id n : Nat) : Answers (execCommandStart id n s) := by
  unfold execCommandStart
  repeat' (first | with_reducible constructor | exact s.runUnits_answers id n | split)

/-- The answer to a presented store is a trap, an acceptance, a head that has passed its first step, or the one fault. -/
theorem State.acceptStore_answers {s : State} {tid : Nat} {t : Thread} {e : Entry} {o : Host.Outcome State Fault Refusal}
    (h : s.acceptStore tid t e = some o) : Answers o := by
  simp only [State.acceptStore] at h
  split at h
  · cases h
    exact .next _
  split at h
  · cases h
    exact .next _
  split at h
  · obtain ⟨_, -, rfl⟩ := Option.map_eq_some_iff.mp h
    exact .next _
  split at h <;> cases h
  · exact .next _
  · exact .fault _

theorem State.acceptRmw_answers {s : State} {tid : Nat} {t : Thread} {e : Entry} {rd : Reg} {new : Word → Option Word}
    {o : Host.Outcome State Fault Refusal} (h : s.acceptRmw tid t e rd new = some o) : Answers o := by
  simp only [State.acceptRmw] at h
  split at h
  · cases h
    exact .next _
  split at h
  · cases h
    exact .next _
  split at h
  · cases h
  split at h <;> cases h
  · exact .next _
  · exact .fault _

theorem State.nextAppend_answers (s : State) (tid : Nat) (t : Thread) : Answers (s.nextAppend tid t) := by
  simp only [State.nextAppend, State.acceptAppend]
  repeat' (first | with_reducible constructor | split)

theorem execStoreAcceptance_answers (s : State) (v sl : Nat) : Answers (execStoreAcceptance v sl s) := by
  simp only [execStoreAcceptance]
  split
  · exact .next _
  split
  case h_1 o h =>
    obtain ⟨e, -, he⟩ := Option.bind_eq_some_iff.mp h
    split at he
    · exact State.acceptRmw_answers he
    · exact State.acceptStore_answers he
  case h_2 => exact s.nextAppend_answers _ _

theorem execCounterWindowWrite_answers (s : State) (off size : Nat) (val : Word) :
    Answers (execCounterWindowWrite off size val s) := by
  simp only [execCounterWindowWrite]
  repeat' (first | with_reducible constructor | split)

theorem execHostMemoryAccess_answers (s : State) (write : Bool) (addr : HostAddr) (size val : Nat) :
    Answers (execHostMemoryAccess write addr size val s) := by
  simp only [execHostMemoryAccess]
  repeat' (first | with_reducible constructor | exact execCounterWindowWrite_answers s _ _ _ | split)

/-- A flit that acknowledges is itself the acknowledgement (R325). -/
theorem execJorraxFlitReceive_answers (s : State) (port : Nat) (text : FlitText) (tag : BitVec 128) :
    Answers (execJorraxFlitReceive port text tag s) := by
  simp only [execJorraxFlitReceive, execJorraxAck, execJorraxNak]
  repeat' (first | with_reducible constructor | split)


/-! ## Every instruction and every event -/

theorem exec_answers (i : Instr) (s : State) : Answers (exec i s) := by
  unfold exec
  cases i with
  -- words that a device register may stop
  | lda => exact execLda_answers ..
  | cadd => exact execCadd_answers ..
  | aadd | aand | aor | axor | amin | amax | aminu | amaxu | aswap => exact s.farAtomic_answers ..
  | acasV | acasS => exact s.compareSwap_answers ..
  | cwait | lwait => exact s.wordWait_answers ..
  -- words of the XCMD form
  | mma | mmaBs | mlut | mbin | mzero | mlda | msta | tcfg | trel | mteam | copy1 | copy2 | copyx | cfill | qnt8 | qs2p | dqnt
    | cred | cbcast | cagath | sdcfg | sdrst => exact s.xcmd_answers ..
  -- events with a lemma of their own
  | commandStart => exact execCommandStart_answers ..
  | storeAcceptance => exact execStoreAcceptance_answers ..
  | hostMemoryAccess => exact execHostMemoryAccess_answers ..
  | counterWindowWrite => exact execCounterWindowWrite_answers ..
  | jorraxFlitReceive => exact execJorraxFlitReceive_answers ..
  -- events: the core and its threads
  | blockRetire | breakpointTrap | longResultReturn | ltbExpiry | replyArrival | timeoutWindowBoundary | hangReportA |
    hangReportB | clockGate | coreWake | followMove | postedFaultReport | hostCounterPoll | evcfgWrite | illegalInstruction |
    instructionFetchFault =>
    simp only [execBlockRetire, execBreakpointTrap, execLongResultReturn, execLtbExpiry, execReplyArrival,
      execTimeoutWindowBoundary, execHangReportA, execHangReportB, execClockGate, execCoreWake, execFollowMove,
      execPostedFaultReport, execHostCounterPoll, execEvcfgWrite, execIllegalInstruction, execInstructionFetchFault]
    repeat' (first | with_reducible constructor | split)
  -- events: packets and streams
  | eventPacketArrival | packetAck | packetNack | markerResend | stepMarkerSend | streamDataReady | streamDeadline |
    streamContextDrain =>
    simp only [execEventPacketArrival, execPacketAck, execPacketNack, execMarkerResend, execStepMarkerSend,
      execStreamDataReady, execStreamDeadline, execStreamContextDrain]
    repeat' (first | with_reducible constructor | split)
  -- events: commands, stations, kernels and waits
  | collectiveAbort | commandCompletion | commandDeadline | shoot | wake | move | pageWalk | poolDispatch | kernelEndSequence
    | waitConditionMet | waitDeadlineExpiry =>
    simp only [execCollectiveAbort, execCommandCompletion, execCommandDeadline, execShoot, execWake, execMove, execPageWalk,
      execPoolDispatch, execKernelEndSequence, execWaitConditionMet, execWaitDeadlineExpiry]
    repeat' (first | with_reducible constructor | split)
  -- events: queues and contexts
  | queueRegister | queueKick | packetReread | queueStale | preconditionMet | holdDeadline | kernelPlacement | imageLoad |
    startMessage | queueResume | kernelEnding | contextDescriptorWrite | contextKill | preempt | preemptionTrap | migrate |
    migrationTrap | migrationForceExpiry | spill | spillDone | fill | fillDone | swapin | resume | reportPost | remapGo |
    remapMoveComplete =>
    simp only [execQueueRegister, execQueueKick, execPacketReread, execQueueStale, execPreconditionMet, execHoldDeadline,
      execKernelPlacement, execImageLoad, execStartMessage, execQueueResume, execKernelEnding, execContextDescriptorWrite,
      execContextKill, execPreempt, execPreemptionTrap, execMigrate, execMigrationTrap, execMigrationForceExpiry, execSpill,
      execSpillDone, execFill, execFillDone, execSwapin, execResume, execReportPost, execRemapGo, execRemapMoveComplete]
    repeat' (first | with_reducible constructor | split)
  -- events: links and the host
  | ringClockChange | clockStallComplete | jorraxPortUp | jorraxPortDown | jorraxAck | jorraxNak | jorraxReplayTimeout |
    keySlotWrite | keySwitch | remoteAccess | timeSyncExchange | timeSyncLoss =>
    simp only [execRingClockChange, execClockStallComplete, execJorraxPortUp, execJorraxPortDown, execJorraxAck,
      execJorraxNak, execJorraxReplayTimeout, execKeySlotWrite, execKeySwitch, execRemoteAccess, execTimeSyncExchange,
      execTimeSyncLoss]
    repeat' (first | with_reducible constructor | split)
  -- events: power, debug, bring-up and registers
  | powerGate | waisarReading | waisarVersionOffer | telemetryLoss | shedForceExpiry | restoreHoldExpiry | powerWindowEnd |
    overcapEnd | droopDetect | canaryWarning | canaryStepDown | sensorRead | thermalClockStep | clusterPairCurrentSample |
    rackBusOutOfRange | samplingPulse | moduleReset | firmwareVerify | linkBringup | supervisorVerify | attestationRequest |
    softError | storePerform | registerWrite =>
    simp only [execPowerGate, execWaisarReading, execWaisarVersionOffer, execTelemetryLoss, execShedForceExpiry,
      execRestoreHoldExpiry, execPowerWindowEnd, execOvercapEnd, execDroopDetect, execCanaryWarning, execCanaryStepDown,
      execSensorRead, execThermalClockStep, execClusterPairCurrentSample, execRackBusOutOfRange, execSamplingPulse,
      execModuleReset, execFirmwareVerify, execLinkBringup, execSupervisorVerify, execAttestationRequest, execSoftError,
      execStorePerform, execRegisterWrite]
    repeat' (first | with_reducible constructor | split)
  -- every other word
  | _ => exact s.threadOp_answers _ _ _ _

/-! ## The schedule: each of its steps is one of these -/

theorem State.issueOne_answers (s : State) : Answers s.issueOne := by
  unfold State.issueOne
  split
  · exact .next _
  split
  · exact .next _
  split
  · exact exec_answers (.breakpointTrap _ _) s
  split
  · exact exec_answers .instructionFetchFault s
  split
  · exact exec_answers _ s
  · exact exec_answers (.illegalInstruction _) s

theorem State.coreTurn_answers (s : State) (v : Nat) : Answers (s.coreTurn v) := by
  unfold State.coreTurn
  split
  · exact .next _
  split
  · exact .next _
  · exact State.issueOne_answers _

theorem State.walkTurn_answers (s : State) (v sl : Nat) : Answers (s.walkTurn v sl) := by
  have retire : Answers (execBlockRetire v sl s) := exec_answers (.blockRetire v sl) s
  have return_ (idx : Nat) : Answers (execLongResultReturn v sl idx false s) := exec_answers (.longResultReturn v sl idx false) s
  unfold State.walkTurn
  split
  · exact .next s
  split
  · exact .next s
  split
  case h_1 => exact .next s
  case h_2 =>
    split
    · exact exec_answers (.waitConditionMet _) s
    · exact exec_answers (.waitDeadlineExpiry _) s
  case h_3 =>
    split
    · split
      · exact return_ _
      · exact retire
    split
    · exact retire
    split
    · exact return_ _
    split
    · exact retire
    split
    · split
      · exact execStoreAcceptance_answers s v sl
      · exact exec_answers _ _
    split
    · exact exec_answers (.evcfgWrite v sl) s
    · exact retire

theorem State.act_answers (s : State) (a : Act) : Answers (s.act a) := by
  cases a with
  | core v => exact s.coreTurn_answers v
  | walk v sl => exact s.walkTurn_answers v sl
  | event i =>
    simp only [State.act]
    split
    · exact exec_answers i s
    · exact .next s
  | ring n => exact .next _
  | outside loc bytes => exact .next _

/-- Every step that may be tried answers. -/
def AllAnswer (l : List Try) : Prop := ∀ f ∈ l, ∀ s, Answers (f s)

theorem allAnswer_nil : AllAnswer [] := by simp [AllAnswer]

theorem allAnswer_cons (f : Try) (l : List Try) : AllAnswer (f :: l) ↔ (∀ s, Answers (f s)) ∧ AllAnswer l :=
  List.forall_mem_cons

theorem allAnswer_append (l m : List Try) : AllAnswer (l ++ m) ↔ AllAnswer l ∧ AllAnswer m := List.forall_mem_append

theorem allAnswer_ite (c : Prop) [Decidable c] (l m : List Try) :
    AllAnswer (if c then l else m) ↔ (c → AllAnswer l) ∧ (¬ c → AllAnswer m) := by
  split <;> simp_all

theorem allAnswer_map {α : Type} (g : α → Try) (l : List α) : AllAnswer (l.map g) ↔ ∀ a ∈ l, ∀ s, Answers (g a s) :=
  List.forall_mem_map

theorem allAnswer_flatMap {α : Type} (g : α → List Try) (l : List α) : AllAnswer (l.flatMap g) ↔ ∀ a ∈ l, AllAnswer (g a) :=
  List.forall_mem_flatMap

theorem allAnswer_filterMap {α : Type} (g : α → Option Try) (l : List α) :
    AllAnswer (l.filterMap g) ↔ ∀ a ∈ l, ∀ f, g a = some f → ∀ s, Answers (f s) := by
  simp only [AllAnswer, List.mem_filterMap]
  exact ⟨fun h a ha f hf => h f ⟨a, ha, hf⟩, fun h f ⟨a, ha, hf⟩ => h a ha f hf⟩

theorem State.firstChange_answers {s : State} {l : List Try} {o : Host.Outcome State Fault Refusal} (hl : AllAnswer l)
    (h : s.firstChange l = some o) : Answers o := by
  induction l with
  | nil => cases h
  | cons f r ih =>
    obtain ⟨hf, hr⟩ := List.forall_mem_cons.mp hl
    unfold State.firstChange at h
    split at h
    · split at h
      · exact ih hr h
      · cases h
        exact .next _
    · cases h
      exact hf s

theorem State.clocklessTries_answer (s : State) : AllAnswer s.clocklessTries := by
  simp only [State.clocklessTries, allAnswer_append, allAnswer_flatMap, allAnswer_cons]
  refine ⟨fun p _ => ?_, exec_answers .overcapEnd, exec_answers .telemetryLoss, exec_answers .timeSyncLoss, allAnswer_nil⟩
  split
  · simp only [allAnswer_ite, allAnswer_cons]
    exact ⟨fun _ => ⟨exec_answers (.jorraxAck _ _), exec_answers (.jorraxReplayTimeout _), allAnswer_nil⟩, fun _ => allAnswer_nil⟩
  · exact allAnswer_nil

theorem State.unitTries_answer (s : State) : AllAnswer s.unitTries := by
  simp only [State.unitTries, allAnswer_append, allAnswer_flatMap, allAnswer_cons, allAnswer_map, allAnswer_filterMap, allAnswer_ite,
    allAnswer_nil, implies_true, and_true, true_and, and_assoc]
  refine ⟨exec_answers .clockStallComplete, exec_answers .remapMoveComplete, exec_answers .reportPost,
    fun _ => exec_answers (.postedFaultReport _), fun _ _ => exec_answers (.replyArrival _), fun _ _ => exec_answers (.storePerform _),
    fun e _ f hf => ?hops, fun p _ => ?packets, fun _ _ _ _ => exec_answers (.stepMarkerSend _ _), fun c _ => ?cmds,
    fun k _ => ?kernels, fun _ _ => exec_answers (.poolDispatch _), fun q _ => ?queues,
    fun _ _ _ _ => ⟨exec_answers (.spillDone _ _), exec_answers (.fillDone _ _)⟩, fun x _ f hf => ?kills,
    exec_answers .samplingPulse, exec_answers .thermalClockStep, exec_answers .restoreHoldExpiry⟩
  case hops =>
    split at hf <;> cases hf
    exact fun _ => .next _
  case packets =>
    exact ⟨exec_answers (.eventPacketArrival _), exec_answers (.packetAck _), exec_answers (.packetNack _),
      fun _ => exec_answers (.markerResend _)⟩
  case cmds =>
    split <;> simp only [allAnswer_cons, allAnswer_nil, and_true]
    · exact exec_answers (.commandCompletion _)
    · exact ⟨exec_answers (.commandDeadline _), exec_answers (.shoot _), exec_answers (.wake _), exec_answers (.move _),
        exec_answers (.commandStart _ _)⟩
  case kernels =>
    exact ⟨exec_answers (.kernelEndSequence _), exec_answers (.imageLoad _), fun _ _ => exec_answers (.startMessage _ _),
      exec_answers (.kernelEnding _)⟩
  case queues =>
    exact ⟨exec_answers (.queueKick _ _), fun _ => exec_answers (.packetReread _ _), exec_answers (.queueStale _ _),
      exec_answers (.preconditionMet _ _), exec_answers (.kernelPlacement _ _), exec_answers (.holdDeadline _ _)⟩
  case kills =>
    split at hf <;> cases hf
    exact exec_answers (.contextKill _)

theorem State.threadTries_answer (s : State) : AllAnswer s.threadTries := by
  simp only [State.threadTries, allAnswer_cons, allAnswer_flatMap]
  refine ⟨exec_answers .shedForceExpiry, fun e _ => ?_⟩
  split
  case h_2 => exact allAnswer_nil
  case h_1 v sl _ =>
    simp only [allAnswer_append, allAnswer_cons, allAnswer_ite, allAnswer_nil, implies_true, and_true, true_and, and_assoc]
    refine ⟨exec_answers (.followMove _ _), exec_answers (.preemptionTrap _ _), exec_answers (.migrationForceExpiry _ _),
      exec_answers (.migrationTrap _ _), exec_answers (.streamContextDrain _), ?stream,
      fun _ => exec_answers (.timeoutWindowBoundary _), exec_answers (.storeAcceptance _ _), exec_answers (.ltbExpiry _ _),
      exec_answers (.hangReportA _ _), exec_answers (.hangReportB _ _), exec_answers (.hostCounterPoll _),
      fun s => s.walkTurn_answers v sl⟩
    split
    case h_2 => exact allAnswer_nil
    split
    case h_2 => exact allAnswer_nil
    simp only [allAnswer_cons, allAnswer_nil, and_true]
    exact ⟨exec_answers (.streamDataReady _ _ _), exec_answers (.streamDeadline _ _)⟩

theorem State.issueTries_answer (s : State) : AllAnswer s.issueTries :=
  (allAnswer_map _ _).mpr fun v _ s => s.coreTurn_answers v

theorem State.tries_answer (s : State) : AllAnswer s.tries := by
  simp only [State.tries, allAnswer_append, allAnswer_ite]
  exact ⟨s.clocklessTries_answer, fun _ => allAnswer_nil,
    fun _ => ⟨⟨s.unitTries_answer, s.threadTries_answer⟩, s.issueTries_answer⟩⟩

theorem State.free_answers (s : State) : Answers s.free_ := by
  unfold State.free_
  split
  case h_1 o h => exact State.firstChange_answers s.tries_answer h
  case h_2 => exact .next _

theorem step_answers (s : State) : Answers (step s) := by
  unfold step
  split
  · exact State.free_answers _
  · exact State.act_answers _ _

/-- Settles O7: a step is a turn of the schedule or one of the steps that may be tried, and every one of them answers. -/
theorem noStepRefused : Obligations.NoStepRefused := fun s r => (step_answers s).not_refused r

end Sys2Proof.Machine
end

section
/-!
Events of a core and of the thread in a slot (R33, R73, R84, R110, R111, R113, R194, R362): what each leaves, from what the shared
operations leave.
-/
namespace Sys2Proof.Machine

/-! ## The thread of a slot -/

theorem State.inSlot_place {s : State} {v sl tid : Nat} {t : Thread} (h : s.inSlot v sl = some (tid, t)) : t.place = .slot v sl := by
  simpa using List.find?_some h

theorem State.current_of_inSlot {s : State} {v sl tid : Nat} {t : Thread} (h : s.inSlot v sl = some (tid, t)) (hc : s.cur = (v, sl)) :
    s.current = some (tid, t) := by
  rw [State.current, hc]
  exact h

/-! ## A write of evcfg (R194) -/

theorem evcfgWrite_toNat (v : Word) :
    (evcfgWrite v).toNat = min (fieldOf v 0 10) 512 + fieldOf v 16 32 * 2 ^ 16 + fieldOf v 48 1 * 2 ^ 48 := by
  have h16 : fieldOf v 16 32 < 2 ^ 32 := Nat.mod_lt _ (by decide)
  have h48 : fieldOf v 48 1 < 2 ^ 1 := Nat.mod_lt _ (by decide)
  rw [evcfgWrite, BitVec.toNat_ofNat]
  omega

theorem fieldOf_evcfgWrite_enable (v : Word) : fieldOf (evcfgWrite v) 48 1 = fieldOf v 48 1 := by
  have h16 : fieldOf v 16 32 < 2 ^ 32 := Nat.mod_lt _ (by decide)
  have h48 : fieldOf v 48 1 < 2 ^ 1 := Nat.mod_lt _ (by decide)
  rw [fieldOf, bitsOf, evcfgWrite_toNat]
  omega

theorem fieldOf_evcfgWrite_cap (v : Word) : fieldOf (evcfgWrite v) 0 10 = min (fieldOf v 0 10) 512 := by
  rw [fieldOf, bitsOf, evcfgWrite_toNat]
  omega

/-- The four channels' bytes are kept. -/
theorem fieldOf_evcfgWrite_channel (v : Word) {c : Nat} (hc : c < 4) :
    fieldOf (evcfgWrite v) (16 + 8 * c) 8 = fieldOf v (16 + 8 * c) 8 := by
  have h : fieldOf v 16 32 = v.toNat / 2 ^ 16 % 2 ^ 32 := rfl
  rw [fieldOf, fieldOf, bitsOf, bitsOf, evcfgWrite_toNat, h]
  obtain rfl | rfl | rfl | rfl : c = 0 ∨ c = 1 ∨ c = 2 ∨ c = 3 := by omega
  all_goals omega

/-- A write that enables an inbox without an owner makes the writer its owner. -/
theorem State.writeEvcfg_first {s : State} {t : Thread} {w : Word} (hen : fieldOf (s.inbox t.vcore).evcfg 48 1 = 0)
    (hset : fieldOf w 48 1 = 1) (hown : (s.inbox t.vcore).owner = none) :
    s.writeEvcfg t w = s.updInbox t.vcore fun _ => ⟨evcfgWrite w, some t.ctx, t.kernel, (s.inbox t.vcore).q⟩ := by
  simp [State.writeEvcfg, fieldOf_evcfgWrite_enable, hen, hset, hown]

@[simp] theorem State.inbox_updInbox_self (s : State) (v : Nat) (f : Inbox → Inbox) : (s.updInbox v f).inbox v = f (s.inbox v) := by
  simp [State.inbox, State.updInbox]

/-- A fold whose steps keep a projection keeps it. -/
theorem foldl_keeps {α β γ : Type} (p : α → γ) (g : α → β → α) (h : ∀ a b, p (g a b) = p a) (l : List β) (a : α) :
    p (l.foldl g a) = p a :=
  List.foldlRecOn (motive := fun x => p x = p a) l g rfl fun x hx b _ => (h x b).trans hx

/-- Where a thread is and whose it is: what the commit of an entry keeps. -/
def Thread.identity (t : Thread) : Place × Nat × Option Nat := (t.place, t.ctx, t.kernel)

theorem Thread.commitPop_identity (t : Thread) (p : Nat) : (t.commitPop p).identity = t.identity := by
  unfold Thread.commitPop
  split <;> rfl

theorem Thread.commitApp_identity (pc : Word) (t : Thread) (a : Nat × Vec) : (Thread.commitApp pc t a).identity = t.identity := by
  unfold Thread.commitApp
  split
  · dsimp only
    split <;> rfl
  · rfl

theorem Thread.commit_identity (ac : Nat) (t : Thread) (e : Entry) : (t.commit ac e).identity = t.identity := by
  unfold Thread.commit
  dsimp only
  rw [foldl_keeps Thread.identity _ (Thread.commitApp_identity e.pc), foldl_keeps Thread.identity _ Thread.commitPop_identity]
  have hflags : ∀ u : Thread, (if u.light then u else { u with vflags := vflagsAfter u.vflags e.flags }).identity = u.identity := by
    intro u
    split <;> rfl
  rw [hflags, foldl_keeps Thread.identity Thread.setM (by simp [Thread.identity]),
    foldl_keeps Thread.identity Thread.setV (by simp [Thread.identity]),
    foldl_keeps Thread.identity (Thread.commitX ac) (by simp [Thread.identity])]
  rfl

/-- A CSR instruction on evcfg asks for its new value from the one the inbox holds (R97). -/
theorem State.csrWrite_evcfg (s : State) (tid : Nat) (t : Thread) (op : CsrOp) :
    s.csrWrite tid t 0x007 op = s.writeEvcfg t (op.apply (s.inbox t.vcore).evcfg) := rfl

/-- The walk commits a write of evcfg: the inbox of the thread's core takes it. -/
theorem State.commitHead_evcfg {s : State} {tid : Nat} {t : Thread} {e : Entry} {rest : List Entry} {op : CsrOp}
    (ht : s.thr tid = some t) (hb : t.block = e :: rest) (hcsr : e.csr = some (0x007, op)) :
    ∃ (s1 : State) (t1 : Thread), s.commitHead tid = s1.writeEvcfg t1 (op.apply (s1.inbox t1.vcore).evcfg) ∧
      s1.inboxes = s.inboxes ∧ t1.identity = t.identity := by
  refine ⟨(if !e.app.isEmpty && s.streamsIn t then s.touchStreams t else s).setThr tid (t.commit s.ac e), t.commit s.ac e, ?_, ?_,
    t.commit_identity s.ac e⟩
  · simp only [State.commitHead, ht, hb, hcsr]
    exact State.csrWrite_evcfg _ _ _ _
  · split <;> rfl

/-- The first enabling write of an inbox without an owner. -/
theorem State.commitHead_enables {s : State} {tid v sl : Nat} {t : Thread} {e : Entry} {rest : List Entry} {op : CsrOp}
    (ht : s.thr tid = some t) (hp : t.place = .slot v sl) (hb : t.block = e :: rest) (hcsr : e.csr = some (0x007, op))
    (hown : (s.inbox v).owner = none) (hen : fieldOf (s.inbox v).evcfg 48 1 = 0)
    (hset : fieldOf (op.apply (s.inbox v).evcfg) 48 1 = 1) :
    (s.commitHead tid).inbox v = ⟨evcfgWrite (op.apply (s.inbox v).evcfg), some t.ctx, t.kernel, (s.inbox v).q⟩ := by
  obtain ⟨s1, t1, heq, hs1, ht1⟩ := State.commitHead_evcfg ht hb hcsr
  have hin : s1.inbox v = s.inbox v := by rw [State.inbox, hs1]; rfl
  simp only [Thread.identity, hp, Prod.mk.injEq] at ht1
  obtain ⟨hplace, hctx, hkernel⟩ := ht1
  have hv : t1.vcore = v := by rw [Thread.vcore, hplace]
  rw [heq, hv, hin, State.writeEvcfg_first (by rw [hv, hin]; exact hen) hset (by rw [hv, hin]; exact hown), hv,
    State.inbox_updInbox_self, hin, hctx, hkernel]

/-! ## What stands in place of the next instruction (R33, R84, R362) -/

theorem State.issuer_of_current {s : State} {tid : Nat} {t : Thread} (hc : s.current = some (tid, t)) (hr : t.run = .ready)
    (hs : t.shed = false) : s.issuer = some (tid, t) := by
  simp [State.issuer, hc, hr, hs]

theorem State.issueFault_eq (s : State) (tid : Nat) (t : Thread) (i : Instr) (x : Trap) :
    s.issueFault tid t i x = s.stopped tid t (s.entry t i) x := by
  obtain ⟨l, hl⟩ := s.blockStart_eq t
  simp only [State.issueFault]
  rw [State.append_fail _ _ _ _ _ x _ rfl, State.stopped, State.issued, hl]
  rfl

theorem State.fetchLoc_outside {s : State} {t : Thread} (h : t.pc.toNat < 0x2000000 ∨ 0x2007FFC < t.pc.toNat) :
    s.fetchLoc t = .error ⟨18, 1, t.pc⟩ := by
  simp [State.fetchLoc, h]

/-! ## A follow thread's move (R73) -/

theorem State.moveThread_thr {s : State} {tid v sl : Nat} {t : Thread} (ht : s.thr tid = some t) :
    (s.moveThread tid v sl).thr tid = some { t with place := .slot v sl, moveSpur := true, followTo := none } := by
  rw [State.moveThread, State.updThr_of_thr s tid _ t ht]
  exact State.thr_setThr_self _ _ _

theorem State.moveThread_sameMemory (s : State) (tid v sl : Nat) : SameMemory s (s.moveThread tid v sl) :=
  sameMemory_updThr s tid _

/-- A word that reads what it has and whose access is homed in another cluster is not issued (R73): its thread moves there, or its
block closes for the move. -/
theorem State.issue_follows {s : State} {tid c v sl : Nat} {t : Thread} {i : Instr} {rs ws : List Reg} {mark : Bool} (body : Body)
    (h : Looking s tid t) (hread : readsTcm i = false) (hopen : t.issueTrap i (scalarForm rs ws mark) = none)
    (hfull : t.emptyRead rs = none) (hto : t.followTo = none) (hdest : s.followDest t i = some (c, v, sl)) :
    let s1 : State := { s with dbg := { s.dbg with issuedNow := mapSet s.dbg.issuedNow t.vcore (s.ac * 8 + t.slot) } }
    s.issue i (scalarForm rs ws mark) body =
      if t.block.isEmpty then s1.moveThread tid v sl else s1.setThr tid { (s.blockStart t).close s.pt with followTo := some c } := by
  obtain ⟨l, hl⟩ := s.blockStart_eq t
  have hopen' : ({ t with snap := l } : Thread).issueTrap i (scalarForm rs ws mark) = none := hopen
  have hfull' : ({ t with snap := l } : Thread).emptyRead (scalarForm rs ws mark).reads = none := hfull
  have hask : State.followAsk { s with dbg := { s.dbg with issuedNow := mapSet s.dbg.issuedNow t.vcore (s.ac * 8 + t.slot) } }
      { t with snap := l } i = some (c, v, sl) := by
    simp only [State.followAsk, hto]
    exact hdest
  simp only [State.issue, h.here, h.ready, h.served, h.settled, hread]
  have hcore : ({ t with snap := l } : Thread).vcore = t.vcore := rfl
  have hslot : ({ t with snap := l } : Thread).slot = t.slot := rfl
  have hpops : ({ t with snap := l } : Thread).popList (scalarForm rs ws mark).vreads = [] := rfl
  simp only [hl, hopen', hfull', hcore, hslot, hpops, State.popBlocked, List.findSome?_nil, hask]
  rw [if_neg (by simp)]

/-- A scalar load is the load operation of its mnemonic. -/
theorem ScalarLoad.exec_eq {i : Instr} {rd a : Reg} {imm : BitVec 12} {mark sgn : Bool} {size : Nat}
    (h : ScalarLoad i rd a imm mark size sgn) (s : State) : exec i s = s.loadOp i rd a imm mark size sgn := by
  cases h <;> rfl

theorem ScalarLoad.not_readsTcm {i : Instr} {rd a : Reg} {imm : BitVec 12} {mark sgn : Bool} {size : Nat}
    (h : ScalarLoad i rd a imm mark size sgn) : readsTcm i = false := by
  cases h <;> rfl

/-- Settles O50: each event by its own meaning, the thread being the one in the slot. -/
theorem coreEvents : Obligations.CoreEvents := by
  intro s v sl tid t hin ht
  have hplace := State.inSlot_place hin
  refine ⟨?evcfg, ?window, ?hangA, ?hangB, ?idle, ?gate, ?wakes, ?sleeps, fun hr hs => ⟨?illegal, ?fetch, ?breakpoint, ?follow, ?load⟩⟩
  case evcfg =>
    intro e rest op hr hw hb hst hdef hcsr _ hown w hen hset
    have hib := State.commitHead_enables ht hplace hb hcsr hown hen hset
    refine ⟨s.commitHead tid, ?_, by rw [hib], by rw [hib], ?_, ?_, fun c hc => ?_⟩
    · simp [exec, execEvcfgWrite, hin, hb, hr, hw, hst, hdef, Entry.writesEvcfg, hcsr]
    · rw [hib, fieldOf_evcfgWrite_enable]
      exact hset
    · rw [hib, fieldOf_evcfgWrite_cap]
    · rw [hib, fieldOf_evcfgWrite_channel _ hc]
  case window =>
    intro hwin
    show execTimeoutWindowBoundary tid s = _
    rw [execTimeoutWindowBoundary, State.updThr_of_thr s tid _ t ht]
    simp [hwin, Thread.placed, hplace]
  case hangA =>
    intro hrep hh
    show execHangReportA v sl s = _
    simp [execHangReportA, hin, hrep, hh, State.report]
  case hangB =>
    intro hrep hh
    show execHangReportB v sl s = _
    simp [execHangReportB, hin, hrep, hh]
  case idle =>
    intro hidle hsince
    show execClockGate v s = _
    simp [execClockGate, hidle, hsince]
  case gate =>
    intro a hidle hsince hg
    show (_ → execClockGate v s = _) ∧ (_ → execClockGate v s = _)
    refine ⟨fun ha => ?_, fun ha => ?_⟩
    · simp [execClockGate, hidle, hsince, hg, ha]
    · simp [execClockGate, hidle, hsince, Nat.not_le.mpr ha]
  case wakes =>
    intro hd
    show execCoreWake v s = _
    rw [execCoreWake, if_pos hd]
  case sleeps =>
    intro hd
    show execCoreWake v s = _
    simp [execCoreWake, hd]
  case illegal =>
    intro w hc
    show execIllegalInstruction w s = _
    simp only [execIllegalInstruction, State.issuer_of_current (State.current_of_inSlot hin hc) hr hs, State.issueFault_eq]
  case fetch =>
    intro hc hpc
    show execInstructionFetchFault s = _
    simp only [execInstructionFetchFault, State.issuer_of_current (State.current_of_inSlot hin hc) hr hs, State.fetchLoc_outside hpc,
      State.issueFault_eq]
  case breakpoint =>
    intro hbp
    show execBreakpointTrap v sl s = _
    simp [execBreakpointTrap, hin, hr, hs, hbp, State.issueFault_eq]
  case follow =>
    intro c hb hto
    show (∀ v' sl', _ → ∃ s' t', execFollowMove v sl s = _ ∧ _) ∧ (_ → execFollowMove v sl s = _)
    refine ⟨fun v' sl' hslot => ⟨_, _, ?_, State.moveThread_thr ht, rfl, rfl, rfl, hr, rfl, s.moveThread_sameMemory tid v' sl'⟩,
      fun hslot => ?_⟩
    · simp [execFollowMove, hin, hto, hr, hs, hb, hslot]
    · simp [execFollowMove, hin, hto, hr, hs, hb, hslot]
  case load =>
    intro i rd a imm mark size sgn c v' sl' hi hc hopen hfull hto hdest
    have hcur := State.current_of_inSlot hin hc
    have hsettled : s.followNow t = none := by simp [State.followNow, hto]
    have h : Looking s tid t := ⟨hcur, hr, hs, hsettled⟩
    rw [hi.exec_eq, State.loadOp, State.threadOp_ready s i _ _ _ tid t hcur hr,
      State.issue_follows _ h hi.not_readsTcm hopen hfull hto hdest]
    refine ⟨fun hb => ?_, fun hb => ?_⟩
    · rw [if_pos (by simp [hb])]
      exact ⟨_, _, rfl, State.moveThread_thr ht, rfl, rfl, rfl, hb, hr, State.moveThread_sameMemory ..⟩
    · rw [if_neg (by simp [hb])]
      obtain ⟨l, hl⟩ := s.blockStart_eq t
      rw [hl]
      exact ⟨_, _, rfl, State.thr_setThr_self .., rfl, rfl, rfl, rfl, rfl, rfl, rfl⟩

end Sys2Proof.Machine
end

section
/-!
Rounding to a multiple and the encodings of a floating-point format (R43, R45, R47): a representable value keeps its
encoding.
-/
namespace Sys2Proof.Machine

/-! ## Rounding to a multiple (R47) -/

/-- Where the multiple is coarser than the value, rounding to nearest even takes the quotient or the next number. -/
theorem roundAt_rne_of_lt {neg : Bool} {m : Nat} {e q : Int} (h : e < q) :
    roundAt .rne neg m e q =
      let d := 2 ^ (q - e).toNat
      (if d < 2 * (m % d) ∨ (2 * (m % d) = d ∧ m / d % 2 = 1) then m / d + 1 else m / d, !decide (m % d = 0)) := by
  have hd : 0 < 2 ^ (q - e).toNat := Nat.two_pow_pos _
  simp only [roundAt, if_neg (Int.not_le.mpr h)]
  split
  next h0 => rw [if_neg (by omega), h0]; rfl
  next h0 => simp [h0]

/-- The multiple is a nearest one, of two nearest ones the even one, and it is exact where it divides. -/
theorem roundAt_rne_nearest (neg : Bool) (m : Nat) {e q : Int} (h : e < q) :
    let d := 2 ^ (q - e).toNat
    let r := roundAt .rne neg m e q
    2 * ((r.1 * d : Int) - m).natAbs ≤ d ∧ (2 * ((r.1 * d : Int) - m).natAbs = d → r.1 % 2 = 0) ∧ (r.2 = false ↔ m % d = 0) := by
  have hcast : (2 : Int) ^ (q - e).toNat = ((2 ^ (q - e).toNat : Nat) : Int) := by norm_cast
  simp only [roundAt_rne_of_lt h, hcast]
  have hm := Nat.div_add_mod m (2 ^ (q - e).toNat)
  have hr := Nat.mod_lt m (Nat.two_pow_pos (q - e).toNat)
  generalize 2 ^ (q - e).toNat = d at *
  have hmod : (m : Int) % d = (m % d : Nat) := by norm_cast
  rw [hmod]
  generalize m % d = r at *
  generalize m / d = k at *
  have hdown : (k : Int) * d - m = -r := by
    have hcast : (d : Int) * k + r = m := by exact_mod_cast hm
    rw [Int.mul_comm]
    omega
  have hup : ((k + 1 : Nat) : Int) * d - m = d - r := by
    rw [Int.natCast_add, Int.add_mul, Int.natCast_one, Int.one_mul]
    omega
  split
  · rw [hup]
    exact ⟨by omega, by omega, by simp⟩
  · rw [hdown]
    exact ⟨by omega, by omega, by simp⟩

/-- A value that is already a multiple stays as it is. -/
theorem roundAt_self (mode : Round) (neg : Bool) (m : Nat) (e : Int) : roundAt mode neg m e e = (m, false) := by
  simp [roundAt]

/-! ## Encodings (R43, R45) -/

/-- An encoding is its sign, its exponent field and its fraction. -/
theorem Fmt.bits_eq (f : Fmt) {a : Nat} (ha : a < 2 ^ (f.ebits + f.fbits + 1)) :
    a = (if bitAt a (f.ebits + f.fbits) then f.signBit else 0) + (bitsOf a f.fbits f.ebits * 2 ^ f.fbits + bitsOf a 0 f.fbits) := by
  have hlow := Nat.div_add_mod a (2 ^ f.fbits)
  have hexp := Nat.div_add_mod (a / 2 ^ f.fbits) (2 ^ f.ebits)
  have hpow : 2 ^ (f.ebits + f.fbits) = 2 ^ f.fbits * 2 ^ f.ebits := by rw [Nat.pow_add, Nat.mul_comm]
  rw [Nat.div_div_eq_div_mul, ← hpow] at hexp
  have htop : a / 2 ^ (f.ebits + f.fbits) < 2 := Nat.div_lt_of_lt_mul (by rwa [← Nat.pow_succ])
  have hhigh := congrArg (2 ^ f.fbits * ·) hexp
  simp only [Nat.mul_add, ← Nat.mul_assoc, ← hpow] at hhigh
  simp only [bitAt, bitsOf, Fmt.signBit, Nat.pow_zero, Nat.div_one, beq_iff_eq]
  rw [Nat.mul_comm (a / 2 ^ f.fbits % 2 ^ f.ebits)]
  obtain h | h := Nat.le_one_iff_eq_zero_or_eq_one.mp (Nat.le_of_lt_succ htop)
  · rw [h, Nat.mul_zero] at hhigh
    rw [h, if_neg (by decide)]
    omega
  · rw [h, Nat.mul_one] at hhigh
    rw [h, if_pos (by decide)]
    omega

/-- A field is less than the power of its width. -/
theorem bitsOf_lt (x lo w : Nat) : bitsOf x lo w < 2 ^ w := Nat.mod_lt _ (Nat.two_pow_pos w)

/-- The encoding that stands for an infinity. -/
theorem Fmt.eq_of_val_inf (f : Fmt) {a : Nat} {n : Bool} (ha : a < 2 ^ (f.ebits + f.fbits + 1)) (h : f.val a = .inf n) :
    f.infBits + (if n then f.signBit else 0) = a := by
  have hbits := f.bits_eq ha
  unfold Fmt.val at h
  dsimp only at h
  split at h
  · split at h
    next he hm =>
      obtain rfl : bitAt a (f.ebits + f.fbits) = n := FpVal.inf.inj h
      rw [he, hm, Nat.add_zero] at hbits
      rw [Nat.add_comm]
      exact hbits.symm
    · cases h
  · split at h <;> cases h

/-- A value that needs no more bits than the format has keeps its encoding: `k` units of the exponent `q`. -/
theorem Fmt.round_exact (f : Fmt) (mode : Round) (neg : Bool) {m : Nat} {e : Int} (hm : m ≠ 0)
    (hq : max ((Nat.log2 m : Int) + e - f.fbits) f.qmin = e) (hfit : (e - f.qmin).toNat * 2 ^ f.fbits + m < f.infBits) :
    f.round mode neg m e = ((if neg then f.signBit else 0) + ((e - f.qmin).toNat * 2 ^ f.fbits + m), 0) := by
  simp only [Fmt.round, if_neg hm, hq, roundAt_self]
  rw [if_neg (Nat.not_le.mpr hfit)]
  rfl

/-- Rounding leaves a representable value as it is. -/
theorem Fmt.deliver_val (f : Fmt) (mode : Round) {a : Nat} (ha : a < 2 ^ (f.ebits + f.fbits + 1)) (hebits : 1 < 2 ^ f.ebits)
    (hnan : (f.val a).isNan = false) : f.deliver mode (f.val a) = (a, 0) := by
  have hbits := f.bits_eq ha
  have hfrac := bitsOf_lt a 0 f.fbits
  have hexp := bitsOf_lt a f.fbits f.ebits
  cases hv : f.val a with
  | nan s => simp [hv, FpVal.isNan] at hnan
  | inf n => simp only [Fmt.deliver, f.eq_of_val_inf ha hv]
  | fin n m e =>
    unfold Fmt.val at hv
    dsimp only at hv
    split at hv
    · split at hv <;> cases hv
    next hmax =>
      split at hv
      next h0 =>
        obtain ⟨rfl, rfl, rfl⟩ := FpVal.fin.inj hv
        rw [h0, Nat.zero_mul, Nat.zero_add] at hbits
        by_cases hm : bitsOf a 0 f.fbits = 0
        · rw [hm] at hbits
          simp only [Fmt.deliver, Fmt.round, hm, if_pos]
          exact congrArg (·, 0) hbits.symm
        · have hlog : Nat.log2 (bitsOf a 0 f.fbits) < f.fbits := (Nat.log2_lt hm).mpr hfrac
          have hinf : 2 ^ f.fbits ≤ f.infBits := Nat.le_mul_of_pos_left _ (by omega)
          have hzero : (f.qmin - f.qmin).toNat * 2 ^ f.fbits + bitsOf a 0 f.fbits = bitsOf a 0 f.fbits := by
            rw [Int.sub_self, Int.toNat_zero, Nat.zero_mul, Nat.zero_add]
          have hfit := Nat.lt_of_lt_of_le hfrac hinf
          rw [Fmt.deliver, f.round_exact mode _ hm (by omega) (by rw [hzero]; exact hfit), hzero]
          exact congrArg (·, 0) hbits.symm
      next h0 =>
        obtain ⟨rfl, rfl, rfl⟩ := FpVal.fin.inj hv
        have hpos : 0 < 2 ^ f.fbits := Nat.two_pow_pos _
        have hlog : Nat.log2 (2 ^ f.fbits + bitsOf a 0 f.fbits) = f.fbits :=
          (Nat.log2_eq_iff (by omega)).mpr ⟨by omega, by rw [Nat.pow_succ]; omega⟩
        have hunits : (f.qmin + (bitsOf a f.fbits f.ebits : Int) - 1 - f.qmin).toNat = bitsOf a f.fbits f.ebits - 1 := by omega
        obtain ⟨x, hx⟩ : ∃ x, bitsOf a f.fbits f.ebits = x + 1 := ⟨_, (Nat.succ_pred h0).symm⟩
        have hsum : (bitsOf a f.fbits f.ebits - 1) * 2 ^ f.fbits + (2 ^ f.fbits + bitsOf a 0 f.fbits) =
            bitsOf a f.fbits f.ebits * 2 ^ f.fbits + bitsOf a 0 f.fbits := by
          rw [hx, Nat.add_sub_cancel, Nat.succ_mul, Nat.add_assoc]
        have hfit : bitsOf a f.fbits f.ebits * 2 ^ f.fbits + bitsOf a 0 f.fbits < f.infBits := by
          have : (bitsOf a f.fbits f.ebits + 1) * 2 ^ f.fbits ≤ f.infBits := Nat.mul_le_mul_right _ (by omega)
          rw [Nat.succ_mul] at this
          omega
        rw [Fmt.deliver, f.round_exact mode _ (by omega) (by omega) (by rw [hunits, hsum]; exact hfit), hunits, hsum]
        exact congrArg (·, 0) hbits.symm

/-- Turning the sign bit of an encoding round adds it, modulo the width. -/
theorem Fmt.neg_eq (f : Fmt) {b : Nat} (hb : b < 2 ^ (f.ebits + f.fbits + 1)) :
    f.neg b = (b + f.signBit) % 2 ^ (f.ebits + f.fbits + 1) := by
  have hw : 2 ^ (f.ebits + f.fbits + 1) = 2 * f.signBit := by rw [Nat.pow_succ, Nat.mul_comm]; rfl
  have hpos : 0 < f.signBit := Nat.two_pow_pos _
  have hbit : bitAt b (f.ebits + f.fbits) = decide (f.signBit ≤ b) := by
    have htop : b / f.signBit < 2 := Nat.div_lt_of_lt_mul (by omega)
    have hdiv : 1 ≤ b / f.signBit ↔ f.signBit ≤ b := by rw [Nat.le_div_iff_mul_le hpos, Nat.one_mul]
    rw [bitAt, ← Fmt.signBit, Bool.eq_iff_iff, decide_eq_true_iff, beq_iff_eq, ← hdiv]
    generalize b / f.signBit = k at *
    omega
  rw [hw] at hb ⊢
  simp only [Fmt.neg, hbit, decide_eq_true_eq]
  split
  · rw [Nat.mod_eq_sub_mod (by omega), Nat.mod_eq_of_lt (by omega)]
    omega
  · rw [Nat.mod_eq_of_lt (by omega)]

end Sys2Proof.Machine
end

section
/-!
Floating lanes (R44 to R47, R161): the sum and the product of two values, and what they deliver into a format.
-/
namespace Sys2Proof.Machine

/-! ## Sums and products of two values (R44, R46) -/

/-- NV where one of two operands is a signalling NaN (R46). -/
def signalOf (a b : FpVal) : Flags := if a.isSNan || b.isSNan then flagNV else 0

@[simp] theorem flagOr_zero (a : Flags) : flagOr a 0 = a := Nat.or_zero a
@[simp] theorem zero_flagOr (a : Flags) : flagOr 0 a = a := Nat.zero_or a

theorem FpVal.isNan_iff {v : FpVal} : v.isNan = true ↔ ∃ s, v = .nan s := by
  cases v <;> simp [FpVal.isNan]

/-- A NaN among the operands is the sum. -/
theorem fpSum_pair_nan (mode : Round) {a b : FpVal} (h : a.isNan = true ∨ b.isNan = true) :
    fpSum mode [a, b] = (.nan false, signalOf a b) := by
  obtain h | h := h
  all_goals obtain ⟨s, rfl⟩ := FpVal.isNan_iff.mp h
  · cases b <;> simp [fpSum, signalOf, FpVal.isInf, FpVal.isNan]
  · cases a <;> simp [fpSum, signalOf, FpVal.isInf, FpVal.isNan]

/-- A NaN among the operands is the product. -/
theorem fpMul_nan {a b : FpVal} (h : a.isNan = true ∨ b.isNan = true) : fpMul a b = (.nan false, signalOf a b) := by
  obtain h | h := h
  all_goals obtain ⟨s, rfl⟩ := FpVal.isNan_iff.mp h
  · rfl
  · cases a <;> rfl

/-- Opposite infinities have no sum. -/
theorem fpSum_pair_inf (mode : Round) (n n' : Bool) :
    fpSum mode [.inf n, .inf n'] = if n = n' then (.inf n, 0) else (.nan false, flagNV) := by
  cases n <;> cases n' <;> rfl

theorem FpVal.isInf_fin (n s : Bool) (m : Nat) (e : Int) : (FpVal.fin n m e).isInf s = false := rfl

theorem FpVal.isZero_fin (n : Bool) (m : Nat) (e : Int) : (FpVal.fin n m e).isZero = (m == 0) := by cases m <;> rfl

/-- Two finite values are added exactly; the sum 0 is −0 only for two −0. -/
theorem fpSum_pair_fin (n1 : Bool) (m1 : Nat) (e1 : Int) (n2 : Bool) (m2 : Nat) (e2 : Int) :
    fpSum .rne [.fin n1 m1 e1, .fin n2 m2 e2] =
      let e0 := min 0 (min e1 e2)
      let x := scaled n1 m1 e1 e0 + scaled n2 m2 e2 e0
      (if x = 0 then .fin (n1 && n2 && m1 == 0 && m2 == 0) 0 0 else ofScaled x e0, 0) := by
  have hexp : minExp [.fin n1 m1 e1, .fin n2 m2 e2] = min 0 (min e1 e2) := Int.min_assoc 0 e1 e2
  have hneg : (m1 == 0 && n1 && (m2 == 0 && n2)) = (n1 && n2 && m1 == 0 && m2 == 0) := by
    cases n1 <;> cases n2 <;> simp
  simp only [fpSum, hexp, List.any_cons, List.any_nil, List.all_cons, List.all_nil, List.foldl_cons, List.foldl_nil, Int.zero_add,
    FpVal.isZero_fin, FpVal.isInf_fin, FpVal.isSNan, FpVal.isNan, FpVal.negBit, Bool.and_true, Bool.or_false, Bool.and_false, hneg,
    show (Round.rne == Round.rdn) = false from rfl, Bool.false_and, Bool.false_eq_true, if_false]
  split
  · rfl
  · rfl

/-! ## Floating lanes (R45, R46, R161) -/

theorem Fmt.add_of_fpSum (f : Fmt) {a b : Nat} {v : FpVal} {fl : Flags} (h : fpSum .rne [f.val a, f.val b] = (v, fl)) :
    f.add a b = ((f.deliver .rne v).1, flagOr fl (f.deliver .rne v).2) := by
  simp only [Fmt.add, h]

theorem Fmt.mul_of_fpMul (f : Fmt) {a b : Nat} {v : FpVal} {fl : Flags} (h : fpMul (f.val a) (f.val b) = (v, fl)) :
    f.mul a b = ((f.deliver .rne v).1, flagOr fl (f.deliver .rne v).2) := by
  simp only [Fmt.mul, h]

theorem Fmt.deliver_qnan (f : Fmt) (mode : Round) : f.deliver mode (.nan false) = (f.nanBits, 0) := rfl

/-- The canonical NaN, and NV where an operand signals. -/
theorem Fmt.add_nan (f : Fmt) {a b : Nat} (h : (f.val a).isNan = true ∨ (f.val b).isNan = true) :
    f.add a b = (f.nanBits, signalOf (f.val a) (f.val b)) := by
  rw [f.add_of_fpSum (fpSum_pair_nan .rne h), f.deliver_qnan, flagOr_zero]

theorem Fmt.mul_nan (f : Fmt) {a b : Nat} (h : (f.val a).isNan = true ∨ (f.val b).isNan = true) :
    f.mul a b = (f.nanBits, signalOf (f.val a) (f.val b)) := by
  rw [f.mul_of_fpMul (fpMul_nan h), f.deliver_qnan, flagOr_zero]

theorem Fmt.add_inf (f : Fmt) {a b : Nat} {n n' : Bool} (hw : a < 2 ^ (f.ebits + f.fbits + 1)) (ha : f.val a = .inf n)
    (hb : f.val b = .inf n') : f.add a b = if n = n' then (a, 0) else (f.nanBits, flagNV) := by
  have hsum := fpSum_pair_inf .rne n n'
  rw [← ha, ← hb] at hsum
  split at hsum
  next h =>
    rw [f.add_of_fpSum hsum, if_pos h, ha]
    simp only [Fmt.deliver, f.eq_of_val_inf hw ha, flagOr_zero]
  next h => rw [f.add_of_fpSum hsum, if_neg h, f.deliver_qnan, flagOr_zero]

theorem Fmt.mul_inf (f : Fmt) {a b : Nat} {n n' : Bool} (ha : f.val a = .inf n) (hb : f.val b = .inf n') :
    f.mul a b = (f.infBits + (if n = n' then 0 else f.signBit), 0) := by
  have hmul : fpMul (f.val a) (f.val b) = (.inf (n != n'), 0) := by rw [ha, hb]; rfl
  rw [f.mul_of_fpMul hmul, zero_flagOr]
  cases n <;> cases n' <;> rfl

/-- 0 × Inf is invalid. -/
theorem Fmt.mul_inf_zero (f : Fmt) {a b : Nat} {n n' : Bool} {e : Int} (ha : f.val a = .inf n) (hb : f.val b = .fin n' 0 e) :
    f.mul a b = (f.nanBits, flagNV) ∧ f.mul b a = (f.nanBits, flagNV) := by
  have hmul : fpMul (f.val a) (f.val b) = (.nan false, flagNV) := by rw [ha, hb]; rfl
  have hmul' : fpMul (f.val b) (f.val a) = (.nan false, flagNV) := by rw [ha, hb]; rfl
  rw [f.mul_of_fpMul hmul, f.mul_of_fpMul hmul', f.deliver_qnan, flagOr_zero]
  exact ⟨rfl, rfl⟩

/-- The exact sum rounded once. -/
theorem Fmt.add_fin (f : Fmt) {a b : Nat} {n1 n2 : Bool} {m1 m2 : Nat} {e1 e2 : Int} (ha : f.val a = .fin n1 m1 e1)
    (hb : f.val b = .fin n2 m2 e2) :
    f.add a b =
      let e0 := min 0 (min e1 e2)
      let x := scaled n1 m1 e1 e0 + scaled n2 m2 e2 e0
      if x = 0 then (if n1 && n2 && m1 == 0 && m2 == 0 then f.signBit else 0, 0) else f.round .rne (decide (x < 0)) x.natAbs e0 := by
  have hsum := fpSum_pair_fin n1 m1 e1 n2 m2 e2
  rw [← ha, ← hb] at hsum
  rw [f.add_of_fpSum hsum]
  dsimp only
  rw [zero_flagOr]
  split
  · simp only [Fmt.deliver, Fmt.round, if_pos]
  · rfl

theorem Fmt.mul_fin (f : Fmt) {a b : Nat} {n1 n2 : Bool} {m1 m2 : Nat} {e1 e2 : Int} (ha : f.val a = .fin n1 m1 e1)
    (hb : f.val b = .fin n2 m2 e2) : f.mul a b = f.round .rne (n1 != n2) (m1 * m2) (e1 + e2) := by
  have hmul : fpMul (f.val a) (f.val b) = (.fin (n1 != n2) (m1 * m2) (e1 + e2), 0) := by rw [ha, hb]; rfl
  rw [f.mul_of_fpMul hmul, zero_flagOr]
  rfl

/-- The exact product and sum rounded once. -/
theorem Fmt.madd_fin (f : Fmt) {a b c : Nat} {n1 n2 n3 : Bool} {m1 m2 m3 : Nat} {e1 e2 e3 : Int} (ha : f.val a = .fin n1 m1 e1)
    (hb : f.val b = .fin n2 m2 e2) (hc : f.val c = .fin n3 m3 e3) :
    let e0 := min 0 (min e3 (e1 + e2))
    let x := scaled n3 m3 e3 e0 + scaled (n1 != n2) (m1 * m2) (e1 + e2) e0
    x ≠ 0 → f.madd c a b = f.round .rne (decide (x < 0)) x.natAbs e0 := by
  intro e0 x hx
  have hmul : fpMul (f.val a) (f.val b) = (.fin (n1 != n2) (m1 * m2) (e1 + e2), 0) := by rw [ha, hb]; rfl
  have hsum : fpSum .rne [f.val c, .fin (n1 != n2) (m1 * m2) (e1 + e2)] = (ofScaled x e0, 0) := by
    rw [hc, fpSum_pair_fin]
    exact congrArg (·, 0) (if_neg hx)
  have hquiet : (f.val c).isSNan = false := by rw [hc]; rfl
  simp [Fmt.madd, hmul, hsum, hquiet, ofScaled, Fmt.deliver]

/-- The lesser of two numbers is the minimum, in either order, and the other the maximum. -/
theorem Fmt.minMax_of_lt (f : Fmt) {a b : Nat} {n1 n2 : Bool} {m1 m2 : Nat} {e1 e2 : Int} (ha : f.val a = .fin n1 m1 e1)
    (hb : f.val b = .fin n2 m2 e2) (hlt : scaled n1 m1 e1 (min e1 e2) < scaled n2 m2 e2 (min e1 e2)) :
    f.minMax false a b = (a, 0) ∧ f.minMax true a b = (b, 0) ∧ f.minMax false b a = (a, 0) ∧ f.minMax true b a = (b, 0) := by
  have hless : fpLess (f.val a) (f.val b) = true := by
    simp only [fpLess, fpCmp, ha, hb, Int.compare_eq_lt.mpr hlt]
  have hmore : fpLess (f.val b) (f.val a) = false := by
    simp only [fpLess, fpCmp, ha, hb, Int.min_comm e2 e1, Int.compare_eq_gt.mpr hlt]
  have hnum : ∀ x, x = a ∨ x = b → (f.val x).isNan = false ∧ (f.val x).isSNan = false := by
    rintro x (rfl | rfl)
    · rw [ha]; exact ⟨rfl, rfl⟩
    · rw [hb]; exact ⟨rfl, rfl⟩
  obtain ⟨⟨han, has⟩, hbn, hbs⟩ := And.intro (hnum a (.inl rfl)) (hnum b (.inr rfl))
  simp [Fmt.minMax, hless, hmore, han, has, hbn, hbs]

/-- A number is preferred to a NaN. -/
theorem Fmt.minMax_one_nan (f : Fmt) (max : Bool) {a b : Nat} (ha : (f.val a).isNan = true) (hb : (f.val b).isNan = false) :
    f.minMax max a b = (b, signalOf (f.val a) (f.val b)) ∧ f.minMax max b a = (b, signalOf (f.val a) (f.val b)) := by
  simp [Fmt.minMax, ha, hb, signalOf, Bool.or_comm]

theorem Fmt.minMax_two_nans (f : Fmt) (max : Bool) {a b : Nat} (ha : (f.val a).isNan = true) (hb : (f.val b).isNan = true) :
    f.minMax max a b = (f.nanBits, signalOf (f.val a) (f.val b)) := by
  simp [Fmt.minMax, ha, hb, signalOf]

end Sys2Proof.Machine
end

section
/-!
Integer lanes (R51, R161): saturation, wrapping, the high half of a product, minima and shifts; what all lanes compute.
-/
namespace Sys2Proof.Machine

/-! ## Integer lanes (R51, R161) -/

/-- The range of an integer type, by its width. -/
theorem typeRange_eq {ty : VType} (h : ty = .b ∨ ty = .h ∨ ty = .w ∨ ty = .hu) :
    typeRange ty = (if ty = .hu then 0 else -((2 ^ (widthOf ty - 1) : Nat) : Int),
      if ty = .hu then 65535 else ((2 ^ (widthOf ty - 1) : Nat) : Int) - 1) := by
  obtain rfl | rfl | rfl | rfl := h <;> rfl

theorem laneInt_hu (x : Nat) : laneInt .hu x = x := rfl

/-- Of the integer types only .hu is unsigned. -/
theorem signed_of_ne_hu {ty : VType} (h : ty = .b ∨ ty = .h ∨ ty = .w ∨ ty = .hu) (hu : ty ≠ .hu) : ty = .b ∨ ty = .h ∨ ty = .w := by
  obtain hb | hh | hw | hhu := h
  · exact .inl hb
  · exact .inr (.inl hh)
  · exact .inr (.inr hw)
  · exact absurd hhu hu

/-- A lane of a signed type reads as its two's complement. -/
theorem laneInt_signed {ty : VType} (h : ty = .b ∨ ty = .h ∨ ty = .w) (x : Nat) : laneInt ty x = sextNat x (widthOf ty) := by
  obtain rfl | rfl | rfl := h <;> rfl

theorem two_pow_pos_int (w : Nat) : (0 : Int) < (2 ^ w : Nat) := Int.natCast_pos.mpr (Nat.two_pow_pos w)

theorem truncInt_lt (v : Int) (w : Nat) : truncInt v w < 2 ^ w := by
  have hpos := two_pow_pos_int w
  have hlt := Int.emod_lt_of_pos v hpos
  have hnn := Int.emod_nonneg v (Int.ne_of_gt hpos)
  unfold truncInt
  omega

theorem truncInt_cast (v : Int) (w : Nat) : (truncInt v w : Int) = v % (2 ^ w : Nat) :=
  Int.toNat_of_nonneg (Int.emod_nonneg v (Int.ne_of_gt (two_pow_pos_int w)))

/-- The two's complement of a number and the number agree modulo the width. -/
theorem sextNat_emod (x w : Nat) : (sextNat x w - x) % (2 ^ w : Nat) = 0 := by
  have hmod : ((x % 2 ^ w : Nat) : Int) = (x : Int) % (2 ^ w : Nat) := by norm_cast
  have hself : ((x % 2 ^ w : Nat) - x : Int) % (2 ^ w : Nat) = 0 := by rw [hmod, Int.emod_sub_emod, Int.sub_self, Int.zero_emod]
  simp only [sextNat]
  split
  · exact hself
  · rw [show ∀ y z u : Int, y - z - u = y - u - z by omega, Int.sub_emod_right]
    exact hself

/-- Two's complement reads back a value of its range. -/
theorem sextNat_truncInt {v : Int} {w : Nat} (hw : 0 < w) (hlo : -((2 ^ (w - 1) : Nat) : Int) ≤ v) (hhi : v < (2 ^ (w - 1) : Nat)) :
    sextNat (truncInt v w) w = v := by
  have hpow : 2 ^ w = 2 * 2 ^ (w - 1) := (Nat.two_pow_pred_mul_two hw).symm.trans (Nat.mul_comm _ _)
  have hlt := truncInt_lt v w
  have hcast := truncInt_cast v w
  simp only [sextNat, Nat.mod_eq_of_lt hlt]
  rw [hpow] at hcast ⊢
  generalize truncInt v w = x at *
  generalize 2 ^ (w - 1) = p at *
  by_cases hv : v < 0
  · rw [← Int.add_emod_right, Int.emod_eq_of_lt (by omega) (by omega)] at hcast
    rw [if_neg (by omega)]
    omega
  · rw [Int.emod_eq_of_lt (Int.not_lt.mp hv) (by omega)] at hcast
    rw [if_pos (by omega)]
    exact hcast

theorem sextNat_range {x w : Nat} (hw : 0 < w) :
    -((2 ^ (w - 1) : Nat) : Int) ≤ sextNat x w ∧ sextNat x w < (2 ^ (w - 1) : Nat) := by
  have hpow : 2 ^ w = 2 * 2 ^ (w - 1) := (Nat.two_pow_pred_mul_two hw).symm.trans (Nat.mul_comm _ _)
  have hlt := Nat.mod_lt x (Nat.two_pow_pos w)
  simp only [sextNat]
  rw [hpow] at hlt ⊢
  split <;> omega

theorem widthOf_pos (ty : VType) : 0 < widthOf ty := by cases ty <;> decide

/-- A lane reads back a value of its type's range. -/
theorem laneInt_truncInt {ty : VType} (h : ty = .b ∨ ty = .h ∨ ty = .w ∨ ty = .hu) {v : Int} (hlo : (typeRange ty).1 ≤ v)
    (hhi : v ≤ (typeRange ty).2) : laneInt ty (truncInt v (widthOf ty)) = v := by
  rw [typeRange_eq h] at hlo hhi
  by_cases hu : ty = .hu
  · subst hu
    rw [laneInt_hu, truncInt_cast]
    exact Int.emod_eq_of_lt hlo (Int.lt_add_one_of_le hhi)
  · simp only [hu, if_false] at hlo hhi
    rw [laneInt_signed (signed_of_ne_hu h hu), sextNat_truncInt (widthOf_pos ty) hlo (by omega)]

theorem laneInt_range {ty : VType} (h : ty = .b ∨ ty = .h ∨ ty = .w ∨ ty = .hu) {x : Nat} (hx : x < 2 ^ widthOf ty) :
    (typeRange ty).1 ≤ laneInt ty x ∧ laneInt ty x ≤ (typeRange ty).2 := by
  rw [typeRange_eq h]
  by_cases hu : ty = .hu
  · subst hu
    exact ⟨Int.natCast_nonneg x, Int.ofNat_le.mpr (Nat.le_of_lt_succ hx)⟩
  · obtain ⟨hlo, hhi⟩ := sextNat_range (x := x) (widthOf_pos ty)
    simp only [hu, if_false, laneInt_signed (signed_of_ne_hu h hu)]
    omega

/-- A lane agrees with its encoding modulo its width. -/
theorem laneInt_emod (ty : VType) (x : Nat) : (laneInt ty x - x) % (2 ^ widthOf ty : Nat) = 0 := by
  unfold laneInt
  split
  · rw [Int.sub_self, Int.zero_emod]
  · rw [Int.sub_self, Int.zero_emod]
  · exact sextNat_emod x _

/-- What a saturating lane holds: the exact value cut to the range, and SAT where that changed it. -/
structure Saturates (ty : VType) (exact : Int) (r : Nat × Flags) : Prop where
  value : laneInt ty r.1 = max (typeRange ty).1 (min (typeRange ty).2 exact)
  silent : r.2 = 0 ↔ (typeRange ty).1 ≤ exact ∧ exact ≤ (typeRange ty).2
  flag : r.2 = 0 ∨ r.2 = 32

/-- What a wrapping lane holds: the exact value modulo the width. -/
structure Wraps (ty : VType) (exact : Int) (r : Nat × Flags) : Prop where
  value : (laneInt ty r.1 - exact) % (2 ^ widthOf ty : Nat) = 0
  bound : r.1 < 2 ^ widthOf ty
  silent : r.2 = 0

theorem satLane_saturates {ty : VType} (h : ty = .b ∨ ty = .h ∨ ty = .w ∨ ty = .hu) (v : Int) : Saturates ty v (satLane ty v) := by
  have hrange : (typeRange ty).1 ≤ (typeRange ty).2 := by obtain rfl | rfl | rfl | rfl := h <;> decide
  have hread := fun x => laneInt_truncInt h (v := x)
  simp only [satLane, satTo]
  split
  next hlow => exact ⟨by rw [hread _ (Int.le_refl _) hrange]; omega, by simp [flagSAT]; omega, .inr rfl⟩
  next hlow =>
    split
    next hhigh => exact ⟨by rw [hread _ hrange (Int.le_refl _)]; omega, by simp [flagSAT]; omega, .inr rfl⟩
    next hhigh => exact ⟨by rw [hread _ (by omega) (by omega)]; omega, by simp; omega, .inl rfl⟩

theorem wrapLane_wraps (ty : VType) (v : Int) : Wraps ty v (wrapLane ty v) where
  value := by
    have htrunc : ((truncInt v (widthOf ty) : Int) - v) % (2 ^ widthOf ty : Nat) = 0 := by
      rw [truncInt_cast, Int.emod_sub_emod, Int.sub_self, Int.zero_emod]
    have hsum := Int.add_emod (laneInt ty (truncInt v (widthOf ty)) - truncInt v (widthOf ty)) (truncInt v (widthOf ty) - v)
      (2 ^ widthOf ty : Nat)
    rw [laneInt_emod, htrunc, show ∀ x y z : Int, x - y + (y - z) = x - z by omega] at hsum
    exact hsum
  bound := truncInt_lt v _
  silent := rfl

/-- The high half of the product of two values of a signed type is one of the type. -/
theorem mulHigh_signed {x y : Int} {p : Nat} (hp : 0 < p) (hx : -(p : Int) ≤ x ∧ x < p) (hy : -(p : Int) ≤ y ∧ y < p) :
    -(p : Int) ≤ x * y / (2 * p : Nat) ∧ x * y / (2 * p : Nat) < p := by
  have hpos : (0 : Int) < (2 * p : Nat) := by omega
  have hprod : (x * y).natAbs ≤ p * p := by
    rw [Int.natAbs_mul]
    exact Nat.mul_le_mul (by omega) (by omega)
  have hsquare : (p : Int) * (2 * p : Nat) = 2 * (p * p : Nat) := by
    rw [← Int.natCast_mul, Nat.mul_left_comm, Int.natCast_mul]
    rfl
  rw [Int.le_ediv_iff_mul_le hpos, Int.ediv_lt_iff_lt_mul hpos, Int.neg_mul, hsquare]
  have hsq : 0 < p * p := Nat.mul_pos hp hp
  omega

/-- The high half of the product of two values of an unsigned type is one of the type. -/
theorem mulHigh_unsigned {x y : Int} {n : Nat} (hx : 0 ≤ x ∧ x < n) (hy : 0 ≤ y ∧ y < n) : 0 ≤ x * y / n ∧ x * y / n < n := by
  have hpos : (0 : Int) < n := Int.lt_of_le_of_lt hx.1 hx.2
  refine ⟨Int.ediv_nonneg (Int.mul_nonneg hx.1 hy.1) (Int.le_of_lt hpos), (Int.ediv_lt_iff_lt_mul hpos).mpr ?_⟩
  exact Int.lt_of_le_of_lt (Int.mul_le_mul_of_nonneg_right (Int.le_of_lt hx.2) hy.1) (Int.mul_lt_mul_of_pos_left hy.2 hpos)

/-- The high half of the product of two values of a type is one of the type. -/
theorem mulHigh_range {ty : VType} (h : ty = .b ∨ ty = .h ∨ ty = .w ∨ ty = .hu) {x y : Int}
    (hx : (typeRange ty).1 ≤ x ∧ x ≤ (typeRange ty).2) (hy : (typeRange ty).1 ≤ y ∧ y ≤ (typeRange ty).2) :
    (typeRange ty).1 ≤ x * y / (2 ^ widthOf ty : Nat) ∧ x * y / (2 ^ widthOf ty : Nat) ≤ (typeRange ty).2 := by
  rw [typeRange_eq h] at hx hy ⊢
  by_cases hu : ty = .hu
  · subst hu
    obtain ⟨hlo, hhi⟩ := mulHigh_unsigned (n := 2 ^ widthOf .hu) ⟨hx.1, Int.lt_add_one_of_le hx.2⟩ ⟨hy.1, Int.lt_add_one_of_le hy.2⟩
    exact ⟨hlo, Int.le_of_lt_add_one hhi⟩
  · simp only [hu, if_false] at hx hy ⊢
    have hpow : 2 ^ widthOf ty = 2 * 2 ^ (widthOf ty - 1) :=
      (Nat.two_pow_pred_mul_two (widthOf_pos ty)).symm.trans (Nat.mul_comm _ _)
    obtain ⟨hlo, hhi⟩ := mulHigh_signed (Nat.two_pow_pos (widthOf ty - 1)) ⟨hx.1, Int.lt_of_le_sub_one hx.2⟩
      ⟨hy.1, Int.lt_of_le_sub_one hy.2⟩
    rw [hpow]
    exact ⟨hlo, Int.le_sub_one_of_lt hhi⟩

/-- VMULH gives the high half of the product. -/
theorem laneInt_laneMulh {ty : VType} (h : ty = .b ∨ ty = .h ∨ ty = .w ∨ ty = .hu) {a b : Nat} (ha : a < 2 ^ widthOf ty)
    (hb : b < 2 ^ widthOf ty) : laneInt ty (laneMulh ty a b).1 = laneInt ty a * laneInt ty b / (2 ^ widthOf ty : Nat) := by
  obtain ⟨hlo, hhi⟩ := mulHigh_range h (laneInt_range h ha) (laneInt_range h hb)
  exact laneInt_truncInt h hlo hhi

theorem laneMinMax_int {ty : VType} (hint : ty.isFp = false) (up : Bool) (a b : Nat) :
    (laneMinMax ty up a b).2 = 0 ∧ ((laneMinMax ty up a b).1 = a ∨ (laneMinMax ty up a b).1 = b) ∧
      laneInt ty (laneMinMax ty up a b).1 = if up then max (laneInt ty a) (laneInt ty b) else min (laneInt ty a) (laneInt ty b) := by
  cases up
  all_goals
    simp only [laneMinMax, hint, Bool.false_eq_true, if_false, if_true]
    refine ⟨trivial, ?_, ?_⟩
    all_goals split
  all_goals omega

/-- VSRA keeps the sign: the quotient of a value of the type is one of the type. -/
theorem sextNat_laneSra (ty : VType) (a b : Nat) :
    sextNat (laneSra ty a b).1 (widthOf ty) = sextNat a (widthOf ty) / (2 ^ (b % widthOf ty) : Nat) := by
  obtain ⟨hlo, hhi⟩ := sextNat_range (x := a) (widthOf_pos ty)
  have hpos : 0 < 2 ^ (b % widthOf ty) := Nat.two_pow_pos _
  have hgrow := Nat.le_mul_of_pos_right (2 ^ (widthOf ty - 1)) hpos
  have hcast := Int.natCast_mul (2 ^ (widthOf ty - 1)) (2 ^ (b % widthOf ty))
  generalize hd : 2 ^ (b % widthOf ty) = d at *
  generalize hp : 2 ^ (widthOf ty - 1) = p at *
  rw [laneSra, hd]
  refine sextNat_truncInt (widthOf_pos ty) ?_ ?_
  · rw [hp, Int.le_ediv_iff_mul_le (by omega), Int.neg_mul]
    omega
  · rw [hp, Int.ediv_lt_iff_lt_mul (by omega)]
    omega

/-! ## The lanes' values -/

/-- A format as the floating types have it: its width is that of the lane. -/
theorem widthOf_fp {ty : VType} (h : ty = .hf ∨ ty = .bf ∨ ty = .f) :
    widthOf ty = (fmtOf ty).ebits + (fmtOf ty).fbits + 1 ∧ 1 < 2 ^ (fmtOf ty).ebits ∧ ty.isFp = true := by
  obtain rfl | rfl | rfl := h <;> decide

/-- Settles O27: rounding, the floating lanes by the formats' laws, the integer lanes by saturation and wrapping. -/
theorem integerLanes : Obligations.IntegerLanes := by
  refine ⟨fun m neg e q h => roundAt_rne_nearest neg m h, fun ty a b c hty ha hb _ => ?floating, fun ty a b c hty ha hb _ => ?integer⟩
  case floating =>
    obtain ⟨hwidth, hebits, hfp⟩ := widthOf_fp hty
    rw [hwidth] at ha hb
    have hadd : laneAdd ty false = (fmtOf ty).add := by funext x y; simp [laneAdd, hfp]
    have hsub : laneAdd ty true = (fmtOf ty).sub := by funext x y; simp [laneAdd, hfp]
    have hmul : laneMul ty = (fmtOf ty).mul := by funext x y; simp [laneMul, hfp]
    have hmadd : laneMadd ty = (fmtOf ty).madd := by funext x y z; simp [laneMadd, hfp]
    have hminMax : laneMinMax ty = (fmtOf ty).minMax := by funext x y z; simp [laneMinMax, hfp]
    simp only [hadd, hsub, hmul, hmadd, hminMax, hwidth]
    refine ⟨Fmt.deliver_val _ _ ha hebits, ?sub, fun hn => ⟨Fmt.add_nan _ hn, Fmt.mul_nan _ hn⟩,
      fun n n' hx hy => ⟨Fmt.add_inf _ ha hx hy, Fmt.mul_inf _ hx hy⟩, fun n n' e hx hy => Fmt.mul_inf_zero _ hx hy,
      fun n1 m1 e1 n2 m2 e2 hx hy => ⟨fun h0 => ?sum, fun h0 => ?zero, Fmt.mul_fin _ hx hy, Fmt.minMax_of_lt _ hx hy,
        fun n3 m3 e3 hz => Fmt.madd_fin _ hx hy hz⟩,
      fun max => ⟨Fmt.minMax_one_nan _ max, Fmt.minMax_two_nans _ max⟩⟩
    case sub => rw [Fmt.sub, Fmt.neg_eq _ hb]
    case sum => rw [Fmt.add_fin _ hx hy]; exact if_neg h0
    case zero => rw [Fmt.add_fin _ hx hy]; exact if_pos h0
  case integer =>
    have hint : ty.isFp = false := by obtain rfl | rfl | rfl | rfl := hty <;> rfl
    intro lo hi fits wraps
    obtain ⟨hlo, hhi⟩ : lo = (typeRange ty).1 ∧ hi = (typeRange ty).2 := by rw [typeRange_eq hty]; exact ⟨rfl, rfl⟩
    have hfits : ∀ v, fits v (satLane ty v) := fun v => by
      obtain ⟨hvalue, hsilent, hflag⟩ := satLane_saturates hty v
      rw [← hlo, ← hhi] at hvalue hsilent
      exact ⟨hvalue, hsilent, hflag⟩
    have hwraps : ∀ v, wraps v (wrapLane ty v) := fun v => by
      obtain ⟨hvalue, hbound, hsilent⟩ := wrapLane_wraps ty v
      exact ⟨hvalue, hbound, hsilent⟩
    have hadd : ∀ sub, laneAdd ty sub a b =
        let v := if sub then laneInt ty a - laneInt ty b else laneInt ty a + laneInt ty b
        if ty = .w then wrapLane ty v else satLane ty v := fun sub => by simp [laneAdd, hint]
    have hmul : laneMul ty a b = wrapLane ty (laneInt ty a * laneInt ty b) := by simp [laneMul, hint]
    have hmadd : laneMadd ty c a b = satLane ty (laneInt ty c + laneInt ty a * laneInt ty b) := by simp [laneMadd, hint]
    have habs : laneAbs ty a = satLane ty ((laneInt ty a).natAbs : Int) := by simp [laneAbs, hint]
    refine ⟨fun hw => ?saturating, fun hw => ?wrapping, hmul ▸ hwraps _, hmadd ▸ hfits _, fun _ => habs ▸ hfits _,
      ⟨laneInt_laneMulh hty ha hb, rfl⟩, fun up => laneMinMax_int hint up a b, ⟨rfl, rfl⟩, sextNat_laneSra ty a b, rfl⟩
    case saturating => simp only [hadd, if_neg hw]; exact ⟨hfits _, hfits _⟩
    case wrapping => simp only [hadd, if_pos hw]; exact ⟨hwraps _, hwraps _⟩

end Sys2Proof.Machine
end

section
/-!
The completion of an engine command whose completion add has already been made (R217): the model ends the command and adds nothing
more, which the clause of `Obligations.EnginesWork` on the completion add leaves out of account.
-/
namespace Sys2Proof.Machine

/-! ## The end of a command (R214, R217) -/

theorem sameMemory_unlock (s : State) (gone : Nat × Nat × Nat → Bool) : SameMemory s (s.unlock gone) := by
  simp only [State.unlock]
  split <;> exact ⟨rfl, rfl⟩

/-- A command that is Done leaves every byte as it is. -/
theorem sameMemory_endCmd (s : State) (c : Cmd) : SameMemory s (s.endCmd c) := by
  simp only [State.endCmd, State.seeFences]
  split <;> exact sameMemory_unlock s _

/-- Once the add of a command has been made and performed, its completion is its end, with no second add. -/
theorem exec_commandCompletion_added {s : State} {c : Cmd} (hc : (s.cmds.find? fun x => x.id == c.id) = some c)
    (hst : c.st = .completing) (hheld : s.writesHeld c = false) (hback : s.heldBack c = false)
    (hgate : s.detGate c.ctx (s.cmdKey c) = true) (hadded : c.added = true) :
    exec (.commandCompletion c.id) s = .next (s.endCmd c) := by
  show execCommandCompletion c.id s = _
  simp [execCommandCompletion, hc, hst, hheld, hback, hgate, hadded]

/-! ## A command whose add has been made -/

/-- A copy command of context 0 in vcore 0 that is Completing: its add of 5 to the counter at 0x100 has been made, and its reply is
still to leave. -/
def addedCmd : Cmd :=
  { id := 50, eng := .copy 0, op := 0, v := 0, ctx := 0, sup := true, kernel := none, tid := 0, push := false, cls := 0
    body := [0x100, 0, 64, 0x400, 0, 0, 0x0140000000000100, 0], reg := some 9, deadline := 900, mfmt := 0, mscl := 0
    st := .completing, units := 1, code := none, detail := 0, poison := false, spads := [], told := false, added := true, logical := 0 }

/-- The machine after reset with that command in its engine's queue. -/
def addedState : State := { State.reset with cmds := [addedCmd] }

theorem addedState_canonical : MemoryCanonical addedState := memoryCanonical_reset

/-- The counter lies at 0x100 of vcore 0's TCM. -/
theorem addedState_counter :
    ∃ ls, addedState.engLocs addedCmd addedCmd.counterVa 8 .ewrite = .ok (tcmLoc 0 0x100 :: ls) := ⟨_, rfl⟩

/-- Refutes O54: its clause on the completion add does not ask that the add is still to be made. The command here has made it
(`added`), so its completion only ends it, and the counter keeps its value where the statement has it 5 greater. -/
theorem not_enginesWork : ¬ Obligations.EnginesWork := by
  unfold Obligations.EnginesWork
  intro h
  obtain ⟨-, -, -, -, -, -, -, -, -, -, -, -, -, -, -, -, -, hadd, -⟩ := h addedState addedCmd rfl
  obtain ⟨ls, hloc⟩ := addedState_counter
  obtain ⟨s', hexec, -, hread, -⟩ := hadd (tcmLoc 0 0x100) ls rfl rfl rfl nofun (by decide) (by decide) hloc (by decide)
    (by decide) (by decide) (by decide) (by decide) (by decide) addedState_canonical
  have hend : exec (.commandCompletion addedCmd.id) addedState = .next (addedState.endCmd addedCmd) :=
    exec_commandCompletion_added rfl rfl rfl rfl rfl rfl
  obtain rfl : addedState.endCmd addedCmd = s' := Host.Outcome.next.inj (hend.symm.trans hexec)
  rw [(sameMemory_endCmd addedState addedCmd).read] at hread
  exact absurd hread (by decide)

end Sys2Proof.Machine
end

section
/-!
The words the spec writes out (R21 to R34, R98).
-/
namespace Sys2Proof.Laws

/-- Settles O1: each word is the encoding of its instruction, and so decodes to it; the word of ones names no major opcode, and the
word of zeros has the size bits of no instruction. -/
theorem specWordsDecode : Obligations.SpecWordsDecode :=
  ⟨decodeOfEncode (.ecall false) _ rfl rfl, decodeOfEncode (.ecall true) _ rfl rfl,
    decodeOfEncode (.ebreak false) _ rfl rfl, decodeOfEncode (.ebreak true) _ rfl rfl,
    decodeOfEncode (.xret false) _ rfl rfl, decodeOfEncode (.xret true) _ rfl rfl,
    decodeOfEncode (.add 2 3 3 false) _ rfl rfl, decodeOfEncode (.sub 2 3 3 true) _ rfl rfl,
    decodeOfEncode (.addi 10 0 5 false) _ rfl rfl, decodeOfEncode (.beq 0 0 0xFF8 false) _ rfl rfl,
    decodeOfEncode (.sd 1 10 0 false) _ rfl rfl, by decide, by decide⟩

end Sys2Proof.Laws
end

section
/-!
The environment call, the breakpoint and the return from a trap, as the walk performs them (R99, R100, R295, R296).
-/
namespace Sys2Proof.Machine

/-! ## Taking a trap below level 2 (R295) -/

/-- The state a trap is delivered from: a debug trap has its trace record written first (R359, R362). -/
def State.traced (s : State) (t : Thread) (tr : Trap) : State :=
  if tr.cause = 5 then s.traceRecord 3 t.vcore t.slot t.ctx tr.detail else s

theorem sameMemory_traced (s : State) (t : Thread) (tr : Trap) (h : fieldOf s.dbg.dtrace 52 1 = 0) : SameMemory s (s.traced t tr) := by
  have hoff : s.traced t tr = s := by simp [State.traced, State.traceRecord, h]
  rw [hoff]
  exact SameMemory.refl s

/-- A recoverable trap of a full thread below level 2 puts it into its handler, a debug trap too. -/
theorem State.takeTrap_recoverable (s : State) (tid : Nat) (t : Thread) (tr : Trap) (pc : Word) (fromWait : Bool)
    (ht : s.thr tid = some t) (hl : t.light = false) (hv : t.level < 2) (hc : tr.cause < 16) :
    s.takeTrap tid tr pc fromWait = (s.traced t tr).setThr tid (t.deliver tr pc fromWait) := by
  have hprogram : ¬ 16 ≤ tr.cause := by omega
  have hthird : ¬ 2 ≤ t.level := by omega
  simp [State.takeTrap, State.traced, ht, hl, hprogram, hthird]

/-- What a trap saves of its thread (R296). -/
def Thread.trapBank (t : Thread) (tr : Trap) (pc : Word) (fromWait : Bool) : TrapBank :=
  ⟨w64 (tr.cause % 256), (pc >>> 2) <<< 2, tr.val, trapStat t.sup t.level fromWait tr.detail⟩

/-- The bank of the thread's level is written and the other one kept. -/
theorem Thread.deliver_banks (t : Thread) (tr : Trap) (pc : Word) (fromWait : Bool) :
    let t' := t.deliver tr pc fromWait
    let b := t.trapBank tr pc fromWait
    if t.level = 0 then t'.bank0 = b ∧ t'.bank1 = t.bank1 else t'.bank1 = b ∧ t'.bank0 = t.bank0 := by
  intro t' b
  split
  · exact ⟨if_pos ‹_›, if_pos ‹_›⟩
  · exact ⟨if_neg ‹_›, if_neg ‹_›⟩

/-- A trap of an instruction below level 2 saves cause and status field by field: no field is cut, and no wait is pending. -/
theorem Thread.trapBank_of_lt (t : Thread) (pc val : Word) {cause detail : Nat} (hv : t.level < 2) (hc : cause < 256)
    (hd : detail < 256) : t.trapBank ⟨cause, detail, val⟩ pc false =
      ⟨w64 cause, (pc >>> 2) <<< 2, val, w64 ((if t.sup then 1 else 0) + 2 * t.level + 256 * detail)⟩ := by
  have hl : t.level % 4 = t.level := Nat.mod_eq_of_lt (by omega)
  simp [Thread.trapBank, trapStat, Nat.mod_eq_of_lt hc, Nat.mod_eq_of_lt hd, hl, Nat.mul_comm]

/-- The walk performs ECALL and EBREAK by taking their trap at the instruction's own PC (R99). -/
theorem exec_call {s : State} {tid : Nat} {t : Thread} {i : Instr} {e : Entry} {mark : Bool} {cause detail : Nat}
    (hi : (i = .ecall mark ∧ cause = 6 ∧ detail = 0) ∨ (i = .ebreak mark ∧ cause = 5 ∧ detail = 3)) (hw : Walking s tid t i e) :
    exec i s = .next (s.takeTrap tid ⟨cause, detail, 0⟩ e.pc false) := by
  rcases hi with ⟨rfl, rfl, rfl⟩ | ⟨rfl, rfl, rfl⟩
  · show execEcall mark s = _
    exact s.threadOp_walking _ _ _ _ tid t e hw
  · show execEbreak mark s = _
    exact s.threadOp_walking _ _ _ _ tid t e hw

/-- Settles O34: both calls deliver a recoverable trap, whose handler state is `Thread.deliver`. -/
theorem callsTrap : Obligations.CallsTrap := by
  intro s tid t i e mark cause detail hi hw hl hv
  have hcode : cause < 16 ∧ detail < 256 := by rcases hi with ⟨-, rfl, rfl⟩ | ⟨-, rfl, rfl⟩ <;> decide
  obtain ⟨hcause, hdetail⟩ := hcode
  have hexec := exec_call hi hw
  rw [s.takeTrap_recoverable tid t _ e.pc false hw.known hl hv hcause] at hexec
  refine ⟨_, _, hexec, State.thr_setThr_self _ tid _, rfl, rfl, rfl, rfl, rfl, ?_, rfl, rfl, rfl, rfl, rfl, fun htrace =>
    (sameMemory_traced s t _ htrace).trans (sameMemory_setThr _ tid _)⟩
  rw [← t.trapBank_of_lt e.pc 0 hv (by omega) hdetail]
  exact t.deliver_banks _ e.pc false

/-! ## Returning from a trap (R100, R295) -/

/-- The bank a return of the thread reads (R296). -/
def Thread.returnBank (t : Thread) : TrapBank := if t.level = 1 then t.bank0 else t.bank1

/-- What a return from a trap gives its thread, whether or not a wait is resumed: mode and level of the bank, and every register,
bank and flag as it was. -/
structure Returned (t t' : Thread) : Prop where
  sup    : t'.sup = (fieldOf t.returnBank.stat 0 1 == 1)
  level  : t'.level = fieldOf t.returnBank.stat 1 2
  x      : t'.x = t.x
  v      : t'.v = t.v
  m      : t'.m = t.m
  bank0  : t'.bank0 = t.bank0
  bank1  : t'.bank1 = t.bank1
  vflags : t'.vflags = t.vflags
  escDue : t'.escDue = t.escDue

/-- A thread whose reply has come is Ready, and is else as it was. -/
theorem Thread.readReply_cases (t : Thread) : t.readReply = t ∨ t.readReply = { t with run := .ready, wait := none } := by
  unfold Thread.readReply
  split
  · split
    · exact .inr rfl
    · exact .inl rfl
  · exact .inl rfl

theorem Returned.readReply {t t' : Thread} (h : Returned t t') : Returned t t'.readReply := by
  rcases t'.readReply_cases with heq | heq
  · rw [heq]; exact h
  · rw [heq]; exact { h with }

/-- The thread as its bank has it, before a wait is resumed: the rest of its block is gone, and the waits of that level are no longer
suspended. -/
def Thread.restored (t : Thread) : Thread :=
  let b := t.returnBank
  let epc := (b.epc >>> 2) <<< 2
  { t.discard with
    pc := epc, sup := fieldOf b.stat 0 1 == 1, level := fieldOf b.stat 1 2, run := .ready
    bpIgnore := if b.cause = 5 && fieldOf b.stat 8 8 == 1 then some epc else t.bpIgnore
    susp := t.susp.filter fun x => x.level != fieldOf b.stat 1 2 }

/-- The thread with a suspended wait pending again: past the wait's instruction where that is one of a block, which is walked on. -/
def Thread.resume (t : Thread) (u : Suspended) : Thread :=
  { t with
    pc := if u.block.isEmpty then t.pc else t.pc + 4, block := u.block, walking := !u.block.isEmpty, wait := some u.wait
    run := .wait }

/-- The wait that a return of the thread resumes: the one suspended at the level it returns to, where WAITP is set (R295). -/
def Thread.Resumes (t : Thread) (u : Suspended) : Prop :=
  fieldOf t.returnBank.stat 3 1 = 1 ∧ (t.susp.find? fun x => x.level == fieldOf t.returnBank.stat 1 2) = some u

theorem Thread.xret_cases (t : Thread) :
    ((∀ u, ¬ t.Resumes u) ∧ t.xret = t.restored) ∨ ∃ u, t.Resumes u ∧ t.xret = (t.restored.resume u).readReply := by
  unfold Thread.xret
  dsimp only
  split
  case h_1 u hwait hu => exact .inr ⟨u, ⟨hwait, hu⟩, rfl⟩
  case h_2 hnone => exact .inl ⟨fun u hu => hnone u hu.1 hu.2, rfl⟩

theorem Thread.xret_noWait {t : Thread} (h : fieldOf t.returnBank.stat 3 1 = 0) : t.xret = t.restored := by
  rcases t.xret_cases with ⟨-, heq⟩ | ⟨u, ⟨hwait, -⟩, -⟩
  · exact heq
  · exact absurd (h.symm.trans hwait) (by decide)

theorem Thread.xret_wait {t : Thread} {u : Suspended} (h : t.Resumes u) : t.xret = (t.restored.resume u).readReply := by
  rcases t.xret_cases with ⟨hnone, -⟩ | ⟨u', hu', heq⟩
  · exact absurd h (hnone u)
  · obtain rfl : u' = u := Option.some.inj (hu'.2.symm.trans h.2)
    exact heq

theorem Thread.restored_returned (t : Thread) : Returned t t.restored := ⟨rfl, rfl, rfl, rfl, rfl, rfl, rfl, rfl, rfl⟩

theorem Thread.xret_returned (t : Thread) : Returned t t.xret := by
  have hr := t.restored_returned
  rcases t.xret_cases with ⟨-, heq⟩ | ⟨u, -, heq⟩
  · rw [heq]; exact hr
  · rw [heq]; exact Returned.readReply { hr with }

/-- A wait on a full register's reply ends as it is resumed, where the walk has not to go on with it (R64, R71). -/
theorem Thread.readReply_come {t : Thread} {w : PWait} {r : Reg} (hrun : t.run = .wait) (hw : t.wait = some w) (hk : w.kind = .reply r)
    (hr : t.empty.getD r.toNat none = none) (hwalk : t.walking = false) : t.readReply = { t with run := .ready, wait := none } := by
  obtain ⟨kind, rd, deadline, poll, ceil, verdict, order⟩ := w
  cases hk
  have hfull : ((t.empty.getD r.toNat none).isNone && !t.walking) = true := by rw [hr, hwalk]; rfl
  simp only [Thread.readReply, hrun, hw]
  exact if_pos hfull

/-- A wait on anything else, on a reply still to come, or of an instruction in the walk, stays pending. -/
theorem Thread.readReply_pending {t : Thread} {w : PWait} (hw : t.wait = some w)
    (h : ∀ r, w.kind = .reply r → (t.empty.getD r.toNat none).isSome = true ∨ t.walking = true) : t.readReply = t := by
  unfold Thread.readReply
  split
  case h_1 r rd deadline poll ceil verdict order hrun hreply =>
    cases hw.symm.trans hreply
    refine if_neg fun hfull => ?_
    rcases h r rfl with hempty | hwalk
    · rw [Option.isNone_eq_false_iff.2 hempty] at hfull
      cases hfull
    · rw [hwalk, Bool.not_true, Bool.and_false] at hfull
      cases hfull
  case h_2 => rfl

/-- A return that finds no escalation due leaves the thread as its bank has it. -/
theorem State.returnFromTrap_of_escDue {s : State} {tid : Nat} {t : Thread} (h : t.escDue = none) :
    s.returnFromTrap tid t = s.setThr tid t.xret := by
  have hesc : t.xret.escDue = none := t.xret_returned.escDue.trans h
  unfold State.returnFromTrap
  dsimp only
  split
  case h_1 n _ hdue => cases hesc.symm.trans hdue
  case h_2 => rfl

/-- The walk performs XRET by returning from the trap (R100). -/
theorem exec_xret {s : State} {tid : Nat} {t : Thread} {e : Entry} {mark : Bool} (h : Walking s tid t (.xret mark) e) :
    exec (.xret mark) s = .next (s.returnFromTrap tid t) := by
  show execXret mark s = _
  exact s.threadOp_walking _ _ _ _ tid t e h

/-- Settles O35: the thread is `Thread.xret`, by whether a wait is resumed and whether its reply has come. -/
theorem xretReturns : Obligations.XretReturns := by
  intro s tid t e mark hw hesc b
  have hexec := exec_xret hw
  rw [State.returnFromTrap_of_escDue hesc] at hexec
  have hret := t.xret_returned
  refine ⟨_, _, hexec, State.thr_setThr_self s tid _, hret.sup, hret.level, hret.x, hret.v, hret.m, hret.bank0, hret.bank1, hret.vflags,
    sameMemory_setThr s tid _, fun hwait => ?_, fun u hwait hu => ⟨fun hpending => ?_, fun r hk hcome hblock => ?_⟩⟩
  · rw [Thread.xret_noWait hwait]
    exact ⟨rfl, rfl, rfl, rfl⟩
  · have hstay : ∀ r, u.wait.kind = .reply r →
        ((t.restored.resume u).empty.getD r.toNat none).isSome = true ∨ (t.restored.resume u).walking = true :=
      fun r hk => (hpending r hk).imp id (by simp [Thread.resume])
    rw [Thread.xret_wait ⟨hwait, hu⟩, Thread.readReply_pending rfl hstay]
    exact ⟨rfl, rfl, rfl⟩
  · have hidle : (t.restored.resume u).walking = false := by simp [Thread.resume, hblock]
    rw [Thread.xret_wait ⟨hwait, hu⟩, Thread.readReply_come (t := t.restored.resume u) rfl rfl hk hcome hidle]
    exact ⟨rfl, rfl, hblock⟩

end Sys2Proof.Machine
end

section
/-!
The effective deadline of a wait (R104).
-/
namespace Sys2Proof.Machine

/-- E before the ceiling and the issue time bound it: the issue time for D = 0, a span from it where D[63] is 1, else D. -/
def State.unclamped (s : State) (d : Word) : Nat :=
  if d = 0 then s.pt else if d.getLsbD 63 then s.pt + d.toNat % 2 ^ 63 else d.toNat

/-- D[63] is 1 where D reaches 2 ^ 63. -/
theorem getLsbD_63_iff (d : Word) : d.getLsbD 63 = true ↔ 2 ^ 63 ≤ d.toNat := by
  have hmsb : d.msb = d.getLsbD 63 := d.msb_eq_getLsbD_last
  rw [← hmsb, d.msb_eq_decide, decide_eq_true_iff]

/-- E lies between the issue time and the ceiling, and is the unclamped E where that does. -/
theorem State.deadline_eq (s : State) (d : Word) (c : Nat) :
    s.deadline d c = (min (max (s.unclamped d) s.pt) (s.pt + c), d == 0, d != 0 && decide (s.pt + c < s.unclamped d)) := by
  have hraw : (if d = 0 then s.pt else if d.toNat < 2 ^ 63 then max d.toNat s.pt else s.pt + (d.toNat - 2 ^ 63)) =
      max (s.unclamped d) s.pt := by
    have hd := d.isLt
    unfold State.unclamped
    split
    · exact (Nat.max_self _).symm
    split
    · rw [if_neg (mt (getLsbD_63_iff d).1 (by omega))]
    · rw [if_pos ((getLsbD_63_iff d).2 (by omega))]
      omega
  have hpast : s.pt + c < max (s.unclamped d) s.pt ↔ s.pt + c < s.unclamped d := by omega
  simp only [State.deadline, hraw, gt_iff_lt, hpast]

/-- The deadline of ones is relative and spans 2 ^ 63 - 1 ns. -/
theorem State.unclamped_ones (s : State) : s.unclamped 0xFFFFFFFFFFFFFFFF = s.pt + (2 ^ 63 - 1) := rfl

/-- Settles O38: a wait's E, poll bit and ceiling bit are those of `State.deadline_eq` under its thread's ceiling. -/
theorem effectiveDeadline : Obligations.EffectiveDeadline := by
  intro s t k rd d ti wc w raw
  have hdeadline : w.deadline = min (max raw ti) (ti + wc) := congrArg Prod.fst (s.deadline_eq d wc)
  have hpoll : w.poll = (d == 0) := congrArg (fun x => x.2.1) (s.deadline_eq d wc)
  have hceil : w.ceil = (d != 0 && decide (ti + wc < raw)) := congrArg (fun x => x.2.2) (s.deadline_eq d wc)
  have hceil_iff : w.ceil = true ↔ d ≠ 0 ∧ ti + wc < raw := by simp [hceil]
  refine ⟨fun h => ?_, fun h => ?_, fun h => ?_, by simp [hpoll], ?_, fun hd hwc => ?_⟩
  · omega
  · omega
  · omega
  · rw [hceil_iff]
    exact ⟨fun ⟨hd, hlt⟩ => ⟨by omega, hd, hlt⟩, fun ⟨_, hd, hlt⟩ => ⟨hd, hlt⟩⟩
  · have hraw : raw = ti + (2 ^ 63 - 1) := by
      subst hd
      exact s.unclamped_ones
    have hlt : ti + wc < raw := by omega
    exact ⟨by omega, hceil_iff.2 ⟨by rw [hd]; decide, hlt⟩⟩

end Sys2Proof.Machine
end

section
/-!
The two waits on a doubleword, CWAIT and LWAIT, as the walk performs them at the home (R105, R145, R152), and the way of a deferred
access to its home.
-/
namespace Sys2Proof.Machine

/-! ## What the way to a doubleword leaves unchanged -/

/-- A translation that a station keeps changes nothing but what stations hold (R312). -/
theorem State.touchTlb_eq (s : State) (t : Thread) (va : Nat) (acc : Access) : ∃ tlb, s.touchTlb t va acc = { s with tlb := tlb } := by
  unfold State.touchTlb State.fillTlb
  repeat' split
  all_goals exact ⟨_, rfl⟩

@[simp] theorem State.touchTlb_pick (s : State) (t : Thread) (va : Nat) (acc : Access) : (s.touchTlb t va acc).pick = s.pick := by
  obtain ⟨tlb, h⟩ := s.touchTlb_eq t va acc
  rw [h]

@[simp] theorem State.touchTlb_canFlush (s : State) (t : Thread) (va : Nat) (acc : Access) (tid : Nat) :
    (s.touchTlb t va acc).canFlush tid = s.canFlush tid := by
  obtain ⟨tlb, h⟩ := s.touchTlb_eq t va acc
  rw [h]
  rfl

@[simp] theorem State.postFault_pick (s : State) (p : PStore) (x : Trap) : (s.postFault p x).pick = s.pick := by
  unfold State.postFault
  split <;> rfl

@[simp] theorem State.noteHeads_pick (s old : State) (p : PStore) : (s.noteHeads old p).pick = s.pick := by
  simp only [State.noteHeads]
  split <;> rfl

@[simp] theorem State.writeBytes_pick (s : State) (loc : Nat) (bs : List Byte) : (s.writeBytes loc bs).pick = s.pick := rfl

@[simp] theorem State.performStore_pick (s : State) (p : PStore) : (s.performStore p).pick = s.pick := by
  cases hop : p.op with
  | write => simp [State.performStore, hop]
  | cadd =>
    simp only [State.performStore, hop]
    repeat' split
    all_goals simp [State.write, State.dropLine]
  | atomic op =>
    simp only [State.performStore, hop]
    split <;> simp [State.write, State.dropLine]

@[simp] theorem State.release_pick (s : State) (tid : Nat) : (s.release tid).pick = s.pick := by
  simp only [State.release]
  split
  · rfl
  · exact foldl_keeps (fun s : State => s.pick) State.performStore State.performStore_pick _ _

@[simp] theorem State.caughtUp_pick (s : State) (tid loc n : Nat) : (s.caughtUp tid loc n).pick = s.pick := by
  unfold State.caughtUp
  split <;> simp

@[simp] theorem State.askWait_pick (s : State) (tid : Nat) (t : Thread) (loc n : Nat) : (s.askWait tid t loc n).pick = s.pick := by
  unfold State.askWait State.postMsg
  repeat' split
  all_goals rfl

/-! ## A deferred access that reaches its home (R67, R94) -/

/-- An access at a location that is no device register stops at no device. -/
theorem Walking.deviceStop_eq_none {s : State} {tid : Nat} {t : Thread} {i : Instr} {e : Entry} {va : Entry → Nat} {n loc : Nat}
    {acc : Access} (hw : Walking s tid t i e) (hp : s.place t (va e) n acc 0 = .ok loc) (hr : isReg loc = false) :
    s.deviceStop i va n acc = none := by
  simp [State.deviceStop, hw.here, hw.walks, hp, State.noDevice, hr]

/-- Nothing stops an access that reaches its home: it acts there, its station holding the translation. -/
theorem State.deferredAt_of_reaches {s : State} {tid : Nat} {t : Thread} {e : Entry} {va n : Nat} {acc : Access} {detail loc : Nat}
    (h : Reaches s tid t e va n acc detail loc) (act : State → Nat → State) :
    s.deferredAt tid t e va n acc detail act = act (s.touchTlb t va acc) loc := by
  have hphase : (e.phase == .held) = false ∧ e.outTooLong s.pt = false := by
    rcases h.free with hp | ⟨since, hp, hlt⟩
    · simp [Entry.outTooLong, hp]
    · simp [Entry.outTooLong, hp, hlt]
  have hlock : (acc = .rw && s.locked loc n) = false := by
    by_cases ha : acc = .rw
    · simp [h.open_ ha]
    · simp [ha]
  have hsent : ((isRemote loc || rides t.vcore loc) && !e.asked && !e.timed) = false := by
    rcases h.sent with ht | ⟨hfar, hrides⟩ | hask
    · simp [ht]
    · simp [hfar, hrides]
    · simp [hask]
  have hcame : (s.unsent tid loc && !e.timed) = false := by
    rcases h.came with ht | hu
    · simp [ht]
    · simp [hu]
  have hkept : (s.touchTlb t va acc).refusedThere loc = false := by
    have hhere := h.kept
    simpa [State.refusedThere] using hhere
  simp [State.deferredAt, hphase, h.placed, h.still, hlock, h.plain, hsent, hcame, hkept]

/-- A wait goes on behind its thread's own stores to its bytes, where they can all be performed (R119). -/
theorem State.settlingWait_of_canFlush {s : State} {tid : Nat} (h : s.canFlush tid = true) (t : Thread) (e : Entry) (d : Word)
    (loc n : Nat) (k : State → State) : s.settlingWait tid t e d loc n k = k (s.caughtUp tid loc n) := by
  unfold State.settlingWait State.settling State.caughtUp
  rw [h, Bool.not_true, Bool.and_false, Bool.false_and, if_neg Bool.false_ne_true, if_pos rfl]
  split <;> rfl

/-! ## Waits on a doubleword (R105, R145, R152) -/

@[simp] theorem State.begunWait_kind (s : State) (t : Thread) (e : Entry) (k : WaitKind) (rd : Reg) (d : Word) :
    (s.begunWait t e k rd d).kind = k := by
  unfold State.begunWait
  split <;> rfl

/-- The state in which a wait on a doubleword is first tested: its station holds the translation, the thread's own stores to it are
performed, and it is registered with another package where its home is there. -/
def State.atDoubleword (s : State) (tid : Nat) (t : Thread) (e : Entry) (loc : Nat) : State :=
  ((s.touchTlb t (e.op 0).toNat .read).caughtUp tid loc 8).askWait tid t loc 8

/-- A wait on a doubleword that reaches its home is tested there once its registration has left (R105, R325). -/
theorem State.wordWait_of_reaches {s : State} {tid : Nat} {t : Thread} {i : Instr} {e : Entry} {loc : Nat}
    (hw : Walking s tid t i e) (hr : Reaches s tid t e (e.op 0).toNat 8 .read 0 loc) (hf : s.canFlush tid = true)
    (rd a b c : Reg) (mark : Bool) (kind : Nat → Word → Word → WaitKind) (late : Word → Word → Word) :
    let s1 := s.atDoubleword tid t e loc
    let w := s1.begunWait t e (kind loc (e.op 0) (e.op 1)) rd (e.op 2)
    s.wordWait i rd a b c mark kind late = .next
      (s1.performWait tid t e w (if s1.unsent tid loc then none else s1.testWait t w) (late (w64 (s1.read loc 8)) (e.op 1))) := by
  intro s1 w
  have hstop : s.deviceStop i (fun e => (e.op 0).toNat) 8 .read = none := hw.deviceStop_eq_none hr.also hr.plain
  have hway : s1.failsOnWay t loc = false := by
    have hpick : s1.pick = s.pick := by simp [s1, State.atDoubleword]
    have hwhole := hr.whole
    simpa [State.failsOnWay, hpick] using hwhole
  simp only [State.wordWait, hstop]
  rw [State.threadOp_walking _ _ _ _ _ _ _ _ hw, State.deferredAt_of_reaches hr, State.settlingWait_of_canFlush (by simpa using hf)]
  show Host.Outcome.next (s1.performWait tid t e w (if s1.unsent tid loc then none else if isReg loc then _ else
    if s1.failsOnWay t loc then _ else s1.testWait t w) (late (w64 (s1.homeRead loc 8)) (e.op 1))) = _
  simp only [hr.plain, hway, State.homeRead, Bool.false_eq_true, if_false]

/-- How R105 goes on from a first test, by whether it finds the condition met. -/
theorem State.performWait_cases {s : State} {tid : Nat} {t : Thread} {e : Entry} {w : PWait} {p : Prop} [Decidable p] {v : Verdict}
    {late : Word} {first : Option Verdict} {o : Host.Outcome State Fault Refusal}
    (ho : o = .next (s.performWait tid t e w first late)) (hfirst : first = if p then some v else none) :
    (p → o = .next (s.endWait tid e w v)) ∧ (¬p → w.deadline ≤ s.pt → o = .next (s.endWait tid e w (s.timeout t w late))) ∧
      (¬p → s.pt < w.deadline → o = .next (s.parkWait tid w)) := by
  subst ho hfirst
  refine ⟨fun hp => ?_, fun hp hle => ?_, fun hp hlt => ?_⟩
  · simp [State.performWait, hp]
  · simp [State.performWait, hp, hle]
  · simp [State.performWait, hp, Nat.not_le.2 hlt]

/-- The home of a counter finds it at its target by E (R145). -/
theorem State.testWait_counter {s : State} {w : PWait} {loc : Nat} {va target : Word} (t : Thread) (hk : w.kind = .counter loc va target)
    (hb : s.bad loc 8 = false) : s.testWait t w =
      if s.pt ≤ w.deadline ∧ target.toNat ≤ s.read loc 8 then some (s.success t 0 (w64 (s.read loc 8))) else none := by
  by_cases hpt : s.pt ≤ w.deadline
  · simp [State.testWait, hk, hb, hpt, Nat.not_lt.2 hpt]
  · simp [State.testWait, hpt, Nat.not_le.1 hpt]

/-- The home of a word finds that it differs from the compare value by E (R152). -/
theorem State.testWait_word {s : State} {w : PWait} {loc : Nat} {va cmp : Word} (t : Thread) (hk : w.kind = .word loc va cmp)
    (hb : s.bad loc 8 = false) : s.testWait t w =
      if s.pt ≤ w.deadline ∧ s.read loc 8 ≠ cmp.toNat then some (s.success t 0 (w64 (s.read loc 8))) else none := by
  by_cases hpt : s.pt ≤ w.deadline
  · simp [State.testWait, hk, hb, hpt, Nat.not_lt.2 hpt]
  · simp [State.testWait, hpt, Nat.not_le.1 hpt]

/-- A test whose registration may not have left yet meets the condition where it has left and the home finds it met. -/
theorem ite_test {u : Bool} {p : Prop} [Decidable p] {test : Option Verdict} {v : Verdict}
    (h : test = if p then some v else none) : (if u then none else test) = if u = false ∧ p then some v else none := by
  cases u <;> simp [h]

/-- Settles O39: both waits are `State.wordWait`, tested at their home by their own condition. -/
theorem memoryWaits : Obligations.MemoryWaits := by
  intro s tid t e rd a b c mark loc word i s1 kind w val hw hr hf hb holds
  have hkind : w.kind = kind := s1.begunWait_kind t e kind rd (e.op 2)
  cases word with
  | false =>
    have hexec : exec i s = .next (s1.performWait tid t e w (if s1.unsent tid loc then none else s1.testWait t w) (w64 val)) :=
      State.wordWait_of_reaches hw hr hf rd a b c mark .counter fun v _ => v
    exact (State.performWait_cases hexec (ite_test (State.testWait_counter t hkind hb)) :)
  | true =>
    have hexec : exec i s = .next (s1.performWait tid t e w (if s1.unsent tid loc then none else s1.testWait t w) (e.op 1)) :=
      State.wordWait_of_reaches hw hr hf rd a b c mark .word fun _ c => c
    exact (State.performWait_cases hexec (ite_test (State.testWait_word t hkind hb)) :)

end Sys2Proof.Machine
end

section
/-!
The monitor operations MONA, MCLR and MWAIT, as the walk performs them (R105, R153 to R156).
-/
namespace Sys2Proof.Machine

/-- What does not pass the thread's own stores to some bytes follows them, where they can all be performed (R119). -/
theorem State.settling_of_canFlush {s : State} {tid : Nat} (h : s.canFlush tid = true) (loc n : Nat) (k : State → State) :
    s.settling tid loc n k = k (s.caughtUp tid loc n) := by
  unfold State.settling State.caughtUp
  rw [if_pos h]
  split <;> rfl

/-! ## MONA and MCLR (R154, R156) -/

section
variable {s : State} {tid : Nat} {t : Thread} {e : Entry} {rd a : Reg} {mark : Bool} {va loc n : Nat}

/-- MONA of a line that no entry of the thread watches arms the first Free entry, behind the thread's own stores to the line. -/
theorem exec_mona_free (hw : Walking s tid t (.mona rd a mark) e) (hva : (e.op 0).toNat / 64 * 64 = va)
    (hplace : s.monaPlace t va = .ok (some loc)) (hflush : s.canFlush tid = true)
    (hnew : (t.mon.findIdx? fun (m : MonSt) => m.line == some (lineOf loc)) = none)
    (hfree : (t.mon.findIdx? fun (m : MonSt) => m == .free) = some n) :
    exec (.mona rd a mark) s = .next
      ((((s.touchTlb t va .read).caughtUp tid (lineOf loc * 64) 64).arm tid t n loc va).finishX tid e rd (status 0 0 n)) := by
  have hflushed : (s.touchTlb t va .read).canFlush tid = true := by rw [State.touchTlb_canFlush, hflush]
  show execMona rd a mark s = _
  unfold execMona
  rw [State.threadOp_walking _ _ _ _ _ _ _ _ hw]
  simp only [hva, hplace, hnew, hfree, State.settling_of_canFlush hflushed]

/-- MONA of a line that no entry of the thread watches is refused where no entry is Free. -/
theorem exec_mona_full (hw : Walking s tid t (.mona rd a mark) e) (hva : (e.op 0).toNat / 64 * 64 = va)
    (hplace : s.monaPlace t va = .ok (some loc))
    (hnew : (t.mon.findIdx? fun (m : MonSt) => m.line == some (lineOf loc)) = none)
    (hfull : (t.mon.findIdx? fun (m : MonSt) => m == .free) = none) :
    exec (.mona rd a mark) s = .next ((s.touchTlb t va .read).finishX tid e rd (status 11 1 0)) := by
  show execMona rd a mark s = _
  unfold execMona
  rw [State.threadOp_walking _ _ _ _ _ _ _ _ hw]
  simp only [hva, hplace, hnew, hfull]

/-- MCLR of an address that has a line frees what watches it and leaves the other entries. -/
theorem exec_mclr (hw : Walking s tid t (.mclr a mark) e) (hva : (e.op 0).toNat / 64 * 64 = va)
    (hplace : s.monaPlace t va = .ok (some loc)) :
    exec (.mclr a mark) s = .next ((s.updThr tid fun t => { t with
      mon := t.mon.map fun (m : MonSt) => if m.line == some (lineOf loc) then .free else m }).finish tid e []) := by
  show execMclr a mark s = _
  unfold execMclr
  rw [State.threadOp_walking _ _ _ _ _ _ _ _ hw]
  simp only [hva, hplace]

end

/-! ## MWAIT (R105, R155) -/

section
variable {s : State} {tid : Nat} {t : Thread} {e : Entry} {rd c : Reg} {mark : Bool}

/-- How the walk performs MWAIT. -/
theorem exec_mwait (hw : Walking s tid t (.mwait rd c mark) e) :
    let w := s.newWait t .monitor rd (e.op 0)
    exec (.mwait rd c mark) s = .next
      (if t.mon.all fun m => m == .free then s.endWait tid e w ⟨s.pt, 11, 0, 0, 0⟩
      else if t.monMet then s.endMonitor tid t e w (s.monVerdict t)
      else s.performWait tid t e w none 0) := by
  intro w
  show execMwait rd c mark s = _
  exact s.threadOp_walking _ _ _ _ tid t e hw

/-- MWAIT of a thread with no armed entry is refused. -/
theorem exec_mwait_unarmed (hw : Walking s tid t (.mwait rd c mark) e) (hfree : ∀ m ∈ t.mon, m = .free) :
    exec (.mwait rd c mark) s = .next (s.endWait tid e (s.newWait t .monitor rd (e.op 0)) ⟨s.pt, 11, 0, 0, 0⟩) := by
  have hall : (t.mon.all fun m => m == .free) = true := by simpa using hfree
  rw [exec_mwait hw, if_pos hall]

/-- MWAIT with an armed entry is a wait on the monitor's condition. -/
theorem exec_mwait_armed (hw : Walking s tid t (.mwait rd c mark) e) (harmed : ∃ m ∈ t.mon, m ≠ .free) :
    let w := s.newWait t .monitor rd (e.op 0)
    exec (.mwait rd c mark) s = .next
      (if t.monMet then s.endMonitor tid t e w (s.monVerdict t) else s.performWait tid t e w none 0) := by
  intro w
  have hall : ¬(t.mon.all fun m => m == .free) = true := by simpa using harmed
  rw [exec_mwait hw, if_neg hall]

/-- MWAIT with an armed entry and no reason to end is a TIMEOUT at once where E is not after now, and parks until E where it is. -/
theorem exec_mwait_unmet (hw : Walking s tid t (.mwait rd c mark) e) (harmed : ∃ m ∈ t.mon, m ≠ .free) (hmet : t.monMet = false) :
    let w := s.newWait t .monitor rd (e.op 0)
    (w.deadline ≤ s.pt → exec (.mwait rd c mark) s = .next (s.endWait tid e w (s.timeout t w 0))) ∧
      (s.pt < w.deadline → exec (.mwait rd c mark) s = .next (s.parkWait tid w)) := by
  intro w
  have hexec : exec (.mwait rd c mark) s = .next (s.performWait tid t e w none 0) := by
    rw [exec_mwait_armed hw harmed, hmet, if_neg Bool.false_ne_true]
  obtain ⟨-, htimeout, hpark⟩ := State.performWait_cases (p := False) (v := s.monVerdict t) hexec (if_neg id).symm
  exact ⟨htimeout id, hpark id⟩

end

/-- Settles O40: MONA by whether an entry is Free, MCLR by its one answer, MWAIT by whether an entry is armed and its condition met. -/
theorem monitorsWatch : Obligations.MonitorsWatch := by
  intro s tid t e rd a mark
  constructor
  · intro loc n va hplace hflush
    refine ⟨fun hw hnew => ⟨fun hfree => ?_, fun hfull => ?_⟩, fun hw => ?_⟩
    · exact exec_mona_free hw rfl hplace hflush hnew hfree
    · exact exec_mona_full hw rfl hplace hnew hfull
    · exact exec_mclr hw rfl hplace
  · intro hw w
    refine ⟨fun hfree => ?_, fun harmed hmet => ?_, fun harmed hmet hle => ?_, fun harmed hmet hlt => ?_⟩
    · exact exec_mwait_unarmed hw hfree
    · rw [exec_mwait_armed hw harmed, if_pos hmet]
    · exact (exec_mwait_unmet hw harmed hmet).1 hle
    · exact (exec_mwait_unmet hw harmed hmet).2 hlt

end Sys2Proof.Machine
end

section
/-!
Vector instructions that compute on registers only (R159 to R169): the entry each makes as it issues.
-/
namespace Sys2Proof.Machine

/-! ## Issuing (R65, R66) -/

/-- An instruction that is not deferred joins its block with the entry its body makes, where that has not faulted. -/
theorem State.threadOp_joined {s : State} {tid : Nat} {t : Thread} {i : Instr} {f : Form} {body : Body} {perf : Perform} {e : Entry}
    {next : Word} (h : Issuing s tid t i f) (hf : f.deferred = false)
    (hb : body (s.bodyState t f) tid (s.blockStart t) (s.entry t i) = (e, next)) (hs : e.st = .done ∨ e.st = .sent) :
    s.threadOp i f body perf = .next (s.joined tid t f e next) := by
  rw [s.threadOp_ready i f body perf tid t h.here h.ready, s.issue_joined tid t i f body e next h hb hs]
  simp [hf]

/-- An instruction whose body faults stops its block. -/
theorem State.threadOp_stopped {s : State} {tid : Nat} {t : Thread} {i : Instr} {f : Form} {body : Body} {perf : Perform} {e : Entry}
    {x : Trap} {next : Word} (h : Issuing s tid t i f) (hv : t.popList f.vreads = [])
    (hb : body (s.bodyState t f) tid (s.blockStart t) (s.entry t i) = (e.fail x, next)) (hp : e.pops = []) :
    s.threadOp i f body perf = .next (s.stopped tid t e x) := by
  rw [s.threadOp_ready i f body perf tid t h.here h.ready, s.issue_stopped tid t i f body e x next h hv hb hp]

/-- A vector instruction makes its entry from its thread as it stands, whatever CSRs its block has sampled. -/
theorem State.vecOp_joined {s : State} {tid : Nat} {t : Thread} {i : Instr} {xs ws vs vd : List Reg} {mark : Bool}
    {go : Thread → Entry → Entry} {e : Entry} (h : Issuing s tid t i (vectorForm xs ws vs vd mark))
    (hgo : ∀ l, go { t with snap := l } (s.entry t i) = e) (hs : e.st = .done) :
    s.vecOp i (vectorForm xs ws vs vd mark) go = .next (s.joined tid t (vectorForm xs ws vs vd mark) e (t.pc + 4)) := by
  obtain ⟨l, hl⟩ := s.blockStart_eq t
  refine State.threadOp_joined h rfl ?_ (.inl hs)
  rw [hl, hgo l]

/-! ## Where a vector result goes (R159, R178) -/

@[simp] theorem Thread.putV_st (t : Thread) (e : Entry) (d : Reg) (bits val : Vec) : (t.putV e d bits val).st = e.st := by
  unfold Thread.putV
  split
  · split <;> rfl
  · rfl

@[simp] theorem Thread.putRes_st (t : Thread) (e : Entry) (d : Reg) (r : VRes) : (t.putRes e d r).st = e.st := t.putV_st e d _ _

@[simp] theorem Thread.putPair_st (t : Thread) (e : Entry) (d : Reg) (w n : Nat) (m : Mask) (f : Nat → Nat × Flags) :
    (t.putPair e d w n m f).st = e.st := by
  simp [Thread.putPair]

@[simp] theorem State.entry_st (s : State) (t : Thread) (i : Instr) : (s.entry t i).st = .done := rfl

/-! ## Lane by lane (R161) -/

/-- A lane-wise instruction is the operation of two registers by its lane function. -/
theorem LaneWise.exec_eq {i : Instr} {ty : VType} {d a b : Reg} {m : BitVec 2} {mark : Bool} {g : Nat → Nat → Nat × Flags}
    (h : LaneWise i ty d a b m mark g) (s : State) : exec i s = s.vecBin i ty d a b m mark g := by
  cases h <;> rfl

/-- Settles O21: every lane-wise instruction is one operation, which puts the lanes' results into its entry. -/
theorem laneWiseIssue : Obligations.LaneWiseIssue := by
  intro s tid t i ty d a b m mark g hi h w r
  rw [hi.exec_eq]
  exact State.vecOp_joined h (fun _ => rfl) (by simp)

/-- The four products of a VDOT lane are added from the first on. -/
theorem foldl_four (f : Nat → Int) : [0, 1, 2, 3].foldl (fun acc j => acc + f j) 0 = f 0 + f 1 + f 2 + f 3 := by
  simp

/-- Settles O22: each instruction puts what its rule gives for the lanes into its entry. -/
theorem laneOpsIssue : Obligations.LaneOpsIssue := by
  refine ⟨fun s tid t ty d a b m mark => ?_, fun s tid t ty d a b m lane mark => ?_⟩
  · refine ⟨fun h => ?_, fun h => ?_⟩
    · exact State.vecOp_joined h (fun _ => rfl) (by simp)
    · refine State.vecOp_joined h (fun l => ?_) (by simp)
      simp only [foldl_four]
      rfl
  · exact ⟨fun h => State.vecOp_joined h (fun _ => rfl) (by simp), fun h => State.vecOp_joined h (fun _ => rfl) (by simp),
      fun h => State.vecOp_joined h (fun _ => rfl) (by simp), fun h => State.vecOp_joined h (fun _ => rfl) (by simp),
      fun h => State.vecOp_joined h (fun _ => rfl) (by simp), fun h => State.vecOp_joined h (fun _ => rfl) rfl⟩

/-! ## Conversions and reductions (R164 to R168) -/

/-- Settles O24: the shape of a conversion chooses the registers it reads and writes; a reduction fills lane 0. -/
theorem convertAndReduceIssue : Obligations.ConvertAndReduceIssue := by
  refine ⟨fun s tid t ty dty rm d a m mark => ?_, fun s tid t ty d a m mark => ?_⟩
  · refine ⟨fun hshape h => ?_, fun hshape h => ?_, fun hshape h => ?_, fun h => ?_, fun h => ?_⟩
    · show execVcvt ty dty rm d a m mark s = _
      simp only [execVcvt, hshape]
      exact State.vecOp_joined h (fun _ => rfl) (by simp)
    · show execVcvt ty dty rm d a m mark s = _
      simp only [execVcvt, hshape]
      exact State.vecOp_joined h (fun _ => rfl) (by simp)
    · show execVcvt ty dty rm d a m mark s = _
      simp only [execVcvt, hshape]
      exact State.vecOp_joined h (fun _ => rfl) (by simp)
    · exact State.vecOp_joined h (fun _ => rfl) (by simp)
    · refine State.vecOp_joined h (fun _ => ?_) (by simp)
      cases ty <;> rfl
  · refine ⟨fun h => ?_, fun h => ?_, fun h => ?_, fun h => ?_⟩
    · exact State.vecOp_joined h (fun _ => rfl) (by simp)
    · exact State.vecOp_joined h (fun _ => rfl) (by simp)
    · exact State.vecOp_joined h (fun _ => rfl) (by simp)
    · refine State.vecOp_joined h (fun _ => rfl) ?_
      split <;> simp

end Sys2Proof.Machine
end

section
/-!
Lanes and bits put into a number and read back (R158), and the instructions whose result is a mask or its count (R162, R175).
-/
namespace Sys2Proof.Machine

/-! ## Fields of equal width, side by side -/

/-- The number whose `n` fields of width `w` a function gives. -/
def packed (w n : Nat) (f : Nat → Nat) : Nat := (List.range n).foldl (fun acc i => acc + f i % 2 ^ w * 2 ^ (w * i)) 0

theorem lanesVec_eq (w n : Nat) (f : Nat → Nat) : lanesVec w n f = BitVec.ofNat 256 (packed w n f) := rfl

theorem packed_succ (w n : Nat) (f : Nat → Nat) : packed w (n + 1) f = packed w n f + f n % 2 ^ w * 2 ^ (w * n) := by
  simp [packed, List.range_succ]

theorem packed_lt (w n : Nat) (f : Nat → Nat) : packed w n f < 2 ^ (w * n) := by
  induction n with
  | zero => simp [packed]
  | succ n ih =>
    have hfield := Nat.mul_le_mul_right (2 ^ (w * n)) (Nat.le_sub_one_of_lt (Nat.mod_lt (f n) (Nat.two_pow_pos w)))
    have hroom := Nat.le_mul_of_pos_left (2 ^ (w * n)) (Nat.two_pow_pos w)
    rw [packed_succ, Nat.mul_succ, Nat.pow_add, Nat.mul_comm (2 ^ (w * n))]
    rw [Nat.sub_one_mul] at hfield
    omega

/-- A field is read back from where it was put. -/
theorem bitsOf_packed {w n k : Nat} (f : Nat → Nat) (hk : k < n) : bitsOf (packed w n f) (w * k) w = f k % 2 ^ w := by
  have hpos : 0 < 2 ^ (w * k) := Nat.two_pow_pos _
  induction n with
  | zero => exact absurd hk (Nat.not_lt_zero k)
  | succ n ih =>
    rw [packed_succ, bitsOf]
    rcases Nat.lt_succ_iff_lt_or_eq.mp hk with hlt | rfl
    · obtain ⟨j, rfl⟩ : ∃ j, n = k + 1 + j := ⟨n - (k + 1), by omega⟩
      have hhigher : f (k + 1 + j) % 2 ^ w * 2 ^ (w * (k + 1 + j)) = 2 ^ (w * k) * (2 ^ w * (2 ^ (w * j) * (f (k + 1 + j) % 2 ^ w))) := by
        rw [Nat.mul_add, Nat.mul_succ, Nat.pow_add, Nat.pow_add]
        ac_rfl
      rw [hhigher, Nat.add_mul_div_left _ _ hpos, Nat.add_mul_mod_self_left]
      exact ih hlt
    · rw [Nat.add_mul_div_right _ _ hpos, Nat.div_eq_of_lt (packed_lt w k f), Nat.zero_add, Nat.mod_mod]

/-- A lane of a register made lane by lane (R158). -/
theorem laneOf_lanesVec {w n k : Nat} (f : Nat → Nat) (hfit : w * n ≤ 256) (hk : k < n) : laneOf (lanesVec w n f) w k = f k % 2 ^ w := by
  rw [laneOf, lanesVec_eq, BitVec.toNat_ofNat,
    Nat.mod_eq_of_lt (Nat.lt_of_lt_of_le (packed_lt w n f) (Nat.pow_le_pow_right Nat.two_pos hfit)), bitsOf_packed f hk]

/-! ## Bits -/

theorem bitAt_toNat {w : Nat} (v : BitVec w) (k : Nat) : bitAt v.toNat k = v.getLsbD k := by
  rw [← BitVec.testBit_toNat, Nat.testBit_eq_decide_div_mod_eq]
  rfl

/-- The mask whose bits a function gives. -/
def maskOf (f : Nat → Bool) : Mask := BitVec.ofNat 32 ((List.range 32).foldl (fun acc k => if f k then acc + 2 ^ k else acc) 0)

theorem getLsbD_maskOf (f : Nat → Bool) (k : Nat) : (maskOf f).getLsbD k = (decide (k < 32) && f k) := by
  have hsum : maskOf f = BitVec.ofNat 32 (packed 1 32 fun k => (f k).toNat) := by
    unfold maskOf packed
    congr 2
    funext acc k
    cases hf : f k <;> simp [hf]
  rw [hsum, BitVec.getLsbD_ofNat, Nat.testBit_eq_decide_div_mod_eq]
  by_cases hk : k < 32
  · have hbit : packed 1 32 (fun k => (f k).toNat) / 2 ^ (1 * k) % 2 = (f k).toNat % 2 := bitsOf_packed _ hk
    rw [Nat.one_mul] at hbit
    rw [hbit]
    cases f k <;> simp
  · simp [hk]

theorem popcount_eq {w : Nat} (v : BitVec w) (n : Nat) : popcount v.toNat n = ((List.range n).filter fun k => v.getLsbD k).length := by
  have hcount (l : List Nat) (c : Nat) :
      l.foldl (fun n i => if bitAt v.toNat i then n + 1 else n) c = c + (l.filter fun k => v.getLsbD k).length := by
    induction l generalizing c with
    | nil => rfl
    | cons i l ih =>
      rw [List.foldl_cons, ih, bitAt_toNat, List.filter_cons]
      cases v.getLsbD i
      · rfl
      · exact Nat.succ_add_eq_add_succ c _
  rw [popcount, hcount, Nat.zero_add]

/-- The first set bit of a mask, or 32 where there is none. -/
theorem find_firstBit {v : Mask} {n : Nat} (hn : n ≤ 32) (hclear : ∀ k, k < n → v.getLsbD k = false) (hset : n < 32 → v.getLsbD n = true) :
    ((List.range 32).find? fun i => bitAt v.toNat i).getD 32 = n := by
  rcases Nat.lt_or_eq_of_le hn with hlt | rfl
  · have hfirst : (List.range 32).find? (fun i => bitAt v.toNat i) = some n := by
      simpa [bitAt_toNat, hset hlt, hlt] using hclear
    rw [hfirst]
    rfl
  · have hnone : (List.range 32).find? (fun i => bitAt v.toNat i) = none := by
      simpa [bitAt_toNat] using hclear
    rw [hnone]
    rfl

/-! ## Compares and mask instructions -/

theorem lanes_le (ty : VType) : ty.lanes ≤ 32 := by cases ty <;> decide

theorem getD_map_range {α : Type} (g : Nat → α) (n k : Nat) (d : α) : ((List.range n).map g).getD k d = if k < n then g k else d := by
  rw [List.getD_eq_getElem?_getD, List.getElem?_map]
  split
  · rw [List.getElem?_range ‹_›]
    rfl
  · rw [List.getElem?_eq_none (by simpa using ‹¬ k < n›)]
    rfl

/-- What a compare keeps of each of `n` lanes: whether the mask chooses it, its bit and its flags. -/
def comparedLanes (n : Nat) (mk : Mask) (c : Nat → Bool × Flags) : List (Bool × Bool × Flags) :=
  (List.range n).map fun k => if bitAt mk.toNat k then (true, (c k).1, (c k).2) else (false, false, 0)

theorem comparedLanes_getD (n : Nat) (mk : Mask) (c : Nat → Bool × Flags) (k : Nat) :
    (comparedLanes n mk c).getD k (false, false, 0) =
      if k < n ∧ mk.getLsbD k = true then (true, (c k).1, (c k).2) else (false, false, 0) := by
  rw [comparedLanes, getD_map_range, bitAt_toNat]
  by_cases hk : k < n
  · simp only [hk, if_true, true_and]
  · simp only [hk, if_false, false_and]

theorem comparedLanes_flags (n : Nat) (mk : Mask) (c : Nat → Bool × Flags) :
    (comparedLanes n mk c).foldl (fun fl r => flagOr fl r.2.2) 0 =
      (List.range n).foldl (fun fl k => if mk.getLsbD k then fl ||| (c k).2 else fl) 0 := by
  rw [comparedLanes, List.foldl_map]
  congr 1
  funext fl k
  rw [bitAt_toNat]
  cases mk.getLsbD k
  · exact flagOr_zero fl
  · rfl

/-- The entry of a compare: the mask's bits of the lanes that take part, and of those from the number of lanes up, are written. -/
def compareEntry (e : Entry) (d : BitVec 3) (n : Nat) (mk : Mask) (c : Nat → Bool × Flags) : Entry :=
  let rs := comparedLanes n mk c
  { e with
    mw := [⟨d, maskOf fun k => decide (n ≤ k) || (rs.getD k (false, false, 0)).1, maskOf fun k => (rs.getD k (false, false, 0)).2.1⟩]
    flags := rs.foldl (fun fl r => flagOr fl r.2.2) 0 }

theorem LaneCompare.exec_eq {i : Instr} {ty : VType} {d : BitVec 3} {a b : Reg} {m : BitVec 2} {mark : Bool} {op : Nat}
    (h : LaneCompare i ty d a b m mark op) (s : State) : exec i s = s.vecCompare i ty d a b m mark op := by
  cases h <;> rfl

theorem MaskResult.exec_eq {t : Thread} {i : Instr} {regs : List Reg} {d : BitVec 3} {mark : Bool} {val : Mask}
    (h : MaskResult t i regs d mark val) (s : State) :
    ∃ f : Thread → Mask, exec i s = s.maskOp i regs d mark f ∧ ∀ l, f { t with snap := l } = val := by
  cases h <;> exact ⟨_, rfl, fun _ => rfl⟩

/-- Settles O23: a compare's bits are those of its lanes, the mask instructions write whole masks, and the counts are of bits. -/
theorem maskResultsIssue : Obligations.MaskResultsIssue := by
  refine ⟨fun s tid t i ty d a b m mark op hi h => ?compare, fun s tid t => ⟨fun i regs d mark val hi h => ?mask, fun rd a mark h => ?count,
    fun rd a mark n hn hclear hset h => ?first⟩⟩
  case compare =>
    intro w c
    have hlanes := lanes_le ty
    rw [hi.exec_eq]
    refine ⟨compareEntry (s.entry t i) d ty.lanes (t.mr m.toNat) c, State.vecOp_joined h (fun _ => rfl) rfl, rfl, rfl, _, _, rfl,
      fun k hk => ?_, fun k hk hbit => ?_, fun k hk => ?_, comparedLanes_flags ty.lanes (t.mr m.toNat) c⟩
    · rw [getLsbD_maskOf, comparedLanes_getD, decide_eq_true hk, Bool.true_and]
      by_cases hlt : k < ty.lanes
      · cases hbit : (t.mr m.toNat).getLsbD k <;> simp [hlt]
      · simp [Nat.not_lt.mp hlt]
    · rw [getLsbD_maskOf, comparedLanes_getD, if_pos ⟨hk, hbit⟩, decide_eq_true (Nat.lt_of_lt_of_le hk hlanes), Bool.true_and]
    · rw [getLsbD_maskOf, comparedLanes_getD, if_neg (fun hin => Nat.not_lt.mpr hk hin.1), Bool.and_false]
  case mask =>
    obtain ⟨f, hexec, hf⟩ := hi.exec_eq s
    rw [hexec]
    exact State.vecOp_joined h (fun l => by rw [hf l]) rfl
  case count =>
    rw [← popcount_eq]
    exact State.vecOp_joined h (fun _ => rfl) rfl
  case first =>
    have hfirst := find_firstBit hn hclear hset
    refine State.vecOp_joined h (fun _ => ?_) rfl
    show Entry.long _ rd (w64 (((List.range 32).find? fun i => bitAt (t.mr a.toNat).toNat i).getD 32)) = _
    rw [hfirst]
    rfl

end Sys2Proof.Machine
end

section
/-!
VLUT and SCMAC read their tables and columns in the core's own TCM as they issue (R170 to R172).
-/
namespace Sys2Proof.Machine

/-! ## What noting an issue leaves alone -/

/-- As an instruction issues, only the debug unit's note and the vcores' stream engines change. -/
theorem State.bodyState_eq (s : State) (t : Thread) (f : Form) : ∃ d vcs, s.bodyState t f = { s with dbg := d, vcores := vcs } := by
  unfold State.bodyState
  split
  · exact ⟨_, s.vcores, rfl⟩
  · exact ⟨_, _, rfl⟩

theorem State.bodyState_ownWindow (s : State) (t : Thread) (f : Form) (a : Accessor) (va n : Nat) :
    (s.bodyState t f).ownWindow a va n = s.ownWindow a va n := by
  obtain ⟨d, vcs, h⟩ := s.bodyState_eq t f
  rw [h]
  rfl

theorem State.bodyState_locate (s : State) (t : Thread) (f : Form) (a : Accessor) (st va n : Nat) (acc : Access) (detail : Nat) :
    (s.bodyState t f).locate a st va n acc detail = s.locate a st va n acc detail := by
  obtain ⟨d, vcs, h⟩ := s.bodyState_eq t f
  rw [h]
  rfl

/-- The core's own windows hold no device register. -/
theorem State.ownWindow_plain {s : State} {a : Accessor} {va n loc : Nat} (h : s.ownWindow a va n = some (.ok loc)) : isReg loc = false := by
  have hhigh : 2 ^ 48 ≤ loc := by
    unfold State.ownWindow at h
    repeat' split at h
    all_goals simp only [Option.some.injEq, Except.ok.injEq, reduceCtorEq] at h
    all_goals
      rw [← h]
      simp only [tcmLoc, spadLoc, istLoc, Nat.add_assoc]
    · exact Nat.le_add_right _ _
    · exact Nat.le_add_right _ _
    all_goals exact Nat.le_trans (by decide) (Nat.le_add_right _ _)
  have hdevice : isDevice loc = false := by
    simp only [isDevice, Bool.and_eq_false_iff, decide_eq_false_iff_not]
    omega
  rw [isReg, hdevice, Bool.false_and]

/-! ## A thread that starts its block reads and writes as it would without the sample -/

theorem State.blockStart_accessor (s : State) (t : Thread) : (s.blockStart t).accessor = t.accessor := by
  obtain ⟨l, hl⟩ := s.blockStart_eq t
  rw [hl]
  rfl

theorem State.blockStart_lutb (s : State) (t : Thread) : (s.blockStart t).lutb = t.lutb := by
  obtain ⟨l, hl⟩ := s.blockStart_eq t
  rw [hl]

theorem State.blockStart_vmask (s : State) (t : Thread) (m : BitVec 2) : (s.blockStart t).vmask m = t.mr m.toNat :=
  s.blockStart_mr t m.toNat

theorem State.blockStart_putRes (s : State) (t : Thread) : (s.blockStart t).putRes = t.putRes := by
  obtain ⟨l, hl⟩ := s.blockStart_eq t
  rw [hl]
  rfl

theorem State.blockStart_putPair (s : State) (t : Thread) : (s.blockStart t).putPair = t.putPair := by
  obtain ⟨l, hl⟩ := s.blockStart_eq t
  rw [hl]
  rfl

/-- The stores an issuing instruction's reads are forwarded from. -/
theorem State.bodyState_heldStores (s : State) (f : Form) (tid : Nat) (t : Thread) :
    (s.bodyState t f).heldStores tid (s.blockStart t) t.block = s.heldStores tid t t.block := by
  obtain ⟨l, hl⟩ := s.blockStart_eq t
  have hbuf : (s.bodyState t f).storeBuf = s.storeBuf := by
    obtain ⟨d, vcs, h⟩ := s.bodyState_eq t f
    rw [h]
  simp only [State.heldStores, State.bodyState_locate, hbuf, hl]
  rfl

/-- A load at issue takes its bytes from memory. -/
theorem State.loadByte_memory (s : State) (t : Thread) : s.loadByte t false = fun loc => (s.byteAt loc).toNat := by
  funext loc
  rfl

theorem State.bodyState_byteAt (s : State) (t : Thread) (f : Form) (loc : Nat) : (s.bodyState t f).byteAt loc = s.byteAt loc := by
  obtain ⟨d, vcs, h⟩ := s.bodyState_eq t f
  rw [h]
  rfl

theorem State.bodyState_bad (s : State) (t : Thread) (f : Form) (loc n : Nat) : (s.bodyState t f).bad loc n = s.bad loc n := by
  obtain ⟨d, vcs, h⟩ := s.bodyState_eq t f
  rw [h]
  rfl

/-- An access to plain memory is loaded at issue as it would be before the issue was noted. -/
theorem State.bodyState_loadAt (s : State) (f : Form) (t u u' : Thread) (held : List (Nat × Nat × Nat)) {va loc n : Nat}
    (h : isReg loc = false) : (s.bodyState t f).loadAt u held false va loc n = s.loadAt u' held false va loc n := by
  simp only [State.loadAt, h, Bool.false_eq_true, if_false, State.bodyState_bad, State.loadByte_memory, State.bodyState_byteAt]

/-- An entry of a table or column is read as it stands before the issue is noted. -/
theorem State.bodyState_tcmAtIssue (s : State) (f : Form) (t : Thread) (held : List (Nat × Nat × Nat)) (va n : Nat) :
    (s.bodyState t f).tcmAtIssue (s.blockStart t) held va n = s.tcmAtIssue t held va n := by
  unfold State.tcmAtIssue
  rw [s.blockStart_accessor, s.bodyState_ownWindow]
  split
  next loc hloc =>
    exact s.bodyState_loadAt f t _ t held (State.ownWindow_plain hloc)
  · rfl
  · rfl

theorem State.bodyState_columnFault (s : State) (f : Form) (t : Thread) (va sz : Nat) :
    (s.bodyState t f).columnFault (s.blockStart t) va sz = s.columnFault t va sz := by
  simp only [State.columnFault, s.blockStart_accessor, s.bodyState_ownWindow]

/-! ## The one fault of several (R94) -/

theorem pickFault_cons_isSome (x : Trap) (l : List Trap) : (pickFault (x :: l)).isSome = true :=
  List.foldlRecOn (motive := fun o : Option Trap => o.isSome = true) l _ rfl fun o ho y _ => by
    obtain ⟨b, rfl⟩ := Option.isSome_iff_exists.mp ho
    dsimp only
    split <;> rfl

/-- The fault taken is one of those found. -/
theorem mem_of_pickFault {l : List Trap} {x : Trap} (h : pickFault l = some x) : x ∈ l := by
  have hall : ∀ y, pickFault l = some y → y ∈ l :=
    List.foldlRecOn (motive := fun o : Option Trap => ∀ y, o = some y → y ∈ l) l _ nofun fun o ho z hz y hy => by
      split at hy
      · split at hy
        · exact Option.some.inj hy ▸ hz
        · exact ho y hy
      · exact Option.some.inj hy ▸ hz
  exact hall x h

/-- No fault is taken exactly where none is found. -/
theorem pickFault_eq_none_iff {α : Type} {g : α → Option Trap} {l : List α} :
    pickFault (l.filterMap g) = none ↔ ∀ k ∈ l, g k = none := by
  rw [← List.filterMap_eq_nil_iff]
  refine ⟨fun h => ?_, fun h => by rw [h]; rfl⟩
  match hl : l.filterMap g with
  | [] => rfl
  | x :: r =>
    have hsome := pickFault_cons_isSome x r
    rw [← hl, h] at hsome
    cases hsome

/-! ## Lanes that a mask leaves out -/

/-- Only the lanes that the mask chooses count. -/
theorem lanesOf_congr {w n first : Nat} {m : Mask} {f g : Nat → Nat × Flags}
    (h : ∀ k, k < first + n → m.getLsbD k = true → f k = g k) : lanesOf w n first m f = lanesOf w n first m g := by
  have hlanes : (List.range n).map (fun i => if bitAt m.toNat (first + i) then some (f (first + i)) else none) =
      (List.range n).map fun i => if bitAt m.toNat (first + i) then some (g (first + i)) else none := by
    refine List.map_congr_left fun i hi => ?_
    split
    next hbit => rw [h (first + i) (Nat.add_lt_add_left (List.mem_range.mp hi) first) (by rwa [bitAt_toNat] at hbit)]
    next => rfl
  simp only [lanesOf, hlanes]

theorem Thread.putPair_congr {t : Thread} {e : Entry} {d : Reg} {w n : Nat} {m : Mask} {f g : Nat → Nat × Flags}
    (h : ∀ k, k < n + n → m.getLsbD k = true → f k = g k) : t.putPair e d w n m f = t.putPair e d w n m g := by
  have hlo : lanesOf w n 0 m f = lanesOf w n 0 m g := lanesOf_congr fun k hk => h k (by omega)
  have hhi : lanesOf w n n m f = lanesOf w n n m g := lanesOf_congr h
  rw [Thread.putPair, Thread.putPair, hlo, hhi]

/-- A NaN takes no entry of the table. -/
theorem lutLane_nan (f : Fmt) {x : FpVal} (hx : x.isNan = true) (a b a' b' : Nat) : lutLane f x a b = lutLane f x a' b' := by
  obtain ⟨n, rfl⟩ := FpVal.isNan_iff.mp hx
  rfl

/-! ## VLUT and SCMAC -/

/-- An instruction whose body faults, whatever the fault, stops its block. -/
theorem State.threadOp_faults {s : State} {tid : Nat} {t : Thread} {i : Instr} {f : Form} {body : Body} {perf : Perform} {e : Entry}
    (h : Issuing s tid t i f) (hv : t.popList f.vreads = [])
    (hb : ∃ x next, body (s.bodyState t f) tid (s.blockStart t) (s.entry t i) = (e.fail x, next)) (hp : e.pops = []) :
    ∃ x, s.threadOp i f body perf = .next (s.stopped tid t e x) := by
  obtain ⟨x, next, hx⟩ := hb
  exact ⟨x, State.threadOp_stopped h hv hx hp⟩

/-- Settles O25: what is read as the instruction issues is what stood before it; a fault among the entries it needs is taken. -/
theorem tableOpsIssue : Obligations.TableOpsIssue := by
  intro s tid t ty d a b m mark word mk held w val slot
  refine ⟨fun h => ⟨fun hread => ?lut, fun k x hpop hk hbit hnum hx => ?lutFault⟩, ?mac, ?macFault⟩
  case lut =>
    show execVlut ty d a m mark s = _
    refine State.threadOp_joined h rfl ?_ (.inl (by simp))
    simp only [State.blockStart_block, State.bodyState_heldStores, State.bodyState_tcmAtIssue, State.blockStart_vmask,
      State.blockStart_lutb, State.blockStart_readV, State.blockStart_putRes, State.blockStart_pc, bitAt_toNat]
    split
    next x hx =>
      rw [pickFault_eq_none_iff.mpr] at hx
      · cases hx
      intro k hk
      split
      next hneeds =>
        obtain ⟨hbit, hnum⟩ : (t.mr m.toNat).getLsbD k = true ∧ (val k).isNan = false := by simpa using hneeds
        rw [hread k (List.mem_range.mp hk) hbit hnum]
      · rfl
    · congr 2
      refine lanesOf_congr fun k hk hbit => ?_
      cases hnan : (val k).isNan
      · rw [hread k (by omega) hbit hnan]
      · exact lutLane_nan _ hnan _ _ _ _
  case lutFault =>
    show ∃ y, execVlut ty d a m mark s = _
    refine State.threadOp_faults h hpop ?_ rfl
    simp only [State.blockStart_block, State.bodyState_heldStores, State.bodyState_tcmAtIssue, State.blockStart_vmask,
      State.blockStart_lutb, State.blockStart_readV, State.blockStart_putRes, State.blockStart_pc, bitAt_toNat]
    split
    · exact ⟨_, _, rfl⟩
    next hnone =>
      have hk := pickFault_eq_none_iff.mp hnone k (List.mem_range.mpr hk)
      rw [if_pos (by simpa using And.intro hbit hnum), hx] at hk
      cases hk
  case mac =>
    intro f i sz va code h hcol hread lane e
    show execScmac ty d a b m mark s = _
    refine State.threadOp_joined h rfl ?_ (.inl ?_)
    · have hcol' : s.columnFault t (t.readX a).toNat (if ty = .h then 2 else 1) = none := hcol
      simp only [State.blockStart_block, State.bodyState_heldStores, State.bodyState_tcmAtIssue, State.blockStart_vmask,
        State.blockStart_readX, State.blockStart_readV, State.blockStart_putPair, State.blockStart_pc, bitAt_toNat,
        State.bodyState_columnFault, hcol']
      split
      next x hx =>
        rw [pickFault_eq_none_iff.mpr] at hx
        · cases hx
        intro k hk
        split
        next hbit => rw [hread k (List.mem_range.mp hk) hbit]
        · rfl
      · rw [Thread.putPair_congr (g := lane)]
        intro k hk hbit
        rw [hread k hk hbit]
    · exact Thread.putPair_st t _ d 32 8 mk lane
  case macFault =>
    intro f i sz h hpop
    show (∀ x, _ → execScmac ty d a b m mark s = _) ∧ (∀ k x, _ → _ → _ → _ → ∃ y, execScmac ty d a b m mark s = _)
    refine ⟨fun x hx => ?_, fun k x hcol hk hbit hx => ?_⟩
    · have hx' : s.columnFault t (t.readX a).toNat (if ty = .h then 2 else 1) = some x := hx
      refine State.threadOp_stopped (next := t.pc) h hpop ?_ rfl
      simp only [State.blockStart_readX, State.blockStart_pc, State.bodyState_columnFault, hx']
      rfl
    · have hcol' : s.columnFault t (t.readX a).toNat (if ty = .h then 2 else 1) = none := hcol
      refine State.threadOp_faults h hpop ?_ rfl
      simp only [State.blockStart_block, State.bodyState_heldStores, State.bodyState_tcmAtIssue, State.blockStart_vmask,
        State.blockStart_readX, State.blockStart_readV, State.blockStart_putPair, State.blockStart_pc, bitAt_toNat,
        State.bodyState_columnFault, hcol']
      split
      · exact ⟨_, _, rfl⟩
      next hnone =>
        have hk := pickFault_eq_none_iff.mp hnone k (List.mem_range.mpr hk)
        rw [if_pos hbit, hx] at hk
        cases hk

end Sys2Proof.Machine
end

section
/-!
Vector and mask loads and stores as they issue (R67, R92 to R94, R119, R173 to R175).
-/
namespace Sys2Proof.Machine

/-! ## The elements of a vector access (R159, R173) -/

theorem elements_eq (ty : VType) (m : Mask) (addr : Nat → Word) :
    elements ty m addr = (chosen ty m).map fun n => (n, (addr n).toNat) := by
  rw [elements, chosen, ← List.filterMap_eq_map, List.filterMap_filter]
  congr 1
  funext n
  rw [bitAt_toNat]
  rfl

theorem laneLoads_eq (ty : VType) (m : Mask) (addr : Nat → Word) :
    laneLoads ty m addr = ((chosen ty m).map fun n => (2 ^ n, addr n)).map fun x => ⟨x.1, x.2.toNat, ty.size, none, none⟩ := by
  rw [laneLoads, elements_eq, List.map_map, List.map_map]
  rfl

/-- The mask's bits of the lanes are all clear exactly where their number is 0. -/
theorem maskLanes_eq_zero_iff (m : Mask) (n : Nat) : m.toNat % 2 ^ n = 0 ↔ ∀ k, k < n → m.getLsbD k = false := by
  refine ⟨fun h k hk => ?_, fun h => Nat.eq_of_testBit_eq fun k => ?_⟩
  · have hbit := Nat.testBit_mod_two_pow m.toNat n k
    rw [h, Nat.zero_testBit, decide_eq_true hk, Bool.true_and, BitVec.testBit_toNat] at hbit
    exact hbit.symm
  · rw [Nat.testBit_mod_two_pow, BitVec.testBit_toNat, Nat.zero_testBit]
    by_cases hk : k < n
    · simp [h k hk]
    · simp [hk]

/-! ## What a load's accesses come to together (R94, R174) -/

/-- One access to plain memory whose line is good. -/
theorem State.loadAt_good {s : State} {t : Thread} {held : List (Nat × Nat × Nat)} {stale : Bool} {va loc n : Nat}
    (hreg : isReg loc = false) (hbad : s.bad loc n = false) :
    s.loadAt t held stale va loc n = .ok (forwardRead held (s.loadByte t stale) loc n) := by
  simp [State.loadAt, hreg, hbad]

/-- One access to a line whose check value fails, and that the thread's own stores do not cover. -/
theorem State.loadAt_bad {s : State} {t : Thread} {held : List (Nat × Nat × Nat)} {stale : Bool} {va loc n : Nat}
    (hreg : isReg loc = false) (hbad : s.bad loc n = true) (hcover : coveredBy held loc n = false) :
    s.loadAt t held stale va loc n = .error ⟨19, 1, w64 va⟩ := by
  simp [State.loadAt, hreg, hbad, hcover]

/-- Where every access can be read, the load has its results. -/
theorem State.evalLoads_good {s : State} {t : Thread} {held : List (Nat × Nat × Nat)} {stale : Bool} {place : LoadElem → Except Trap Nat}
    {e : Entry} (val : LoadElem → Nat)
    (h : ∀ l ∈ e.loads, ∃ loc, place l = .ok loc ∧ s.loadAt t held stale l.va loc l.size = .ok (val l)) :
    s.evalLoads t held stale place e = Entry.finishLoad { e with loads := e.loads.map fun l => { l with got := some (val l) } } := by
  unfold State.evalLoads
  rw [List.map_congr_left (g := fun l => (l, .ok (val l)))]
  · simp only
    rw [pickFault_eq_none_iff.mpr]
    · simp only [List.map_map]
      rfl
    · intro r hr
      obtain ⟨l, -, rfl⟩ := List.mem_map.mp hr
      rfl
  · intro l hl
    obtain ⟨loc, hplace, hload⟩ := h l hl
    simp only [hplace, hload]

/-- Where an access cannot be read, the load faults. -/
theorem State.evalLoads_faults {s : State} {t : Thread} {held : List (Nat × Nat × Nat)} {stale : Bool}
    {place : LoadElem → Except Trap Nat} {e : Entry} {l : LoadElem} (hl : l ∈ e.loads)
    (h : (∃ y, place l = .error y) ∨ ∃ loc y, place l = .ok loc ∧ s.loadAt t held stale l.va loc l.size = .error y) :
    ∃ x, s.evalLoads t held stale place e = e.fail x := by
  unfold State.evalLoads
  dsimp only
  split
  · exact ⟨_, rfl⟩
  next hnone =>
    have hl := pickFault_eq_none_iff.mp hnone _ (List.mem_map_of_mem hl)
    rcases h with ⟨y, hy⟩ | ⟨loc, y, hplace, hload⟩
    · simp [hy] at hl
    · simp [hplace, hload] at hl

/-! ## A load as it issues (R67, R92 to R94) -/

theorem misaligned_eq_none_iff (va n : Nat) : misaligned va n = none ↔ va % n = 0 := by
  unfold misaligned
  split <;> simp [*]

/-- A misaligned access is found before anything else. -/
theorem pickFault_misaligned {α : Type} {va size : α → Nat} {l : List α} (h : ∃ x ∈ l, va x % size x ≠ 0) :
    ∃ y, y.cause = 17 ∧ pickFault (l.filterMap fun x => misaligned (va x) (size x)) = some y := by
  obtain ⟨x, hx, hodd⟩ := h
  match hp : pickFault (l.filterMap fun x => misaligned (va x) (size x)) with
  | none => exact absurd ((misaligned_eq_none_iff _ _).mp (pickFault_eq_none_iff.mp hp x hx)) hodd
  | some y =>
    obtain ⟨z, -, hz⟩ := List.mem_filterMap.mp (mem_of_pickFault hp)
    unfold misaligned at hz
    split at hz
    · cases hz
    · exact ⟨y, by rw [← Option.some.inj hz], rfl⟩

theorem pickFault_aligned {α : Type} {va size : α → Nat} {l : List α} (h : ∀ x ∈ l, va x % size x = 0) :
    pickFault (l.filterMap fun x => misaligned (va x) (size x)) = none :=
  pickFault_eq_none_iff.mpr fun x hx => (misaligned_eq_none_iff _ _).mpr (h x hx)

section
variable {s : State} {tid : Nat} {t : Thread} {e : Entry}

theorem State.issueLoads_misaligned (h : ∃ l ∈ e.loads, l.va % l.size ≠ 0) : ∃ x, x.cause = 17 ∧ s.issueLoads tid t e = e.fail x := by
  obtain ⟨x, hcause, hx⟩ := pickFault_misaligned h
  exact ⟨x, hcause, by simp only [State.issueLoads, hx]⟩

variable (ha : ∀ l ∈ e.loads, l.va % l.size = 0)
include ha

theorem State.issueLoads_behind (hb : (t.block.any fun b => b.deferred && !walkApplied b.ins) = true) :
    s.issueLoads tid t e = { e with deferred := true } := by
  simp only [State.issueLoads, pickFault_aligned ha, hb, if_true]

variable (hb : (t.block.any fun b => b.deferred && !walkApplied b.ins) = false)
include hb

/-- A load that nothing defers is sent, or answered at once. -/
theorem State.issueLoads_ahead :
    s.issueLoads tid t e =
      if (e.loads.any fun l => (s.ownWindow t.accessor l.va l.size).isNone) || s.loadAhead t t.block e || s.det t.ctx then s.sendLoad t e
      else s.evalLoads t (s.heldStores tid t t.block) false
        (fun l => (s.ownWindow t.accessor l.va l.size).getD (.error ⟨18, 1, w64 l.va⟩)) e := by
  have hall : (e.loads.all fun l => (s.ownWindow t.accessor l.va l.size).isSome) =
      !(e.loads.any fun l => (s.ownWindow t.accessor l.va l.size).isNone) := by
    rw [List.not_any_eq_all_not]
    congr 1
    funext l
    cases s.ownWindow t.accessor l.va l.size <;> rfl
  simp only [State.issueLoads, pickFault_aligned ha, hb, Bool.false_eq_true, if_false, hall]
  cases e.loads.any fun l => (s.ownWindow t.accessor l.va l.size).isNone
  all_goals cases s.loadAhead t t.block e
  all_goals cases s.det t.ctx
  all_goals rfl

end

@[simp] theorem Entry.finishLoad_st (e : Entry) : e.finishLoad.st = .done := by
  unfold Entry.finishLoad
  dsimp only
  split <;> rfl

theorem State.issueLoads_blockStart (s0 s : State) (tid : Nat) (t : Thread) (e : Entry) :
    s0.issueLoads tid (s.blockStart t) e = s0.issueLoads tid t e := by
  obtain ⟨l, hl⟩ := s.blockStart_eq t
  rw [hl]
  rfl

/-! ## The instructions -/

/-- A word that issues a load: its meaning makes the accesses of an entry, which its thread's registers give. -/
structure IssuesLoads (s : State) (t : Thread) (i : Instr) (f : Form) (e : Entry) : Prop where
  plain : f.deferred = false
  done  : e.st = .done
  whole : e.pops = []
  means : ∃ fill : Thread → Entry → Entry, (∀ l, fill { t with snap := l } (s.entry t i) = e) ∧
    exec i s = s.threadOp i f (fun s tid t e => (s.issueLoads tid t (fill t e), t.pc + 4)) State.walkLoads

/-- A vector load is the load operation of its accesses. -/
theorem VectorLoad.exec_eq {t : Thread} {i : Instr} {ty : VType} {d : Reg} {xs vs : List Reg} {mark : Bool} {accs : List (Nat × Word)}
    (h : VectorLoad t i ty d xs vs mark accs) (s : State) :
    ∃ g : Thread → List LoadElem, (∀ l, g { t with snap := l } = accs.map fun x => ⟨x.1, x.2.toNat, ty.size, none, none⟩) ∧
      exec i s = s.vloadOp i ty d xs vs mark g := by
  cases h with
  | vld ty d a m mark => exact ⟨_, fun _ => laneLoads_eq _ _ _, rfl⟩
  | vlds ty d a b m mark => exact ⟨_, fun _ => laneLoads_eq _ _ _, rfl⟩
  | vldx ty d a k m mark => exact ⟨_, fun _ => laneLoads_eq _ _ _, rfl⟩
  | vldb ty d a m mark some_ =>
    obtain ⟨n, hn, hbit⟩ := some_
    refine ⟨_, fun l => if_neg fun h0 => ?_, rfl⟩
    exact Bool.false_ne_true (((maskLanes_eq_zero_iff (t.mr m.toNat) ty.lanes).mp h0 n hn).symm.trans hbit)
  | vldbNone ty d a m mark none_ => exact ⟨_, fun l => if_pos ((maskLanes_eq_zero_iff _ _).mpr none_), rfl⟩

theorem VectorLoad.issuesLoads {s : State} {t : Thread} {i : Instr} {ty : VType} {d : Reg} {xs vs : List Reg} {mark : Bool}
    {accs : List (Nat × Word)} (h : VectorLoad t i ty d xs vs mark accs) :
    IssuesLoads s t i (vectorForm xs [] vs [d] mark) { s.entry t i with
      loads := accs.map fun x => ⟨x.1, x.2.toNat, ty.size, none, none⟩
      post := match t.bound d with
        | some (j, x) => if x.append then .app j (widthOf ty) else .v d (widthOf ty)
        | none => .v d (widthOf ty)
      vops := [t.vr d] } := by
  obtain ⟨g, hg, hexec⟩ := h.exec_eq s
  exact ⟨rfl, rfl, rfl, _, fun l => by rw [← hg l]; rfl, hexec⟩

theorem execMldm_issuesLoads (s : State) (t : Thread) (d : BitVec 3) (a : Reg) (mark : Bool) :
    IssuesLoads s t (.mldm d a mark) (vectorForm [a] [] [] [] mark)
      { s.entry t (.mldm d a mark) with loads := [⟨1, (t.readX a).toNat, 4, none, none⟩], post := .m d } :=
  ⟨rfl, rfl, rfl, _, fun _ => rfl, rfl⟩

section
variable {s : State} {tid : Nat} {t : Thread} {i : Instr} {f : Form} {e : Entry}

/-- What a load makes of its entry joins the block, unless it is a fault. -/
theorem IssuesLoads.joined (hl : IssuesLoads s t i f e) (h : Issuing s tid t i f) {e' : Entry}
    (he : (s.bodyState t f).issueLoads tid t e = e') (hs : e'.st = .done ∨ e'.st = .sent) :
    exec i s = .next (s.joined tid t f e' (t.pc + 4)) := by
  obtain ⟨hf, -, -, fill, hfill, hexec⟩ := hl
  obtain ⟨l, hsnap⟩ := s.blockStart_eq t
  rw [hexec]
  refine State.threadOp_joined h hf ?_ hs
  rw [State.issueLoads_blockStart, State.blockStart_pc, hsnap, hfill, he]

theorem IssuesLoads.stopped (hl : IssuesLoads s t i f e) (h : Issuing s tid t i f) (hv : t.popList f.vreads = []) {x : Trap}
    (he : (s.bodyState t f).issueLoads tid t e = e.fail x) : exec i s = .next (s.stopped tid t e x) := by
  obtain ⟨-, -, hp, fill, hfill, hexec⟩ := hl
  obtain ⟨l, hsnap⟩ := s.blockStart_eq t
  rw [hexec]
  refine State.threadOp_stopped (next := t.pc + 4) h hv ?_ hp
  rw [State.issueLoads_blockStart, State.blockStart_pc, hsnap, hfill, he]

end
/-! ## A store as it issues (R92, R93, R174) -/

section
variable {s : State} {t : Thread} {e : Entry}

theorem State.issueStores_misaligned (h : ∃ x ∈ e.stores, x.va % x.size ≠ 0) : ∃ y, y.cause = 17 ∧ s.issueStores t e = e.fail y := by
  obtain ⟨y, hcause, hy⟩ := pickFault_misaligned h
  exact ⟨y, hcause, by simp only [State.issueStores, hy]⟩

variable (ha : ∀ x ∈ e.stores, x.va % x.size = 0)
include ha

/-- A fault of the core's own windows is taken at issue where every access lies in them and none in the scratchpad. -/
theorem State.issueStores_faults (hown : ∀ x ∈ e.stores, (s.ownWindow t.accessor x.va x.size).isSome = true)
    (hx : ∃ x ∈ e.stores, ∃ y, s.ownWindow t.accessor x.va x.size = some (.error y))
    (hspad : ∀ x ∈ e.stores, ∀ loc, s.ownWindow t.accessor x.va x.size = some (.ok loc) → isSpad loc = false) :
    ∃ y, s.issueStores t e = e.fail y := by
  have hall : (e.stores.all fun x => (s.ownWindow t.accessor x.va x.size).isSome) = true := List.all_eq_true.mpr hown
  have hnone : e.stores.any (s.mayBeOwned t) = false := by
    refine List.any_eq_false.mpr fun x hx => ?_
    unfold State.mayBeOwned
    split
    next loc hloc => rw [hspad x hx loc hloc]; exact Bool.false_ne_true
    · exact Bool.false_ne_true
  simp only [State.issueStores, pickFault_aligned ha, hall, hnone, Bool.not_true, Bool.or_self, Bool.false_eq_true, if_false]
  split
  · exact ⟨_, rfl⟩
  next hfree =>
    obtain ⟨x, hx, y, hy⟩ := hx
    have hx := pickFault_eq_none_iff.mp hfree x hx
    simp [hy] at hx

/-- Where an access lies beyond the core or in the scratchpad, or none faults, the walk finds what there is to find. -/
theorem State.issueStores_held
    (h : (∃ x ∈ e.stores, s.ownWindow t.accessor x.va x.size = none ∨
        ∃ loc, s.ownWindow t.accessor x.va x.size = some (.ok loc) ∧ isSpad loc = true) ∨
      ∀ x ∈ e.stores, ∀ y, s.ownWindow t.accessor x.va x.size ≠ some (.error y)) : s.issueStores t e = e := by
  simp only [State.issueStores, pickFault_aligned ha]
  split
  · rfl
  next hin =>
    have hfree : ∀ x ∈ e.stores, ∀ y, s.ownWindow t.accessor x.va x.size ≠ some (.error y) := by
      refine h.resolve_left fun ⟨x, hx, hout⟩ => hin ?_
      rw [Bool.or_eq_true]
      rcases hout with hout | ⟨loc, hloc, hspad⟩
      · refine .inl ?_
        rw [Bool.not_eq_true', List.all_eq_false]
        exact ⟨x, hx, by rw [hout]; exact Bool.false_ne_true⟩
      · exact .inr (List.any_eq_true.mpr ⟨x, hx, by simp only [State.mayBeOwned, hloc, hspad]⟩)
    rw [pickFault_eq_none_iff.mpr]
    intro x hx
    split
    next y hy => exact absurd hy (hfree x hx y)
    · rfl

end

theorem State.issueStores_blockStart (s0 s : State) (t : Thread) (e : Entry) : s0.issueStores (s.blockStart t) e = s0.issueStores t e := by
  obtain ⟨l, hl⟩ := s.blockStart_eq t
  rw [hl]
  rfl

/-- A word that issues a store: its meaning holds the accesses of an entry, which its thread's registers give. -/
structure IssuesStores (s : State) (t : Thread) (i : Instr) (f : Form) (e : Entry) : Prop where
  plain : f.deferred = false
  done  : e.st = .done
  whole : e.pops = []
  means : ∃ fill : Thread → Entry → Entry, (∀ l, fill { t with snap := l } (s.entry t i) = e) ∧
    exec i s = s.threadOp i f (fun s _ t e => (s.issueStores t (fill t e), t.pc + 4)) State.walkStores

theorem VectorStore.issuesStores {s : State} {t : Thread} {i : Instr} {ty : VType} {v : Reg} {xs ks : List Reg} {m : BitVec 2}
    {mark : Bool} {addr : Nat → Word} (h : VectorStore t i ty v xs ks m mark addr) :
    IssuesStores s t i (vectorForm xs [] (v :: ks) [] mark) { s.entry t i with
      stores := (chosen ty (t.mr m.toNat)).map fun n => ⟨(addr n).toNat, ty.size, laneOf (t.readV v) (widthOf ty) n, .write⟩ } := by
  have hlist (g : Nat → Word) : (elements ty (t.mr m.toNat) g).map
      (fun x => (⟨x.2, ty.size, laneOf (t.readV v) (widthOf ty) x.1, .write⟩ : StoreElem)) =
      (chosen ty (t.mr m.toNat)).map fun n => ⟨(g n).toNat, ty.size, laneOf (t.readV v) (widthOf ty) n, .write⟩ := by
    rw [elements_eq, List.map_map]
    rfl
  cases h
  all_goals
    rw [← hlist]
    exact ⟨rfl, rfl, rfl, _, fun _ => rfl, rfl⟩

theorem execMstm_issuesStores (s : State) (t : Thread) (ms : BitVec 3) (a : Reg) (mark : Bool) :
    IssuesStores s t (.mstm ms a mark) (vectorForm [a] [] [] [] mark)
      { s.entry t (.mstm ms a mark) with stores := [⟨(t.readX a).toNat, 4, (t.mr ms.toNat).toNat, .write⟩] } :=
  ⟨rfl, rfl, rfl, _, fun _ => rfl, rfl⟩

section
variable {s : State} {tid : Nat} {t : Thread} {i : Instr} {f : Form} {e : Entry}

theorem IssuesStores.joined (hl : IssuesStores s t i f e) (h : Issuing s tid t i f) (he : (s.bodyState t f).issueStores t e = e) :
    exec i s = .next (s.joined tid t f e (t.pc + 4)) := by
  obtain ⟨hf, hs, -, fill, hfill, hexec⟩ := hl
  obtain ⟨l, hsnap⟩ := s.blockStart_eq t
  rw [hexec]
  refine State.threadOp_joined h hf ?_ (.inl hs)
  rw [State.issueStores_blockStart, State.blockStart_pc, hsnap, hfill, he]

theorem IssuesStores.stopped (hl : IssuesStores s t i f e) (h : Issuing s tid t i f) (hv : t.popList f.vreads = []) {x : Trap}
    (he : (s.bodyState t f).issueStores t e = e.fail x) : exec i s = .next (s.stopped tid t e x) := by
  obtain ⟨-, -, hp, fill, hfill, hexec⟩ := hl
  obtain ⟨l, hsnap⟩ := s.blockStart_eq t
  rw [hexec]
  refine State.threadOp_stopped (next := t.pc + 4) h hv ?_ hp
  rw [State.issueStores_blockStart, State.blockStart_pc, hsnap, hfill, he]

end

/-- Settles O26: each word issues the accesses of its entry, which a load sends, defers or answers and a store holds. -/
theorem vectorMemoryIssue : Obligations.VectorMemoryIssue := by
  refine ⟨?loads, ?stores⟩
  case loads =>
    intro s tid t mark i xs vs vd e f hform h s0 own behind sends
    have hl : IssuesLoads s t i f e := by
      rcases hform with ⟨ty, d, accs, hi, rfl, rfl⟩ | ⟨d, a, rfl, rfl, rfl, rfl, rfl⟩
      · exact hi.issuesLoads
      · exact execMldm_issuesLoads s t d a mark
    refine ⟨fun hodd hpop => ?_, fun ha => ⟨fun hb => ?_, fun hb hs => ?_, fun loc hb hs hloc => ?_, fun hb hs hpop hx => ?_⟩⟩
    · obtain ⟨x, hcause, hx⟩ := State.issueLoads_misaligned hodd
      exact ⟨x, hcause, hl.stopped h hpop hx⟩
    · exact hl.joined h (State.issueLoads_behind ha hb) (.inl hl.done)
    · exact hl.joined h ((State.issueLoads_ahead ha hb).trans (if_pos hs)) (.inr rfl)
    · have hnow := (State.issueLoads_ahead (s := s0) (tid := tid) ha hb).trans (if_neg (Bool.eq_false_iff.mp hs))
      refine hl.joined h (hnow.trans (State.evalLoads_good _ fun l hmem => ?_)) (.inl (Entry.finishLoad_st _))
      obtain ⟨hown, hreg, hbad⟩ := hloc l hmem
      refine ⟨loc l, congrArg (Option.getD · _) hown, ?_⟩
      rw [s.bodyState_loadAt f t t t _ hreg, State.loadAt_good hreg hbad]
    · have hnow := (State.issueLoads_ahead (s := s0) (tid := tid) ha hb).trans (if_neg (Bool.eq_false_iff.mp hs))
      obtain ⟨l, hmem, hbad⟩ := hx
      obtain ⟨x, hx⟩ : ∃ x, s0.issueLoads tid t e = e.fail x := by
        rw [hnow]
        refine State.evalLoads_faults hmem ?_
        rcases hbad with ⟨y, hy⟩ | ⟨loc, hown, hreg, hbad, hcover⟩
        · exact .inl ⟨y, congrArg (Option.getD · _) hy⟩
        · exact .inr ⟨loc, _, congrArg (Option.getD · _) hown,
            (s.bodyState_loadAt f t t t _ hreg).trans (State.loadAt_bad hreg hbad hcover)⟩
      exact ⟨x, hl.stopped h hpop hx⟩
  case stores =>
    intro s tid t mark i xs vs stores hform h own
    have hst : IssuesStores s t i (vectorForm xs [] vs [] mark) { s.entry t i with stores := stores } := by
      rcases hform with ⟨ty, v, ks, m, addr, hi, rfl, rfl⟩ | ⟨ms, a, rfl, rfl, rfl, rfl⟩
      · exact hi.issuesStores
      · exact execMstm_issuesStores s t ms a mark
    refine ⟨fun hodd hpop => ?_, fun ha hown hx hspad hpop => ?_, fun ha hheld => ?_⟩
    · obtain ⟨y, hcause, hy⟩ := State.issueStores_misaligned (e := { s.entry t i with stores := stores }) hodd
      exact ⟨y, hcause, hst.stopped h hpop hy⟩
    · obtain ⟨y, hy⟩ := State.issueStores_faults (e := { s.entry t i with stores := stores }) ha hown hx hspad
      exact ⟨y, hst.stopped h hpop hy⟩
    · exact hst.joined h (State.issueStores_held ha hheld)

end Sys2Proof.Machine
end

section
/-!
Binding, unbinding and reading stream registers, as the walk performs them (R176, R177, R179, R181).
-/
namespace Sys2Proof.Machine

/-! ## What a plain entry commits (R68) -/

theorem vflagsAfter_zero (old : Word) : vflagsAfter old 0 = old := by simp [vflagsAfter]

/-- An entry that holds no write leaves its block and counts towards logical time. -/
theorem Thread.commit_plain {e : Entry} (h : e.Plain) (ac : Nat) (t : Thread) :
    t.commit ac (e.performed []) = { t with block := t.block.tail, logical := t.retired } := by
  obtain ⟨-, hv, hm, hflags, -, hpops, happ⟩ := h
  simp [Thread.commit, Entry.performed, hv, hm, hflags, hpops, happ, vflagsAfter_zero]

/-- What a plain instruction that writes no x register changes of its thread, applied with the commit. -/
theorem State.finish_updThr_plain {s : State} {tid : Nat} {t : Thread} {e : Entry} {r : List Entry} (f : Thread → Thread)
    (h : e.Plain) (ht : s.thr tid = some t) (hb : (f t).block = e :: r) :
    (s.updThr tid f).finish tid e [] = s.setThr tid { f t with block := r, logical := (f t).retired } := by
  rw [State.updThr_of_thr s tid f t ht, State.finish_of _ tid _ e r [] (State.thr_setThr_self ..) hb h.csr h.app,
    Thread.commit_plain h, State.setThr_setThr]
  rfl

/-! ## A thread with no earlier store (R119, R126, R180) -/

section
variable {s : State} {tid : Nat} (h : s.Settled tid)
include h

theorem State.Settled.heldStores (t : Thread) : s.heldStores tid t [] = [] := by
  refine List.append_eq_nil_iff.mpr ⟨List.filterMap_eq_nil_iff.mpr fun p hp => ?_, rfl⟩
  simp [h p hp]

theorem State.Settled.release : s.release tid = s := by
  have hnone : (s.storeBuf.filter fun p => p.tid == tid) = [] :=
    List.filter_eq_nil_iff.mpr fun p hp => by simpa using h p hp
  simp [State.release, hnone]

theorem State.Settled.canFlush : s.canFlush tid = true :=
  List.all_eq_true.mpr fun p hp => by simp [h p hp]

/-- With nothing to wait for a release goes on at once. -/
theorem State.Settled.releasing {t : Thread} (happ : t.appends = []) (hlost : s.lostStore tid = false) (k : State → State) :
    s.releasing tid t k = k s := by
  simp [State.releasing, State.canRelease, h.canFlush, happ, hlost, h.release]

end

/-- Without held stores a read finds what memory holds. -/
theorem forwardRead_nil (s : State) (loc n : Nat) : forwardRead [] (fun a => (s.byteAt a).toNat) loc n = s.read loc n := by
  induction n generalizing loc with
  | zero => rfl
  | succ n ih => rw [forwardRead, ih]; rfl

/-- A thread without appends has none in any of its streams. -/
theorem Thread.buf_of_appends {t : Thread} {j : Nat} {x : Stream} (h : t.appends = []) (hj : j < 8)
    (hx : t.streams.getD j none = some x) : x.buf = [] := by
  have hbuf := List.flatMap_eq_nil_iff.mp h j (List.mem_range.mpr hj)
  rw [hx] at hbuf
  exact List.map_eq_nil_iff.mp hbuf

/-! ## The engine's contexts (R181, R351) -/

@[simp] theorem State.wakeStream_thr (s : State) (v tid : Nat) : (s.wakeStream v).thr tid = s.thr tid := by
  unfold State.wakeStream
  split <;> rfl

@[simp] theorem sameMemory_wakeStream (s : State) (v : Nat) : SameMemory s (s.wakeStream v) := by
  unfold State.wakeStream
  split
  · exact ⟨rfl, rfl⟩
  · exact SameMemory.refl s

@[simp] theorem State.touchStreams_thr (s : State) (t : Thread) (tid : Nat) : (s.touchStreams t).thr tid = s.thr tid := rfl

@[simp] theorem sameMemory_touchStreams (s : State) (t : Thread) : SameMemory s (s.touchStreams t) := ⟨rfl, rfl⟩

/-! ## The byte of sbstat and the register (R176, R182) -/

theorem fieldOf_setField_zero (x : Word) (lo w : Nat) : fieldOf (setField x lo w 0) lo w = 0 := by
  have hnat : (setField x lo w 0).toNat = x.toNat - 2 ^ lo * fieldOf x lo w := by
    rw [setField, BitVec.toNat_ofNat, Nat.zero_mod, Nat.zero_mul, Nat.add_zero, Nat.mul_comm,
      Nat.mod_eq_of_lt (Nat.lt_of_le_of_lt (Nat.sub_le _ _) x.isLt)]
  rw [fieldOf, bitsOf, hnat, Nat.sub_mul_div]
  exact Nat.mod_eq_zero_of_dvd (Nat.dvd_sub_mod _)

theorem Thread.setStream_self (t : Thread) {j : Nat} (h : j < t.streams.length) (x : Stream) :
    (t.setStream j x).streams.getD j none = some x := by
  simp [Thread.setStream, List.getD_eq_getElem?_getD, h]

/-- The register of a stream ordinary again, and reading 0 (R176). -/
def Thread.unbind (t : Thread) (j : Nat) : Thread :=
  { t.clearSb j with streams := t.streams.set j none, v := t.v.set (24 + j) 0 }

theorem Thread.unbind_self (t : Thread) (j : Nat) : (t.unbind j).streams.getD j none = none := by
  by_cases h : j < t.streams.length
  · simp [Thread.unbind, List.getD_eq_getElem?_getD, h]
  · simp [Thread.unbind, List.getD_eq_getElem?_getD, Nat.not_lt.mp h]

/-! ## How the walk performs each -/

section
variable {s : State} {tid : Nat} {t : Thread} {e : Entry} {n : BitVec 3} {mark : Bool}

/-- SBIND of a good descriptor with nothing to wait for: it parks where the engine has no room for its context, and else binds. -/
theorem exec_sbind {ty : VType} {a : Reg} {loc : Nat} (hw : Walking s tid t (.sbind ty n a mark) e) (hset : s.Settled tid)
    (hlost : s.lostStore tid = false) (happ : t.appends = []) (hloc : s.descriptorLoc t (e.op 0).toNat = .ok loc)
    (hgood : s.bad loc 64 = false) (hdesc : badDescriptor (fun k => w64 (s.read (loc + 8 * k) 8)) = false) :
    exec (.sbind ty n a mark) s = .next
      (if !s.streamsIn t && !s.residentRoom t.vcore then s.parkStream tid t n.toNat (w64 (s.read (loc + 8 * 6) 8))
      else (((s.wakeStream t.vcore).touchStreams t).updThr tid fun t =>
        (t.clearSb n.toNat).setStream n.toNat (streamOf ty fun k => w64 (s.read (loc + 8 * k) 8))).finish tid e []) := by
  show execSbind ty n a mark s = _
  unfold execSbind
  rw [State.threadOp_walking _ _ _ _ _ _ _ _ hw]
  simp only [hloc, hgood, hset.heldStores, forwardRead_nil, hdesc, hset.releasing happ hlost, Bool.false_eq_true, if_false]
  match hx : t.streams.getD n.toNat none with
  | none => simp only [Bool.false_eq_true, if_false]
  | some x => simp only [Thread.buf_of_appends happ n.isLt hx, List.isEmpty_nil, Bool.not_true, Bool.false_eq_true, if_false]

/-- SUNB, by what its register is. -/
theorem exec_sunb (hw : Walking s tid t (.sunb n mark) e) :
    (t.streams.getD n.toNat none = none →
      exec (.sunb n mark) s = .next ((s.updThr tid fun t => t.clearSb n.toNat).finish tid e [])) ∧
    (∀ x, t.streams.getD n.toNat none = some x → x.buf ≠ [] → exec (.sunb n mark) s = .next s) ∧
    (∀ x, t.streams.getD n.toNat none = some x → x.buf = [] →
      exec (.sunb n mark) s = .next ((s.updThr tid fun t => t.unbind n.toNat).finish tid e [])) := by
  have hexec : exec (.sunb n mark) s = execSunb n mark s := rfl
  simp only [hexec, execSunb, State.threadOp_walking _ _ _ _ _ _ _ _ hw]
  refine ⟨fun hx => ?_, fun x hx hbuf => ?_, fun x hx hbuf => ?_⟩
  · simp only [hx]
  · simp only [hx, List.isEmpty_eq_false_iff.mpr hbuf, Bool.not_false, if_true]
  · simp only [hx, hbuf, List.isEmpty_nil, Bool.not_true, Bool.false_eq_true, if_false]
    rfl

/-- SSTAT, by what its register is. -/
theorem exec_sstat {rd : Reg} (hw : Walking s tid t (.sstat rd n mark) e) :
    (t.streams.getD n.toNat none = none → exec (.sstat rd n mark) s = .next (s.finishX tid e rd 0)) ∧
    (∀ x, t.streams.getD n.toNat none = some x → exec (.sstat rd n mark) s =
      .next (s.finishX tid e rd (w64 (min x.pos 0xFFFFFFFF + fieldOf (s.sbstatOf t) (8 * n.toNat) 8 * 2 ^ 32)))) := by
  have hexec : exec (.sstat rd n mark) s = execSstat rd n mark s := rfl
  simp only [hexec, execSstat, State.threadOp_walking _ _ _ _ _ _ _ _ hw]
  exact ⟨fun hx => by simp only [hx], fun x hx => by simp only [hx]⟩

end

/-- Settles O44: each of the three is performed by the walk, and what it commits is the change of its stream register alone. -/
theorem streamsBind : Obligations.StreamsBind := by
  intro s tid t e ty n rd a mark j
  refine ⟨?_, fun x hw hplain hx hbuf => ?_, fun hw => ?_, exec_sstat⟩
  · intro loc hw hplain hset hlost happ hlen hloc hgood d hdesc
    have hexec := exec_sbind hw hset hlost happ hloc hgood hdesc
    obtain ⟨r, hblock, -, hrun, -⟩ := hw.block
    refine ⟨fun hout hfull => ?_, fun hin => ?_⟩
    · rw [hout, hfull] at hexec
      exact ⟨_, _, _, hexec, State.thr_setThr_self .., rfl, rfl, rfl, rfl, by simp [hrun], sameMemory_setThr ..⟩
    · have hroom : ¬(!s.streamsIn t && !s.residentRoom t.vcore) = true := by
        rcases hin with hin | hin <;> simp [hin]
      have hknown : ((s.wakeStream t.vcore).touchStreams t).thr tid = some t := (s.wakeStream_thr _ tid).trans hw.known
      rw [if_neg hroom, State.finish_updThr_plain _ hplain hknown (by exact hblock)] at hexec
      exact ⟨_, _, _, hexec, State.thr_setThr_self .., (t.clearSb j).setStream_self (hlen ▸ n.isLt) _,
        rfl, rfl, rfl, rfl, rfl, rfl, rfl, rfl, rfl, rfl, rfl, rfl, rfl, rfl, rfl, fieldOf_setField_zero _ _ _, rfl, rfl, rfl,
        (sameMemory_wakeStream s _).trans ((sameMemory_touchStreams _ t).trans (sameMemory_setThr ..))⟩
  · have hexec := (exec_sunb hw).2.2 x hx hbuf
    obtain ⟨r, hblock, -⟩ := hw.block
    rw [State.finish_updThr_plain _ hplain hw.known (by exact hblock)] at hexec
    exact ⟨_, _, hexec, State.thr_setThr_self .., t.unbind_self j, rfl, fieldOf_setField_zero _ _ _, rfl, sameMemory_setThr ..⟩
  · exact ⟨(exec_sunb hw).1, (exec_sunb hw).2.1⟩

end Sys2Proof.Machine
end

section
/-!
The stream engine: a fetched vector, a pop at its E, and contexts that leave and enter (R178 to R182).
-/
namespace Sys2Proof.Machine

/-! ## A thread that goes on (R179) -/

theorem Thread.leaveStream_eq (t : Thread) (j : Nat) : ∃ r w, t.leaveStream j = { t with run := r, wait := w } := by
  unfold Thread.leaveStream
  repeat' split
  all_goals exact ⟨_, _, rfl⟩

/-- A thread parked on a pop issues again. -/
theorem Thread.leaveStream_pop {t : Thread} {j : Nat} {w : PWait} (hrun : t.run = .wait) (hwait : t.wait = some w)
    (hkind : w.kind = .stream j) (hwalk : t.walking = false) : t.leaveStream j = { t with run := .ready, wait := none } := by
  simp [Thread.leaveStream, hrun, hwait, hkind, hwalk]

/-- A stream register that a thread has lies in its list. -/
theorem Thread.lt_of_stream {t : Thread} {j : Nat} {x : Stream} (h : t.streams.getD j none = some x) : j < t.streams.length := by
  refine Nat.lt_of_not_le fun hge => ?_
  rw [List.getD_eq_getElem?_getD, List.getElem?_eq_none hge] at h
  cases h

/-! ## A fetch (R177, R178, R180) -/

theorem lanes_fit (ty : VType) : widthOf ty * ty.lanes ≤ 256 := by cases ty <;> decide

/-- The number a read of the engine gives; a fault gives 0. -/
def readValue (r : Except Trap (Nat × Nat)) : Nat :=
  match r with
  | .ok p => p.2
  | .error _ => 0

/-- The vector of a fetch whose elements can all be read. -/
def Stream.fetched (x : Stream) (rs : List (Except Trap (Nat × Nat))) : StreamVec :=
  ⟨x.fetchPos, lanesVec (widthOf x.ty) x.ty.lanes fun i => (rs.map readValue).getD i 0, none, false⟩

theorem Stream.laneOf_fetched (x : Stream) {rs : List (Except Trap (Nat × Nat))} {k loc val : Nat}
    (hr : rs[k]? = some (.ok (loc, val))) (hk : k < x.ty.lanes) (hval : val < 2 ^ widthOf x.ty) :
    laneOf (x.fetched rs).vec (widthOf x.ty) k = val := by
  have hget : (rs.map readValue).getD k 0 = val := by
    rw [List.getD_eq_getElem?_getD, List.getElem?_map, hr]
    rfl
  rw [Stream.fetched, laneOf_lanesVec _ (lanes_fit x.ty) hk, hget, Nat.mod_eq_of_lt hval]

section
variable {s : State} {v sl j tid : Nat} {t : Thread} {x : Stream} (hslot : s.inSlot v sl = some (tid, t))
include hslot

/-- The engine fetches the next vector of a read stream that it may fetch for, where all its elements can be read. -/
theorem exec_streamDataReady (hx : t.streams.getD j none = some x) (hin : s.streamsIn t = true) (hbinds : t.binds j = false)
    (hread : x.append = false) (hmore : x.fetchPos < x.total) (hlate : t.lateOn j s.pt = false) (hmay : s.mayFetch t j = true)
    (hok : ∀ r ∈ s.streamVec t x x.fetchPos, ∃ p, r = .ok p ∧ s.noDevice p.1 = false) :
    exec (.streamDataReady v sl j) s = .next ((s.wakeStream v).setThr tid
      ((t.setStream j { x with ready := x.ready ++ [x.fetched (s.streamVec t x x.fetchPos)] }).leaveStream j)) := by
  show execStreamDataReady v sl j s = _
  simp only [execStreamDataReady, hslot, hx, hin, hbinds, hread, hlate, hmay, Nat.not_le.mpr hmore, Bool.false_eq_true, Bool.not_true,
    Bool.or_self, if_false]
  rw [pickFault_eq_none_iff.mpr, List.filterMap_eq_nil_iff.mpr]
  · rfl
  · intro r hr
    obtain ⟨p, rfl, hdev⟩ := hok r hr
    simp only [hdev, Bool.false_eq_true, if_false]
  · intro r hr
    obtain ⟨p, rfl, -⟩ := hok r hr
    rfl

/-- At E a pop finds a vector of POISON. -/
theorem exec_streamDeadline {w : PWait} (hx : t.streams.getD j none = some x) (hrun : t.run = .wait) (hwalk : t.walking = false)
    (hwait : t.wait = some w) (hkind : w.kind = .stream j) (hlate : w.deadline < s.pt) :
    exec (.streamDeadline v sl) s = .next (s.setThr tid (((t.setStream j { x with
      ready := ⟨x.cur, poisonVec x.ty, none, true⟩ :: x.ready.filter fun z => z.pos != x.cur }).leaveStream j).engineSb j 4 s.ac)) := by
  have hbinds : t.binds j = false := by simp [Thread.binds, hwalk]
  show execStreamDeadline v sl s = _
  simp only [execStreamDeadline, hslot, hrun, hwait, hkind, hx, hbinds, hwalk, Nat.not_le.mpr hlate, decide_false, Bool.or_self,
    Bool.false_eq_true, if_false]

end

/-! ## Contexts (R181) -/

theorem State.vc_updVc_self (s : State) (v : Nat) (f : VCore → VCore) : (s.updVc v f).vc v = f (s.vc v) := mapGet_mapSet_self ..

theorem State.drainStreams_resident {s : State} {tid : Nat} {t : Thread} (ht : s.thr tid = some t) :
    t.slot ∉ ((s.drainStreams tid).vc t.vcore).resident := by
  simp [State.drainStreams, ht, State.vc_updVc_self]

theorem sameMemory_drainStreams (s : State) (tid : Nat) : SameMemory s (s.drainStreams tid) := by
  unfold State.drainStreams
  split
  · exact ⟨rfl, rfl⟩
  · exact SameMemory.refl s

theorem State.touchStreams_resident (s : State) (t : Thread) : t.slot ∈ ((s.touchStreams t).vc t.vcore).resident := by
  simp [State.touchStreams, State.vc_updVc_self]

/-- Settles O52: a fetch, a pop at its E, and a context that leaves or enters, each by the one branch of its event. -/
theorem streamsMove : Obligations.StreamsMove := by
  intro s v sl j tid t x hslot ht hx
  have hj := Thread.lt_of_stream hx
  refine ⟨fun hin hbinds hread hmore hlate hmay hok => ?_, fun w hrun hwalk hwait hkind hlate _ => ?_, fun hshed hplace => ?_,
    fun hnone hneeds hroom hv hsl => ?_⟩
  · have hexec := exec_streamDataReady hslot hx hin hbinds hread hmore hlate hmay hok
    obtain ⟨r, w, hleave⟩ :=
      (t.setStream j { x with ready := x.ready ++ [x.fetched (s.streamVec t x x.fetchPos)] }).leaveStream_eq j
    rw [hleave] at hexec
    exact ⟨_, _, _, _, hexec, State.thr_setThr_self .., t.setStream_self hj _, rfl, rfl, rfl, rfl,
      fun k val loc hr hk hval => x.laneOf_fetched hr hk hval, rfl, rfl, rfl, (sameMemory_wakeStream s v).trans (sameMemory_setThr ..)⟩
  · have hexec := exec_streamDeadline hslot hx hrun hwalk hwait hkind hlate
    rw [Thread.leaveStream_pop (w := w) (by exact hrun) (by exact hwait) hkind (by exact hwalk)] at hexec
    exact ⟨_, _, _, _, hexec, State.thr_setThr_self .., rfl, rfl, t.setStream_self hj _, rfl, rfl, rfl, sameMemory_setThr ..⟩
  · have hv : t.vcore = v := by simp [Thread.vcore, hplace]
    have hsl : t.slot = sl := by simp [Thread.slot, hplace]
    refine ⟨s.drainStreams tid, ?_, hv ▸ hsl ▸ State.drainStreams_resident ht, sameMemory_drainStreams s tid⟩
    show execStreamContextDrain v s = _
    simp only [execStreamContextDrain, hshed]
  · have hfree : s.residentRoom v = true := decide_eq_true hroom
    refine ⟨s.touchStreams t, ?_, hv ▸ hsl ▸ s.touchStreams_resident t, sameMemory_touchStreams s t⟩
    show execStreamContextDrain v s = _
    simp only [execStreamContextDrain, hnone, hneeds, hfree, if_true]

end Sys2Proof.Machine
end

section
/-!
Packets leave their source and go by the ring (R193, R320); what a fold over lanes or destinations leaves.
-/
namespace Sys2Proof.Machine

/-- Handing a packet or its answer to the ring changes the ring alone. -/
theorem State.ringPost_eq (s : State) (pkt src dst cls : Nat) (resp : Bool) :
    ∃ r, s.ringPost pkt src dst cls resp = { s with ring := r } := by
  simp only [State.ringPost, State.ringSend]
  split
  · exact ⟨s.ring, rfl⟩
  · exact ⟨_, rfl⟩

section
variable (s : State) (pkt src dst cls : Nat) (resp : Bool)

@[simp] theorem State.ringPost_threads : (s.ringPost pkt src dst cls resp).threads = s.threads := by
  obtain ⟨r, h⟩ := s.ringPost_eq pkt src dst cls resp
  rw [h]

@[simp] theorem State.ringPost_sdus : (s.ringPost pkt src dst cls resp).sdus = s.sdus := by
  obtain ⟨r, h⟩ := s.ringPost_eq pkt src dst cls resp
  rw [h]

@[simp] theorem State.ringPost_packets : (s.ringPost pkt src dst cls resp).packets = s.packets := by
  obtain ⟨r, h⟩ := s.ringPost_eq pkt src dst cls resp
  rw [h]

@[simp] theorem sameMemory_ringPost : SameMemory s (s.ringPost pkt src dst cls resp) := by
  obtain ⟨r, h⟩ := s.ringPost_eq pkt src dst cls resp
  rw [h]
  exact ⟨rfl, rfl⟩

end

section
variable (s : State) (src dst ctx logical : Nat) (word : Word) (o : Origin)

@[simp] theorem State.sendPacket_threads : (s.sendPacket src dst ctx logical word o).threads = s.threads := by
  simp [State.sendPacket]

@[simp] theorem State.sendPacket_sdus : (s.sendPacket src dst ctx logical word o).sdus = s.sdus := by
  simp [State.sendPacket]

@[simp] theorem State.sendPacket_packets : (s.sendPacket src dst ctx logical word o).packets =
    s.packets ++ [⟨s.nextId, src, dst, ctx, word, o, none, false, s.pt, logical⟩] := by
  simp [State.sendPacket]

theorem sameMemory_sendPacket : SameMemory s (s.sendPacket src dst ctx logical word o) :=
  sameMemory_ringPost ..

end

@[simp] theorem State.sdu_updSdu_self (s : State) (v : Nat) (f : Sdu → Sdu) : (s.updSdu v f).sdu v = f (s.sdu v) :=
  mapGet_mapSet_self ..

theorem State.sdu_congr {s s' : State} (h : s'.sdus = s.sdus) (v : Nat) : s'.sdu v = s.sdu v := congrArg (fun m => mapGet m v Sdu.reset) h

/-! ## Folds -/

/-- What a fold's one step for an element leaves stands at the end, where no other step touches it. -/
theorem foldl_once {α β γ : Type} {p : α → γ} {g : α → β → α} {l : List β} {b : β} {a : α} {P : γ → Prop} (hnd : l.Nodup)
    (hb : b ∈ l) (hkeep : ∀ a c, c ≠ b → p (g a c) = p a) (hstep : ∀ a', p a' = p a → P (p (g a' b))) :
    P (p (l.foldl g a)) := by
  have hrest : ∀ l : List β, b ∉ l → ∀ a, p (l.foldl g a) = p a := fun l hl a =>
    List.foldlRecOn (motive := fun x => p x = p a) l g rfl fun x hx c hc =>
      (hkeep x c (ne_of_mem_of_not_mem hc hl)).trans hx
  obtain ⟨l1, l2, rfl⟩ := List.append_of_mem hb
  obtain ⟨-, hnd2, hdisj⟩ := List.nodup_append.mp hnd
  have h1 : b ∉ l1 := fun h => hdisj b h b List.mem_cons_self rfl
  rw [List.foldl_append, List.foldl_cons, hrest l2 (List.nodup_cons.mp hnd2).1]
  exact hstep _ (hrest l1 h1 a)

/-- What the step of one element establishes and every step keeps holds after the fold. -/
theorem foldl_established {α β : Type} {g : α → β → α} {l : List β} {b : β} {P : α → Prop} (hb : b ∈ l)
    (hstep : ∀ a, P (g a b)) (hkeep : ∀ a c, P a → P (g a c)) (a : α) : P (l.foldl g a) := by
  obtain ⟨l1, l2, rfl⟩ := List.append_of_mem hb
  rw [List.foldl_append, List.foldl_cons]
  exact List.foldlRecOn l2 g (hstep _) fun x hx c _ => hkeep x c hx

end Sys2Proof.Machine
end

section
/-!
SDSTEP: the code of a residual, what a lane leaves of it, and what the whole instruction does (R189 to R192).
-/
namespace Sys2Proof.Machine

/-! ## The code of a residual (R190) -/

/-- The quotient by a positive number rounded to nearest even. -/
def nearestEven (x : Int) (d : Nat) : Int :=
  if 2 * (x % d) < d then x / d else if d < 2 * (x % d) then x / d + 1 else if x / d % 2 = 0 then x / d else x / d + 1

/-- It is a nearest multiple, of two nearest ones the even one. -/
theorem nearestEven_nearest (x : Int) {d : Nat} (hd : 0 < d) :
    2 * (x - nearestEven x d * d).natAbs ≤ d ∧ (2 * (x - nearestEven x d * d).natAbs = d → nearestEven x d % 2 = 0) := by
  have hx := Int.emod_add_mul_ediv x d
  have hpos := Int.emod_nonneg x (b := d) (by omega)
  have hlt := Int.emod_lt_of_pos x (b := d) (by omega)
  have hup : (x / d + 1) * d = d * (x / d) + d := by rw [Int.add_mul, Int.one_mul, Int.mul_comm]
  have hdown : x / d * d = d * (x / d) := Int.mul_comm ..
  unfold nearestEven
  generalize x % d = m at *
  split
  · rw [hdown]
    omega
  · split
    · rw [hup]
      omega
    · split
      · rw [hdown]
        omega
      · rw [hup]
        omega

/-- A residual below the threshold has code 0. -/
theorem changeCode_quiet {x : Int} {theta : Nat} (shift : Nat) (h : x.natAbs < theta) : changeCode x theta shift = (0, false) :=
  if_neg (Nat.not_le.mpr h)

/-- One that reaches the threshold is rounded after the shift and clamped. -/
theorem changeCode_reached {x : Int} {theta : Nat} (shift : Nat) (h : theta ≤ x.natAbs) :
    let q := nearestEven x (2 ^ shift)
    changeCode x theta shift = (max (-127) (min 127 q), decide (q < -127 ∨ 127 < q)) := by
  simp only [changeCode, if_pos h]
  change (if 127 < nearestEven x (2 ^ shift) then _ else if nearestEven x (2 ^ shift) < -127 then _ else (nearestEven x (2 ^ shift), _)) = _
  generalize nearestEven x (2 ^ shift) = q
  split
  next hhigh =>
    rw [decide_eq_true (.inr hhigh), Int.min_eq_left (by omega), Int.max_eq_right (by omega)]
  next hhigh =>
    split
    next hlow =>
      rw [decide_eq_true (.inl hlow), Int.min_eq_right (by omega), Int.max_eq_left (by omega)]
    next hlow =>
      rw [decide_eq_false (by omega), Int.min_eq_right (by omega), Int.max_eq_right (by omega)]

/-- The code of a residual, by whether it reaches the threshold. -/
theorem changeCode_cases (x : Int) (theta shift : Nat) :
    (x.natAbs < theta → changeCode x theta shift = (0, false)) ∧
    (theta ≤ x.natAbs → ∃ q : Int, 2 * (x - q * 2 ^ shift).natAbs ≤ 2 ^ shift ∧
      (2 * (x - q * 2 ^ shift).natAbs = 2 ^ shift → q % 2 = 0) ∧
      changeCode x theta shift = (max (-127) (min 127 q), decide (q < -127 ∨ 127 < q))) := by
  refine ⟨changeCode_quiet shift, fun h => ⟨nearestEven x (2 ^ shift), ?_⟩⟩
  obtain ⟨hnear, heven⟩ := nearestEven_nearest x (Nat.two_pow_pos shift)
  push_cast at hnear heven
  exact ⟨hnear, heven, changeCode_reached shift h⟩

/-- What an unclamped code leaves of a residual (R191). -/
theorem changeCode_rest {x : Int} {theta shift : Nat} (h : (changeCode x theta shift).2 = false) :
    2 * ((x - (changeCode x theta shift).1 * (2 ^ shift : Nat)).natAbs : Int) ≤ max (2 * (theta : Int) - 2) (2 ^ shift) := by
  rcases Nat.lt_or_ge x.natAbs theta with hlt | hge
  · rw [changeCode_quiet shift hlt, Int.zero_mul, Int.sub_zero]
    omega
  · have hnear := (nearestEven_nearest x (Nat.two_pow_pos shift)).1
    rw [changeCode_reached shift hge] at h ⊢
    have hclamp : max (-127) (min 127 (nearestEven x (2 ^ shift))) = nearestEven x (2 ^ shift) := by
      have := of_decide_eq_false h
      omega
    simp only [hclamp]
    have hpow : ((2 ^ shift : Nat) : Int) = 2 ^ shift := by norm_cast
    rw [← hpow]
    generalize 2 ^ shift = d at *
    omega

/-! ## The slots of an SDU (R183) -/

theorem Sdu.rangeOf_congr {u u' : Sdu} (h : u'.ranges = u.ranges) (j : Nat) : u'.rangeOf j = u.rangeOf j := by
  simp only [Sdu.rangeOf, Sdu.range, h]

@[simp] theorem Sdu.moveSent_ranges (u : Sdu) (j d : Nat) (b : Int) : (u.moveSent j d b).ranges = u.ranges := rfl

theorem Sdu.moveSent_slot_ne (u : Sdu) {j k : Nat} (d : Nat) (b : Int) (h : k ≠ j) : (u.moveSent j d b).slot k = u.slot k :=
  mapGet_mapSet_ne _ _ _ _ _ h

theorem Sdu.moveSent_slot_self (u : Sdu) (j d : Nat) (b : Int) :
    (u.moveSent j d b).slot j = ((u.slot j).1, modifyAt (u.slot j).2 d (· + b)) := mapGet_mapSet_self ..

/-- A destination's sent value moves by the amount. -/
theorem Sdu.moveSent_sent_self (u : Sdu) {j d : Nat} (b : Int) (h : d < (u.slot j).2.length) :
    (u.moveSent j d b).sent j d = u.sent j d + b := by
  rw [Sdu.sent, Sdu.moveSent_slot_self]
  exact modifyAt_getD_self _ _ _ _ h

theorem Sdu.moveSent_sent_ne (u : Sdu) (j : Nat) {d c : Nat} (b : Int) (h : d ≠ c) : (u.moveSent j c b).sent j d = u.sent j d := by
  rw [Sdu.sent, Sdu.moveSent_slot_self]
  exact modifyAt_getD_ne _ _ _ _ _ h

theorem Sdu.moveSent_slot_length (u : Sdu) (j d : Nat) (b : Int) :
    ((u.moveSent j d b).slot j).2.length = (u.slot j).2.length := by
  simp [Sdu.moveSent_slot_self]

/-! ## One lane (R190) -/

section
variable (v f : Nat) (vals : Vec) (g : SdRun) (l : Nat)

/-- The code of a lane for a destination, from what the slot had sent before. -/
def SdRun.code (f : Nat) (vals : Vec) (g : SdRun) (l : Nat) (r : Range) (d : Nat) : Int × Bool :=
  changeCode (sextNat (laneOf vals 16 l) 16 - g.sdu.sent (f + l) d) (g.sdu.slot (f + l)).1 r.shift

/-- One destination's part of a lane: what its slot has sent there moves where the destination is valid and the code not 0. -/
def SdRun.move (f : Nat) (vals : Vec) (g : SdRun) (l : Nat) (r : Range) (u : Sdu) (d : Nat) : Sdu :=
  if (r.dests.getD d ⟨false, 0, 0, 0⟩).valid then
    if (g.code f vals l r d).1 != 0 then u.moveSent (f + l) d ((g.code f vals l r d).1 * (2 ^ r.shift : Nat)) else u
  else u

/-- A destination's part keeps what no move there changes. -/
theorem SdRun.move_keeps {γ : Type} (p : Sdu → γ) (r : Range) (u : Sdu) (d : Nat) (h : ∀ b, p (u.moveSent (f + l) d b) = p u) :
    p (g.move f vals l r u d) = p u := by
  unfold SdRun.move
  split
  · split
    · exact h _
    · rfl
  · rfl

/-- The value sent to a valid destination moves by its code's amount, which is 0 where the code is. -/
theorem SdRun.move_sent {r : Range} {u : Sdu} {d : Nat} (hvalid : (r.dests.getD d ⟨false, 0, 0, 0⟩).valid = true)
    (hlen : d < (u.slot (f + l)).2.length) :
    (g.move f vals l r u d).sent (f + l) d = u.sent (f + l) d + (g.code f vals l r d).1 * (2 ^ r.shift : Nat) := by
  rw [SdRun.move, if_pos hvalid]
  split
  next => exact u.moveSent_sent_self _ hlen
  next hcode =>
    have hzero : (g.code f vals l r d).1 = 0 := by simpa only [bne_iff_ne, ne_eq, Decidable.not_not] using hcode
    rw [hzero, Int.zero_mul, Int.add_zero]

/-- A lane outside every enabled range changes no slot. -/
theorem SdRun.lane_outside (h : g.sdu.rangeOf (f + l) = none) : (g.lane v f vals l).sdu = g.sdu := by
  simp only [SdRun.lane, h]

/-- A lane within a range goes through the destinations. -/
theorem SdRun.lane_inside {n : Nat} {r : Range} (h : g.sdu.rangeOf (f + l) = some (n, r)) :
    (g.lane v f vals l).sdu = (List.range 4).foldl (g.move f vals l r) g.sdu := by
  simp only [SdRun.lane, h, List.foldl_filter, List.foldl_map]
  rfl

/-- A lane keeps every range and every slot but its own. -/
theorem SdRun.lane_other {j : Nat} (hj : j ≠ f + l) :
    ((g.lane v f vals l).sdu.ranges, (g.lane v f vals l).sdu.slot j) = (g.sdu.ranges, g.sdu.slot j) := by
  match hr : g.sdu.rangeOf (f + l) with
  | none => rw [SdRun.lane_outside v f vals g l hr]
  | some (n, r) =>
    rw [SdRun.lane_inside v f vals g l hr]
    refine foldl_keeps (fun u : Sdu => (u.ranges, u.slot j)) _ (fun u d => ?_) _ _
    exact g.move_keeps f vals l (fun u => (u.ranges, u.slot j)) r u d fun b => by rw [u.moveSent_slot_ne _ _ hj, u.moveSent_ranges]

/-- The value sent to a valid destination moves by its code's amount. -/
theorem SdRun.lane_sent {n d : Nat} {r : Range} (h : g.sdu.rangeOf (f + l) = some (n, r)) (hd : d < 4)
    (hvalid : (r.dests.getD d ⟨false, 0, 0, 0⟩).valid = true) (hlen : (g.sdu.slot (f + l)).2.length = 4) :
    (g.lane v f vals l).sdu.sent (f + l) d = g.sdu.sent (f + l) d + (g.code f vals l r d).1 * (2 ^ r.shift : Nat) := by
  rw [SdRun.lane_inside v f vals g l h]
  refine foldl_once (p := fun u : Sdu => ((u.slot (f + l)).2.length, u.sent (f + l) d)) (P := fun z => z.2 = _) List.nodup_range
    (List.mem_range.mpr hd) (fun u c hc => ?_) fun u hu => ?_
  · exact g.move_keeps f vals l (fun u => ((u.slot (f + l)).2.length, u.sent (f + l) d)) r u c fun b => by
      rw [u.moveSent_sent_ne _ _ hc.symm, u.moveSent_slot_length]
  · obtain ⟨hulen, husent⟩ := Prod.ext_iff.mp hu
    simp only at hulen husent
    rw [← husent]
    exact g.move_sent f vals l hvalid (by rw [hulen, hlen]; exact hd)

end

/-! ## Sixteen lanes (R189) -/

/-- What an SDSTEP does to the SDU of its vcore. -/
def SdRun.lanes (v f : Nat) (vals : Vec) (u : Sdu) : SdRun :=
  (List.range 16).foldl (SdRun.lane v f vals) ⟨u, [], 0, 0, false⟩

/-- Each lane moves its own slot alone, so one lane's value is what that lane left. -/
theorem SdRun.lanes_sent (v f : Nat) (vals : Vec) (u : Sdu) {l n d : Nat} {r : Range} (hl : l < 16)
    (h : u.rangeOf (f + l) = some (n, r)) (hd : d < 4) (hvalid : (r.dests.getD d ⟨false, 0, 0, 0⟩).valid = true)
    (hlen : (u.slot (f + l)).2.length = 4) :
    (SdRun.lanes v f vals u).sdu.sent (f + l) d = u.sent (f + l) d +
      (changeCode (sextNat (laneOf vals 16 l) 16 - u.sent (f + l) d) (u.slot (f + l)).1 r.shift).1 * (2 ^ r.shift : Nat) := by
  have hfold := foldl_once (g := SdRun.lane v f vals) (a := ⟨u, [], 0, 0, false⟩) (p := fun g => (g.sdu.ranges, g.sdu.slot (f + l)))
    (P := fun z => z.2.2.getD d 0 = u.sent (f + l) d +
      (changeCode (sextNat (laneOf vals 16 l) 16 - u.sent (f + l) d) (u.slot (f + l)).1 r.shift).1 * (2 ^ r.shift : Nat))
    List.nodup_range (List.mem_range.mpr hl) (fun g c hc => g.lane_other v f vals c (by omega)) fun g hg => by
    obtain ⟨hranges, hslot⟩ := Prod.ext_iff.mp hg
    simp only at hranges hslot
    have hsent : g.sdu.sent (f + l) d = u.sent (f + l) d := by rw [Sdu.sent, hslot, Sdu.sent]
    have hlane := g.lane_sent v f vals l ((Sdu.rangeOf_congr hranges _).trans h) hd hvalid (hslot ▸ hlen)
    rwa [SdRun.code, hslot, hsent] at hlane
  exact hfold

/-! ## The instruction (R189, R192) -/

/-- The packets of an SDSTEP leave in the order of its lanes. -/
def State.sendAll (s : State) (t : Thread) (l : List (Nat × Word × Origin)) : State :=
  l.foldl (fun s p => s.sendPacket t.vcore p.1 t.ctx t.logical p.2.1 p.2.2) s

@[simp] theorem State.sendAll_threads (s : State) (t : Thread) (l : List (Nat × Word × Origin)) :
    (s.sendAll t l).threads = s.threads := foldl_keeps State.threads _ (fun s _ => s.sendPacket_threads ..) l s

@[simp] theorem State.sendAll_sdus (s : State) (t : Thread) (l : List (Nat × Word × Origin)) :
    (s.sendAll t l).sdus = s.sdus := foldl_keeps State.sdus _ (fun s _ => s.sendPacket_sdus ..) l s

section
variable {s : State} {tid : Nat} {t : Thread} {e : Entry} {v a : Reg} {mark : Bool}

theorem exec_sdstep (hw : Walking s tid t (.sdstep v a mark) e) (hstall : s.stalled = false) (hf : (e.op 0).toNat ≤ 4080)
    (hown : (s.sdu t.vcore).owner = some t.ctx) :
    let g := SdRun.lanes t.vcore (e.op 0).toNat (e.vop 0) (s.sdu t.vcore)
    exec (.sdstep v a mark) s = .next ((((s.updSdu t.vcore fun _ => g.sdu).sendAll t g.sent).updThr tid fun t =>
      { t with sdcnt := sdcntAfter t.sdcnt g }).finish tid e []) := by
  show execSdstep v a mark s = _
  rw [execSdstep, State.threadOp_walking _ _ _ _ _ _ _ _ hw]
  simp only [hstall, Nat.not_lt.mpr hf, hown, ne_eq, not_true_eq_false, Bool.false_eq_true, if_false]
  rfl

/-- The SDU after a plain SDSTEP is the one its lanes leave. -/
theorem exec_sdstep_sdu (hw : Walking s tid t (.sdstep v a mark) e) (hplain : e.Plain) (hstall : s.stalled = false)
    (hf : (e.op 0).toNat ≤ 4080) (hown : (s.sdu t.vcore).owner = some t.ctx) :
    ∃ s', exec (.sdstep v a mark) s = .next s' ∧
      s'.sdu t.vcore = (SdRun.lanes t.vcore (e.op 0).toNat (e.vop 0) (s.sdu t.vcore)).sdu := by
  refine ⟨_, exec_sdstep hw hstall hf hown, ?_⟩
  obtain ⟨r, hblock, -⟩ := hw.block
  rw [State.finish_updThr_plain _ hplain (t := t) (r := r) (by simpa [State.thr] using hw.known) hblock]
  simp [State.sdu, State.updSdu]

end

/-- Settles O46: a lane moves what it has sent by its unclamped code's amount, and no other lane moves it. -/
theorem residualBound : Obligations.ResidualBound := by
  refine ⟨?_, fun theta h => ?_⟩
  · intro s tid t e v a mark l d n r f u x theta hw hplain hstall hf hown hl hd hrange hvalid hlen hclamp
    obtain ⟨s', hexec, hsdu⟩ := exec_sdstep_sdu hw hplain hstall hf hown
    have hsent : (s'.sdu t.vcore).sent (f + l) d =
        u.sent (f + l) d + (changeCode (x - u.sent (f + l) d) theta r.shift).1 * (2 ^ r.shift : Nat) := by
      rw [hsdu]
      exact SdRun.lanes_sent _ f _ u hl hrange hd hvalid hlen
    have hrest := changeCode_rest hclamp
    rw [Int.sub_sub, ← hsent] at hrest
    refine ⟨s', hexec, hrest, fun hzero hshift => ?_⟩
    rw [hshift] at hrest
    omega
  · rw [changeCode_reached 2 h]
    rfl

end Sys2Proof.Machine
end

section
/-!
EVSEND, EVSTEP and RECV (R200 to R202).
-/
namespace Sys2Proof.Machine

/-! ## The inbox as RECV sees it (R202) -/

theorem bitAt_eq_testBit (n k : Nat) : bitAt n k = n.testBit k := (Nat.testBit_eq_decide_div_mod_eq).symm

/-- The head packet of the lowest class of the mask that holds one is taken. -/
theorem Inbox.take_lowest {ib : Inbox} {mask k : Nat} {p : Word} {r : List Word} (hk : k < 4) (hmask : mask.testBit k = true)
    (hq : ib.q.getD k [] = p :: r) (hlow : ∀ j, j < k → mask.testBit j = true → ib.q.getD j [] = []) :
    ib.take mask = some (p, { ib with q := ib.q.set k r }) := by
  have hfirst : ((List.range 4).find? fun c => bitAt mask c && !(ib.q.getD c []).isEmpty) = some k := by
    rw [List.find?_range_eq_some]
    refine ⟨by simp only [bitAt_eq_testBit, hmask, hq]; rfl, List.mem_range.mpr hk, fun j hj => ?_⟩
    cases hbit : mask.testBit j
    · simp [bitAt_eq_testBit, hbit]
    · simp only [hlow j hj hbit, List.isEmpty_nil, Bool.not_true, Bool.and_false, Bool.not_false]
  simp only [Inbox.take, hfirst, Option.bind_some, hq]

/-- Nothing is taken where no class of the mask holds a packet. -/
theorem Inbox.take_none {ib : Inbox} {mask : Nat} (h : ∀ k, k < 4 → mask.testBit k = true → ib.q.getD k [] = []) :
    ib.take mask = none := by
  have hnone : ((List.range 4).find? fun c => bitAt mask c && !(ib.q.getD c []).isEmpty) = none := by
    refine List.find?_eq_none.mpr fun k hk => ?_
    cases hbit : mask.testBit k
    · simp [bitAt_eq_testBit, hbit]
    · simp only [h k (List.mem_range.mp hk) hbit, List.isEmpty_nil, Bool.not_true, Bool.and_false, Bool.false_eq_true,
        not_false_eq_true]
  rw [Inbox.take, hnone]
  rfl

/-! ## A step that closes (R201) -/

theorem Sdu.closeStep_range {u : Sdu} {n : Nat} (logical : Nat) (h : n < u.ranges.length) :
    (u.closeStep n logical).range n = { u.range n with parity := 1 - (u.range n).parity, cur := (u.range n).cur + 1 } := by
  simp [Sdu.closeStep, Sdu.range, List.getD_eq_getElem?_getD, h]

/-! ## How the walk performs each -/

section
variable {s : State} {tid : Nat} {t : Thread} {e : Entry} {rd a b : Reg} {mark : Bool}

/-- The first time the walk stands at a well-formed EVSEND, its packet leaves. -/
theorem exec_evsend (hw : Walking s tid t (.evsend rd a b mark) e) (hstall : s.stalled = false) (hphase : e.phase = .fresh)
    (hdst : (e.op 0).toNat < 4096) (hmerges : fieldOf (e.op 1) 1 3 = 0) (hbits : fieldOf (e.op 1) 6 2 = 0)
    (hcls : t.cls ≤ packetClass (e.op 1)) :
    exec (.evsend rd a b mark) s = .next ((s.sendPacket t.vcore (e.op 0).toNat t.ctx t.logical (setField (e.op 1) 40 12 t.vcore)
      (.evsend tid)).setHead tid { e with phase := .accepted }) := by
  have hlow : fieldOf (e.op 0) 0 12 = (e.op 0).toNat := by
    rw [fieldOf, bitsOf, Nat.pow_zero, Nat.div_one]
    exact Nat.mod_eq_of_lt hdst
  have hhigh : fieldOf (e.op 0) 12 52 = 0 := by
    exact congrArg (· % 2 ^ 52) (Nat.div_eq_of_lt hdst)
  show execEvsend rd a b mark s = _
  rw [execEvsend, State.threadOp_walking _ _ _ _ _ _ _ _ hw]
  simp only [hphase, hstall, hlow, hhigh, hmerges, hbits, Nat.not_lt.mpr hcls]
  rfl

/-- EVSTEP closes the step and performs the wait for it. -/
theorem exec_evstep (hw : Walking s tid t (.evstep rd a b mark) e) (hn : (e.op 0).toNat < 8)
    (hown : (s.sdu t.vcore).owner = some t.ctx) (hen : ((s.sdu t.vcore).range (e.op 0).toNat).enabled = true) :
    exec (.evstep rd a b mark) s = .next ((s.updSdu t.vcore fun u => u.closeStep (e.op 0).toNat t.logical).performWait tid t e
      (s.newWait t (.evstep t.vcore (e.op 0).toNat ((s.sdu t.vcore).range (e.op 0).toNat).cur) rd (e.op 1)) none 0) := by
  show execEvstep rd a b mark s = _
  rw [execEvstep, State.threadOp_walking _ _ _ _ _ _ _ _ hw]
  simp only [Nat.not_lt.mpr (Nat.le_of_lt_succ hn), hown, hen, ne_eq, not_true_eq_false, Bool.not_true, Bool.false_eq_true, if_false]

/-- RECV of the inbox's owner takes a packet, or performs the wait for one. -/
theorem exec_recv {mask : Nat} (hw : Walking s tid t (.recv rd a b mark) e) (hsel : (e.op 0).toNat < 16)
    (hown : (s.inbox t.vcore).owner = some t.ctx) (hmask : (if (e.op 0).toNat = 0 then 15 else (e.op 0).toNat) = mask) :
    (∀ p ib, (s.inbox t.vcore).take mask = some (p, ib) → exec (.recv rd a b mark) s =
      .next (((s.updInbox t.vcore fun _ => ib).settleMarkers t.vcore).endWait tid e
        (s.newWait t (.recv t.vcore mask) rd (e.op 1)) ⟨s.pt, 0, 0, ib.left mask, p⟩)) ∧
    ((s.inbox t.vcore).take mask = none → exec (.recv rd a b mark) s =
      .next (s.performWait tid t e (s.newWait t (.recv t.vcore mask) rd (e.op 1)) none 0)) := by
  have hmod : (e.op 0).toNat % 16 = (e.op 0).toNat := Nat.mod_eq_of_lt hsel
  have hdiv : (e.op 0).toNat / 16 = 0 := Nat.div_eq_of_lt hsel
  have hexec : exec (.recv rd a b mark) s = execRecv rd a b mark s := rfl
  rw [hexec, execRecv, State.threadOp_walking _ _ _ _ _ _ _ _ hw]
  simp only [hmod, hdiv, hmask, hown, ne_eq, not_true_eq_false, if_false]
  exact ⟨fun p ib htake => by simp only [htake], fun htake => by simp only [htake]⟩

end

/-- A wait whose condition is not met yet parks before E. -/
theorem State.performWait_parks {s : State} {tid : Nat} {t : Thread} {e : Entry} {w : PWait} {late : Word} (h : s.pt < w.deadline) :
    s.performWait tid t e w none late = s.parkWait tid w :=
  if_neg (Nat.not_le.mpr h)

/-- Settles O45: each of the four is performed by the walk, and its operands choose what it does. -/
theorem channelsSend : Obligations.ChannelsSend := by
  refine ⟨?_, changeCode_cases, ?_, ?_, ?_⟩
  · intro s tid t e v a mark hw hstall hf hown
    have hexec := exec_sdstep hw hstall hf hown
    simp only [SdRun.lanes, State.sendAll, sdcntAfter] at hexec
    exact hexec
  · intro s tid t e rd a b mark
    exact exec_evsend
  · intro s tid t e rd a c mark hw n u hn hown hen hlen w hpt
    have hrange := u.closeStep_range t.logical hlen
    refine ⟨s.updSdu t.vcore fun u => u.closeStep n t.logical, ?_, ?_, ?_, ?_, rfl, ⟨rfl, rfl⟩⟩
    · rw [exec_evstep hw hn hown hen]
      exact congrArg Host.Outcome.next (State.performWait_parks hpt)
    · rw [State.sdu_updSdu_self, hrange]
    · rw [State.sdu_updSdu_self, hrange]
    · rw [State.sdu_updSdu_self]
      rfl
  · intro s tid t e rd a c mark hw sel mask ib w hsel hown
    obtain ⟨htakes, hwaits⟩ := exec_recv hw hsel hown (mask := mask) rfl
    refine ⟨fun k p r hk hbit hq _ hlow => htakes _ _ (Inbox.take_lowest hk hbit hq hlow), fun hempty hpt => ?_⟩
    exact (hwaits (Inbox.take_none hempty)).trans (congrArg Host.Outcome.next (State.performWait_parks hpt))

end Sys2Proof.Machine
end

section
/-!
What an inbox does with an arriving packet (R195, R196, R202).
-/
namespace Sys2Proof.Machine

/-! ## The word that is kept (R195) -/

theorem setField_mod (x : Word) {lo w : Nat} (n : Nat) (h : lo ≤ 64) : (setField x lo w n).toNat % 2 ^ lo = x.toNat % 2 ^ lo := by
  have hle : fieldOf x lo w * 2 ^ lo ≤ x.toNat :=
    Nat.le_trans (Nat.mul_le_mul_right _ (Nat.mod_le ..)) (Nat.div_mul_le_self ..)
  have hback : (x.toNat - fieldOf x lo w * 2 ^ lo) % 2 ^ lo = x.toNat % 2 ^ lo := by
    rw [← Nat.add_mul_mod_self_right (x.toNat - fieldOf x lo w * 2 ^ lo) (fieldOf x lo w), Nat.sub_add_cancel hle]
  rw [setField, BitVec.toNat_ofNat, Nat.mod_mod_of_dvd _ (Nat.pow_dvd_pow 2 h), Nat.add_mul_mod_self_right, hback]

/-- A field above MARK is no part of it. -/
theorem isMarker_setField (x : Word) {lo w : Nat} (n : Nat) (hlo : 6 < lo) (h : lo ≤ 64) : isMarker (setField x lo w n) = isMarker x := by
  have hbit (y : Word) : isMarker y = (y.toNat % 2 ^ lo).testBit 6 := by
    rw [Nat.testBit_mod_two_pow, decide_eq_true hlo, Bool.true_and, BitVec.testBit_toNat, isMarker]
  rw [hbit, hbit, setField_mod x n h]

/-- A packet as its inbox keeps it: a code of 0x80 is 0x81 with FIX. -/
def keptWord (w : Word) : Word := if fieldOf w 8 8 = 0x80 then setField (setField w 8 8 0x81) 7 1 1 else w

theorem isMarker_keptWord (w : Word) : isMarker (keptWord w) = isMarker w := by
  unfold keptWord
  split
  · rw [isMarker_setField _ _ (by decide) (by decide), isMarker_setField _ _ (by decide) (by decide)]
  · rfl

/-! ## The latest packet of a flow (R195) -/

/-- The last index at which a test holds. -/
theorem find_latest {n i : Nat} {f : Nat → Bool} : (List.range n).reverse.find? f = some i ↔
    i < n ∧ f i = true ∧ ∀ j, i < j → j < n → f j = false := by
  induction n with
  | zero => simp
  | succ n ih =>
    rw [List.range_succ, List.reverse_append, List.reverse_singleton, List.singleton_append, List.find?_cons]
    cases hn : f n with
    | true =>
      simp only [Option.some.injEq]
      constructor
      · rintro rfl
        exact ⟨Nat.lt_succ_self n, hn, fun j hlt hle => absurd hle (by omega)⟩
      · rintro ⟨hle, -, hlast⟩
        rcases Nat.lt_or_eq_of_le (Nat.le_of_lt_succ hle) with hlt | rfl
        · exact absurd (hlast n hlt (Nat.lt_succ_self n)) (by simp [hn])
        · rfl
    | false =>
      rw [ih]
      constructor
      · rintro ⟨hlt, hi, hlast⟩
        refine ⟨Nat.lt_succ_of_lt hlt, hi, fun j hij hj => ?_⟩
        rcases Nat.lt_or_eq_of_le (Nat.le_of_lt_succ hj) with hjn | rfl
        · exact hlast j hij hjn
        · exact hn
      · rintro ⟨hle, hi, hlast⟩
        have hne : i ≠ n := fun h => by simp [h, hn] at hi
        exact ⟨by omega, hi, fun j hij hj => hlast j hij (Nat.lt_succ_of_lt hj)⟩

/-- The packet at an index of a queue is of the same flow as another and no marker. -/
theorem sameFlow_iff {a b : Word} : sameFlow a b = true ↔
    isMarker a = false ∧ fieldOf a 16 48 = fieldOf b 16 48 ∧ fieldOf a 0 1 = fieldOf b 0 1 := by
  simp [sameFlow, and_assoc]

/-- The index of a queue at which the latest packet of a flow stands. -/
def LatestOf (q : List Word) (word : Word) (i : Nat) : Prop :=
  i < q.length ∧ sameFlow (q.getD i 0) word = true ∧ ∀ j, i < j → j < q.length → ¬sameFlow (q.getD j 0) word = true

theorem find_latestOf {q : List Word} {word : Word} {i : Nat} :
    (List.range q.length).reverse.find? (fun i => sameFlow (q.getD i 0) word) = some i ↔ LatestOf q word i := by
  simp only [find_latest, LatestOf, Bool.not_eq_true]

/-- Two packets may become one: fewer than 7 merges, and a sum that fits a code. -/
def Mergeable (old word : Word) : Prop :=
  fieldOf old 1 3 < 7 ∧ -127 ≤ packetCode old + packetCode word ∧ packetCode old + packetCode word ≤ 127

theorem mergeable_iff {old word : Word} : (decide (fieldOf old 1 3 < 7) && decide (-127 ≤ packetCode old + packetCode word) &&
    decide (packetCode old + packetCode word ≤ 127)) = true ↔ Mergeable old word := by
  simp [Mergeable, and_assoc]

/-- The packet two packets of one flow become. -/
def mergedWord (old word : Word) : Word :=
  setField (setField old 8 8 (truncInt (packetCode old + packetCode word) 8)) 1 3 (fieldOf old 1 3 + 1)

/-- A queue in which a packet has merged into the latest one of its flow, none where it does not merge. -/
def mergedQueue (q : List Word) (word : Word) : Option (List Word) :=
  ((List.range q.length).reverse.find? fun i => sameFlow (q.getD i 0) word).bind fun i =>
    if decide (fieldOf (q.getD i 0) 1 3 < 7) && decide (-127 ≤ packetCode (q.getD i 0) + packetCode word) &&
        decide (packetCode (q.getD i 0) + packetCode word ≤ 127) then
      some (q.set i (mergedWord (q.getD i 0) word))
    else none

theorem mergedQueue_some {q : List Word} {word : Word} {i : Nat} (h : LatestOf q word i) (hmerge : Mergeable (q.getD i 0) word) :
    mergedQueue q word = some (q.set i (mergedWord (q.getD i 0) word)) := by
  rw [mergedQueue, find_latestOf.mpr h]
  exact if_pos (mergeable_iff.mpr hmerge)

theorem mergedQueue_none {q : List Word} {word : Word} (h : ∀ i, LatestOf q word i → ¬Mergeable (q.getD i 0) word) :
    mergedQueue q word = none :=
  Option.bind_eq_none_iff.mpr fun i hi => if_neg fun hm => h i (find_latestOf.mp hi) (mergeable_iff.mp hm)

/-! ## What an inbox answers (R195) -/

/-- A number for each class, added up. -/
def sumClasses (f : Nat → Nat) : Nat := f 0 + f 1 + f 2 + f 3

/-- The markers an inbox holds. -/
def Inbox.markers (ib : Inbox) : Nat := sumClasses fun c => ((ib.q.getD c []).filter isMarker).length

/-- An inbox has room for one more packet of a class: of its capacity, and of the class's own share or the common one. -/
def Inbox.Room (ib : Inbox) (c : Nat) : Prop :=
  let occ := fun (k : Nat) => packetsIn (ib.q.getD k [])
  let res := fun (k : Nat) => fieldOf ib.evcfg (16 + 8 * k) 8
  let cap := fieldOf ib.evcfg 0 10
  sumClasses occ < cap ∧ (occ c < res c ∨ sumClasses (fun k => occ k - res k) < cap - sumClasses res)

/-- An empty inbox has room wherever its classes' own shares leave some in common. -/
theorem Inbox.room_of_empty {ib : Inbox} (c : Nat) (hempty : ∀ c, ib.q.getD c [] = []) (hcap : 0 < fieldOf ib.evcfg 0 10)
    (hres : sumClasses (fun k => fieldOf ib.evcfg (16 + 8 * k) 8) < fieldOf ib.evcfg 0 10) : ib.Room c := by
  have hnone : packetsIn [] = 0 := rfl
  simp only [Inbox.Room, hempty, hnone, Nat.zero_sub, sumClasses] at *
  exact ⟨hcap, .inr (Nat.sub_pos_of_lt hres)⟩

/-- The inbox with the queue of a class replaced. -/
def Inbox.setQueue (ib : Inbox) (c : Nat) (q : List Word) : Inbox := { ib with q := ib.q.set c q }

theorem Inbox.receive_closed {ib : Inbox} {ctx : Nat} (moving : Bool) (word : Word)
    (h : fieldOf ib.evcfg 48 1 = 0 ∨ ib.owner ≠ some ctx) : ib.receive ctx moving word = none := by
  rcases h with h | h <;> simp [Inbox.receive, h]

section
variable {ib : Inbox} {ctx : Nat} {word : Word} (hen : fieldOf ib.evcfg 48 1 = 1) (hown : ib.owner = some ctx)
include hen hown

/-- An inbox that is enabled for the packet's context answers a marker by the markers it holds. -/
theorem Inbox.receive_marker (hmark : isMarker word = true) : ib.receive ctx false word =
    if 64 ≤ ib.markers then none
    else some (ib.setQueue (packetClass word) (ib.q.getD (packetClass word) [] ++ [keptWord word])) := by
  have hkept : isMarker (keptWord word) = true := (isMarker_keptWord word).trans hmark
  have hopen : (decide (fieldOf ib.evcfg 48 1 = 0) || decide (ib.owner ≠ some ctx) || false) = false := by simp [hen, hown]
  unfold keptWord at *
  simp only [Inbox.receive, hopen, hkept, Bool.false_eq_true, if_true, if_false]
  rfl

/-- It answers another packet by whether that merges, and where it does not by its room. -/
theorem Inbox.receive_packet (hmark : isMarker word = false) :
    let c := packetClass word
    (∀ q, mergedQueue (ib.q.getD c []) (keptWord word) = some q → ib.receive ctx false word = some (ib.setQueue c q)) ∧
    (mergedQueue (ib.q.getD c []) (keptWord word) = none →
      (ib.Room c → ib.receive ctx false word = some (ib.setQueue c (ib.q.getD c [] ++ [keptWord word]))) ∧
      (¬ib.Room c → ib.receive ctx false word = none)) := by
  have hkept : isMarker (keptWord word) = false := (isMarker_keptWord word).trans hmark
  have hopen : (decide (fieldOf ib.evcfg 48 1 = 0) || decide (ib.owner ≠ some ctx) || false) = false := by simp [hen, hown]
  unfold mergedQueue mergedWord keptWord at *
  simp only [Inbox.receive, hopen, hkept, Bool.false_eq_true, if_false]
  refine ⟨fun q hq => ?_, fun hnone => ⟨fun hroom => ?_, fun hroom => ?_⟩⟩
  · rw [hq]
    rfl
  · rw [hnone]
    exact if_pos (by simpa [Inbox.Room, sumClasses] using hroom)
  · rw [hnone]
    exact if_neg (by simpa [Inbox.Room, sumClasses] using hroom)

end

/-! ## What stands at the heads, and who waits (R196, R202) -/

/-- With no marker at a head none is removed. -/
theorem State.settleMarkers_none {s : State} {v : Nat} (h : ∀ q ∈ (s.inbox v).q, q.takeWhile isMarker = []) :
    s.settleMarkers v = s := by
  have hheads : ((s.inbox v).q.flatMap fun q => q.takeWhile isMarker) = [] := List.flatMap_eq_nil_iff.mpr h
  simp [State.settleMarkers, hheads]

/-- Without a RECV of the owner's threads nobody is given a packet. -/
theorem State.giveReceiver_none {s : State} {v : Nat}
    (h : ∀ x ∈ s.threads, (s.inbox v).owner = some x.2.ctx → ∀ w ∈ x.2.allWaits, ∀ u m, w.kind ≠ .recv u m) :
    s.giveReceiver v = s := by
  have hnone : s.receivers v = [] := by
    refine List.flatMap_eq_nil_iff.mpr fun x hx => ?_
    split
    case isTrue hgate =>
      have hown : (s.inbox v).owner = some x.2.ctx := by
        simp only [Bool.and_eq_true, beq_iff_eq] at hgate
        exact hgate.1
      refine List.filterMap_eq_nil_iff.mpr fun w hw => ?_
      split
      case h_1 u m hkind => exact absurd hkind (h x hx hown w hw u m)
      case h_2 => rfl
    case isFalse => rfl
  simp [State.giveReceiver, hnone]

end Sys2Proof.Machine
end

section
/-!
Packets that arrive, settle, are taken back or sent again, and the markers of closed steps (R195 to R201).
-/
namespace Sys2Proof.Machine

/-! ## An arrival (R195) -/

/-- A packet's answer recorded and handed to the ring. -/
def State.answered (s : State) (p : Packet) (ok : Bool) : State :=
  State.ringPost { s with packets := s.packets.map fun q => if q.id = p.id then { q with answer := some ok } else q }
    p.id p.dst p.src (packetClass p.word) true

@[simp] theorem State.answered_threads (s : State) (p : Packet) (ok : Bool) : (s.answered p ok).threads = s.threads :=
  State.ringPost_threads ..

section
variable {s : State} {p : Packet} (hfind : (s.packets.find? fun q => q.id == p.id) = some p)
  (hfirst : (s.packets.find? fun q => q.src == p.src && q.dst == p.dst && q.answer.isNone && !q.resend &&
    fieldOf q.word 52 12 == fieldOf p.word 52 12 && packetClass q.word == packetClass p.word) = some p)
  (hstill : s.moving = none) (hoff : s.riding (.packet p.id) = false) (hturn : s.detGate p.ctx p.detKey = true)
include hfind hfirst hstill hoff hturn

/-- The first packet of its flow, off the ring and in its turn, is answered by its inbox. -/
theorem exec_eventPacketArrival :
    (∀ ib, (s.inbox p.dst).receive p.ctx false p.word = some ib → exec (.eventPacketArrival p.id) s =
      .next ((((s.answered p true).updInbox p.dst fun _ => ib).settleMarkers p.dst).giveReceiver p.dst)) ∧
    ((s.inbox p.dst).receive p.ctx false p.word = none → exec (.eventPacketArrival p.id) s = .next (s.answered p false)) := by
  have hmoves : s.inboxMoves p.dst = false := by simp [State.inboxMoves, hstill]
  have hexec : exec (.eventPacketArrival p.id) s = execEventPacketArrival p.id s := rfl
  rw [hexec, execEventPacketArrival, hfind]
  simp only [hfirst, hoff, hturn, hmoves, Option.map_some, ne_eq, not_true_eq_false, decide_false, Bool.not_true, Bool.or_self,
    Bool.false_eq_true, if_false]
  refine ⟨fun ib hib => ?_, fun hnone => ?_⟩
  · rw [hib]
    rfl
  · rw [hnone]
    rfl

/-- A packet kept in an inbox all of whose queues are empty, where no thread waits for one. -/
theorem exec_eventPacketArrival_empty {ib : Inbox} (hib : ib = s.inbox p.dst) (hen : fieldOf ib.evcfg 48 1 = 1) (hown : ib.owner = some p.ctx)
    (hmark : isMarker p.word = false) (hcode : fieldOf p.word 8 8 ≠ 0x80) (hempty : ∀ c, ib.q.getD c [] = [])
    (hroom : ib.Room (packetClass p.word))
    (hnobody : ∀ x ∈ s.threads, x.2.ctx = p.ctx → ∀ w ∈ x.2.allWaits, ∀ u m, w.kind ≠ .recv u m) :
    exec (.eventPacketArrival p.id) s =
      .next ((s.answered p true).updInbox p.dst fun _ => ib.setQueue (packetClass p.word) [p.word]) := by
  have hkept : keptWord p.word = p.word := if_neg hcode
  have halone : mergedQueue [] p.word = none := rfl
  have hreceive := ((Inbox.receive_packet hen hown hmark).2 (by rw [hempty, hkept, halone])).1 hroom
  rw [hempty, hkept, List.nil_append, hib] at hreceive
  rw [(exec_eventPacketArrival hfind hfirst hstill hoff hturn).1 _ hreceive, State.settleMarkers_none, State.giveReceiver_none, hib]
  · intro x hx hctx
    rw [State.inbox_updInbox_self] at hctx
    rw [State.updInbox_threads, State.answered_threads] at hx
    exact hnobody x hx (Option.some.inj (hctx.symm.trans (hib ▸ hown)))
  · intro q hq
    rw [State.inbox_updInbox_self] at hq
    rcases List.mem_or_eq_of_mem_set hq with hold | rfl
    · obtain ⟨i, hi, rfl⟩ := List.mem_iff_getElem.mp hold
      have hnil := hempty i
      rw [hib, List.getD_eq_getElem?_getD, List.getElem?_eq_getElem hi, Option.getD_some] at hnil
      rw [hnil]
      rfl
    · simp [hmark]

end

/-! ## Settling (R198 to R200) -/

/-- A packet gone from those on their way. -/
def State.forget (s : State) (p : Packet) : State := { s with packets := s.packets.filter fun q => q.id != p.id }

/-- The EVSEND its thread's walk stands at ends with the status of its packet. -/
theorem State.endEvsend_eq {s : State} {tid : Nat} {t : Thread} {e : Entry} {rest : List Entry} {rd a b : Reg} {mark : Bool}
    (code : Nat) (ht : s.thr tid = some t) (hblock : t.block = e :: rest) (hwalk : t.walking = true) (hphase : e.phase = .accepted)
    (hins : e.ins = .evsend rd a b mark) : s.endEvsend tid code = s.finishX tid e rd (status code 0 0) := by
  simp [State.endEvsend, ht, hblock, hins, hwalk, hphase]

theorem Sdu.countNack_slots (u : Sdu) (range step : Nat) : (u.countNack range step).slots = u.slots := by
  unfold Sdu.countNack
  split <;> rfl

section
variable {s : State} {p : Packet} {ok : Bool} (hoff : s.riding (.packet p.id) = false)
include hoff

theorem State.settled_eq (hfind : (s.packets.find? fun q => q.id == p.id && q.answer == some ok) = some p) :
    s.settled p.id ok = some p := by
  rw [State.settled, hoff]
  exact hfind

/-- An acknowledged packet settles; its EVSEND ends OK. -/
theorem exec_packetAck (hfind : (s.packets.find? fun q => q.id == p.id && q.answer == some true) = some p) :
    (∀ a b c d f, p.from_ = .sdstep a b c d f → exec (.packetAck p.id) s = .next (s.forget p)) ∧
    (∀ tid, p.from_ = .evsend tid → exec (.packetAck p.id) s = .next ((s.forget p).endEvsend tid 0)) := by
  have hexec : exec (.packetAck p.id) s = execPacketAck p.id s := rfl
  rw [hexec, execPacketAck, State.settled_eq hoff hfind]
  exact ⟨fun a b c d f hfrom => by simp only [hfrom]; rfl, fun tid hfrom => by simp only [hfrom]; rfl⟩

/-- A refused packet of an SDSTEP takes its change back, one of an EVSEND ends it with FULL, a marker waits to be sent again. -/
theorem exec_packetNack (hfind : (s.packets.find? fun q => q.id == p.id && q.answer == some false) = some p) :
    (∀ slot dest amount range step, p.from_ = .sdstep slot dest amount range step → exec (.packetNack p.id) s =
      .next ((s.forget p).updSdu p.src fun u => (u.moveSent slot dest (-amount)).countNack range step)) ∧
    (∀ tid, p.from_ = .evsend tid → exec (.packetNack p.id) s = .next ((s.forget p).endEvsend tid 4)) ∧
    (∀ r k d, p.from_ = .marker r k d → exec (.packetNack p.id) s = .next { s with
      packets := s.packets.map fun q => if q.id = p.id then { q with answer := none, resend := true } else q }) := by
  have hexec : exec (.packetNack p.id) s = execPacketNack p.id s := rfl
  rw [hexec, execPacketNack, State.settled_eq hoff hfind]
  exact ⟨fun slot dest amount range step hfrom => by simp only [hfrom]; rfl, fun tid hfrom => by simp only [hfrom]; rfl,
    fun r k d hfrom => by simp only [hfrom]⟩

end

/-- What a slot has sent after a refusal took a change back. -/
theorem State.sent_takenBack (s : State) (v range step : Nat) {slot dest : Nat} (amount : Int)
    (h : dest < ((s.sdu v).slot slot).2.length) :
    ((s.updSdu v fun u => (u.moveSent slot dest (-amount)).countNack range step).sdu v).sent slot dest =
      (s.sdu v).sent slot dest - amount := by
  have hslot : ((((s.sdu v).moveSent slot dest (-amount)).countNack range step)).sent slot dest =
      ((s.sdu v).moveSent slot dest (-amount)).sent slot dest := by
    rw [Sdu.sent, Sdu.slot, Sdu.countNack_slots, ← Sdu.slot, ← Sdu.sent]
  rw [State.sdu_updSdu_self, hslot, Sdu.moveSent_sent_self _ _ h, Int.sub_eq_add_neg]

theorem exec_markerResend {s : State} {p : Packet} (hfind : (s.packets.find? fun q => q.id == p.id && q.resend) = some p)
    (hstall : s.stalled = false) : exec (.markerResend p.id) s =
      .next (State.ringPost { s with packets := (s.forget p).packets ++ [{ p with resend := false, sentAt := s.pt }] }
        p.id p.src p.dst (packetClass p.word) false) := by
  show execMarkerResend p.id s = _
  simp only [execMarkerResend, hfind, hstall, Bool.false_eq_true, if_false]
  rfl

/-! ## The markers of a closed step (R201) -/

/-- The packet of a step's marker has its MARK bit. -/
theorem isMarker_eventPacket (channel src index code par cls : Nat) : isMarker (eventPacket channel src index code par cls true) = true := by
  rw [isMarker, eventPacket, w64, BitVec.getLsbD_ofNat, Nat.testBit_eq_decide_div_mod_eq, decide_eq_true (by decide), Bool.true_and,
    decide_eq_true_eq, if_pos rfl]
  omega

/-- A marker sent to one destination of a range, where that is valid. -/
def State.sendMarker (s : State) (v range owner : Nat) (k : SdStep) (r : Range) (d : Nat) : State :=
  if (r.dests.getD d ⟨false, 0, 0, 0⟩).valid then
    s.sendPacket v (r.dests.getD d ⟨false, 0, 0, 0⟩).vcore owner k.logical
      (eventPacket r.channel v ((r.dests.getD d ⟨false, 0, 0, 0⟩).ctr / 8) 0 k.parity r.cls true) (.marker range k.num d)
  else s

/-- A marker of a step on its way from a vcore to one of its destinations. -/
def State.MarkerSent (s : State) (v range num d dst : Nat) : Prop :=
  ∃ q ∈ s.packets, q.src = v ∧ q.dst = dst ∧ isMarker q.word = true ∧ q.from_ = .marker range num d

theorem State.sendPacket_markerSent (s : State) (src dst ctx logical range num d : Nat) {word : Word} (h : isMarker word = true) :
    (s.sendPacket src dst ctx logical word (.marker range num d)).MarkerSent src range num d dst := by
  refine ⟨⟨s.nextId, src, dst, ctx, word, .marker range num d, none, false, s.pt, logical⟩, ?_, rfl, rfl, h, rfl⟩
  rw [State.sendPacket_packets]
  exact List.mem_append_right _ (List.mem_singleton.mpr rfl)

section
variable (s : State) (v range owner : Nat) (k : SdStep) (r : Range)

theorem State.sendMarker_sdus (d : Nat) : (s.sendMarker v range owner k r d).sdus = s.sdus := by
  unfold State.sendMarker
  split
  · exact State.sendPacket_sdus ..
  · rfl

theorem State.sendMarker_memory (d : Nat) :
    ((s.sendMarker v range owner k r d).mem, (s.sendMarker v range owner k r d).poison) = (s.mem, s.poison) := by
  unfold State.sendMarker
  split
  · obtain ⟨hmem, hpoison⟩ := sameMemory_sendPacket s ..
    exact Prod.ext hmem hpoison
  · rfl

theorem State.MarkerSent.sendMarker {s : State} {range' num d dst : Nat} (h : s.MarkerSent v range' num d dst) (c : Nat) :
    (s.sendMarker v range owner k r c).MarkerSent v range' num d dst := by
  obtain ⟨q, hq, hmarker⟩ := h
  refine ⟨q, ?_, hmarker⟩
  unfold State.sendMarker
  split
  · rw [State.sendPacket_packets]
    exact List.mem_append_left _ hq
  · exact hq

/-- Each valid destination gets the step's marker. -/
theorem State.sendMarkers_sent {d : Nat} (hd : d ∈ List.range 4) (hvalid : (r.dests.getD d ⟨false, 0, 0, 0⟩).valid = true) :
    ((List.range 4).foldl (fun s d => s.sendMarker v range owner k r d) s).MarkerSent v range k.num d
      (r.dests.getD d ⟨false, 0, 0, 0⟩).vcore := by
  refine foldl_established (P := fun s : State => s.MarkerSent v range k.num d _) hd (fun s => ?_)
    (fun s c h => h.sendMarker v range owner k r c) s
  rw [State.sendMarker, if_pos hvalid]
  exact s.sendPacket_markerSent _ _ _ _ _ _ _ (isMarker_eventPacket ..)

end

/-- A step one of whose markers is on its way is not Done. -/
theorem State.endStep_marked {s : State} {v range num d dst : Nat} (h : s.MarkerSent v range num d dst) :
    s.endStep v range num = s := by
  obtain ⟨q, hq, hsrc, -, -, hfrom⟩ := h
  unfold State.endStep
  extract_lets marked
  have hmarked : marked = true := List.any_eq_true.mpr ⟨q, hq, by simp [hsrc, hfrom]⟩
  rw [hmarked]
  split
  · simp
  · rfl

/-- A closed step that is Marking from now on. -/
def Sdu.mark (u : Sdu) (k : SdStep) : Sdu := { u with steps := u.steps.map fun x => if x = k then { x with marking := true } else x }

/-- A step Marking, and its markers sent. -/
def State.markStep (s : State) (v range : Nat) (k : SdStep) : State :=
  let u := s.sdu v
  (List.range 4).foldl (fun s d => s.sendMarker v range (u.owner.getD 0) k (u.range range) d) (s.updSdu v fun u => u.mark k)

section
variable (s : State) (v range : Nat) (k : SdStep)

theorem State.markStep_memory : SameMemory s (s.markStep v range k) :=
  Prod.mk.inj (foldl_keeps (fun s : State => (s.mem, s.poison)) _ (fun s d => s.sendMarker_memory v range _ k _ d) _ _)

/-- Each valid destination of the range gets the step's marker. -/
theorem State.markStep_sent {d : Nat} (hd : d < 4)
    (hvalid : (((s.sdu v).range range).dests.getD d ⟨false, 0, 0, 0⟩).valid = true) :
    (s.markStep v range k).MarkerSent v range k.num d (((s.sdu v).range range).dests.getD d ⟨false, 0, 0, 0⟩).vcore :=
  State.sendMarkers_sent _ v range _ k _ (List.mem_range.mpr hd) hvalid

theorem State.markStep_steps : ((s.markStep v range k).sdu v).steps = ((s.sdu v).mark k).steps := by
  have hsdus : (s.markStep v range k).sdus = (s.updSdu v fun u => u.mark k).sdus :=
    foldl_keeps State.sdus _ (fun s d => s.sendMarker_sdus v range _ k _ d) _ _
  rw [State.sdu_congr hsdus, State.sdu_updSdu_self]

end

/-- The oldest closed step of a range, with no packet of its own on its way, sends its markers. -/
theorem exec_stepMarkerSend {s : State} {v range : Nat} {k : SdStep}
    (hfind : ((s.sdu v).steps.find? fun k => k.range == range) = some k) (hmarking : k.marking = false) (hstall : s.stalled = false)
    (hquiet : ∀ q ∈ s.packets, q.src = v → ∀ a b c n, q.from_ ≠ .sdstep a b c range n ∨ n ≠ k.num) :
    exec (.stepMarkerSend v range) s = .next ((s.markStep v range k).endStep v range k.num) := by
  show execStepMarkerSend v range s = _
  simp only [execStepMarkerSend, hfind, hmarking, hstall, Bool.false_or, Bool.or_false]
  refine if_neg ?_
  rw [Bool.not_eq_true, List.any_eq_false]
  intro q hq h
  obtain ⟨hsrc, horigin⟩ := Bool.and_eq_true_iff.mp h
  split at horigin
  case h_1 a b c r n hfrom =>
    obtain ⟨hr, hn⟩ := Bool.and_eq_true_iff.mp horigin
    rcases hquiet q hq (eq_of_beq hsrc) a b c n with hne | hne
    · exact hne (eq_of_beq hr ▸ hfrom)
    · exact hne (eq_of_beq hn)
  case h_2 => cases horigin

/-- Settles O53: the arrival by what the inbox answers, the settling and the resending by where the packet came from, and a step
that has sent a marker is not Done at once. -/
theorem packetsTravel : Obligations.PacketsTravel := by
  intro s p gone
  refine ⟨?arrival, ?acknowledged, ?refused, exec_markerResend, ?markers⟩
  case arrival =>
    intro hfind hfirst hstill hoff hturn ib word c q sum4 occ res cap room same latest sum merges said takes
    obtain ⟨haccepts, hrefuses⟩ := exec_eventPacketArrival hfind hfirst hstill hoff hturn
    have hlatest : ∀ i, latest i ↔ LatestOf q word i := fun i => by
      simp only [latest, same, LatestOf, sameFlow_iff]
    refine ⟨fun hen hown => ⟨fun hmark hfew => ?_, fun hmark hmany => ?_, fun i hmark hi hmerge => ?_, fun hmark hno => ?_⟩,
      fun hclosed => hrefuses (Inbox.receive_closed _ _ hclosed), ?_⟩
    · exact haccepts _ ((Inbox.receive_marker hen hown hmark).trans (if_neg (Nat.not_le.mpr hfew)))
    · exact hrefuses ((Inbox.receive_marker hen hown hmark).trans (if_pos hmany))
    · exact haccepts _ ((Inbox.receive_packet hen hown hmark).1 _ (mergedQueue_some ((hlatest i).mp hi) hmerge))
    · obtain ⟨hroom, hfull⟩ := (Inbox.receive_packet hen hown hmark).2 (mergedQueue_none fun i hi => hno i ((hlatest i).mpr hi))
      exact ⟨fun h => haccepts _ (hroom h), fun h => hrefuses (hfull h)⟩
    · intro hen hown hmark hcode hempty _ hcap hres hnobody
      exact exec_eventPacketArrival_empty hfind hfirst hstill hoff hturn rfl hen hown hmark hcode hempty
        (Inbox.room_of_empty _ hempty hcap hres) hnobody
  case acknowledged =>
    intro hfind hoff
    obtain ⟨hsdstep, hevsend⟩ := exec_packetAck hoff hfind
    refine ⟨hsdstep, fun tid t e rest rd a b mark hfrom ht hblock hwalk hphase hins => ?_⟩
    exact (hevsend tid hfrom).trans (congrArg Host.Outcome.next (State.endEvsend_eq (s := gone) 0 ht hblock hwalk hphase hins))
  case refused =>
    intro hfind hoff
    obtain ⟨hsdstep, hevsend, hmarker⟩ := exec_packetNack hoff hfind
    refine ⟨fun slot dest amount range step hfrom hdest => ?_,
      fun tid t e rest rd a b mark hfrom ht hblock hwalk hphase hins => ?_, hmarker⟩
    · exact ⟨_, hsdstep slot dest amount range step hfrom, rfl, (s.forget p).sent_takenBack p.src range step amount hdest⟩
    · exact (hevsend tid hfrom).trans (congrArg Host.Outcome.next (State.endEvsend_eq (s := gone) 4 ht hblock hwalk hphase hins))
  case markers =>
    intro v range k u hfind hmarking hstall hquiet hvalid
    obtain ⟨d, hd, hdest⟩ := hvalid
    have hexec := exec_stepMarkerSend hfind hmarking hstall hquiet
    rw [State.endStep_marked (s.markStep_sent v range k (List.mem_range.mp hd) hdest)] at hexec
    refine ⟨_, hexec, s.markStep_steps v range k, ?_, s.markStep_memory v range k⟩
    rintro c x hc rfl hx
    exact s.markStep_sent v range k hc hx

end Sys2Proof.Machine
end
